-- ==== Sys2Proof/Word.lean ====
section
/-! DEFINITION. The plain types every other file uses: words, bytes, instance numbers and
fixed tables of like things (R7, R8, and the instance counts of R3). -/

namespace Sys2Proof

/-- A 32-bit register or memory word (R8). -/
abbrev Word := BitVec 32
/-- One byte. -/
abbrev Byte := BitVec 8
/-- A 64-bit memory word or time word (R4, R8). -/
abbrev DWord := BitVec 64
/-- A channel number (R7). -/
abbrev Chan := Fin 512
/-- An axis number (R51). -/
abbrev Axis := Fin 64
/-- A Grinil link number (R278). -/
abbrev LinkNo := Fin 32
/-- A clove engine number (R261). -/
abbrev CloveNo := Fin 32
/-- A lookout number (R310). -/
abbrev LkNo := Fin 32
/-- A transfer channel number (R350). -/
abbrev XcNo := Fin 32
/-- A data bank number (R358). -/
abbrev BankNo := Fin 16
/-- An almanac table number (R219). -/
abbrev TableNo := Fin 64
/-- A compass engine number. -/
abbrev EngineNo := Fin 16
/-- An event source number (R381). -/
abbrev SourceNo := Fin 256

/-- A fixed number of like things. -/
abbrev Tab (α : Type) (n : Nat) := Vector α n

/-- Every entry the same. -/
def Tab.all {α : Type} {n : Nat} (a : α) : Tab α n := Vector.replicate n a

/-- Entry `i`. -/
def Tab.at {α : Type} {n : Nat} (t : Tab α n) (i : Fin n) : α := t[i]

/-- The table with entry `i` replaced. -/
def Tab.put {α : Type} {n : Nat} (t : Tab α n) (i : Fin n) (a : α) : Tab α n := t.set i a

/-- The table with entry `i` changed by `f`. -/
def Tab.upd {α : Type} {n : Nat} (t : Tab α n) (i : Fin n) (f : α → α) : Tab α n :=
  t.put i (f (t.at i))

/-- Why an upstream frame is bad or missing (R284, and the counters of GLK_ERR, R309). -/
inductive BadFrame where
  | crc | code | kind | epoch | missing
  deriving DecidableEq, Repr

/-- Why a quad-SPI transaction ended in a protocol error (R400, R428). -/
inductive ProtoError where
  /-- The command byte that the transaction began with. -/
  | command (byte : Byte)
  | alignment
  | midWord
  deriving DecidableEq, Repr

/-- The two core supplies of R434. -/
inductive CoreSupply where
  | vcore | vaux
  deriving DecidableEq, Repr

/-- A monitored supply: those of R434, and VKEEL (R443). -/
inductive Supply where
  | core (c : CoreSupply)
  | vio (k : Fin 8)
  | vkeel
  deriving DecidableEq, Repr

/-- Which of the cold-reset causes of R435 is met by the PORST command. -/
inductive ColdCause where
  | porstPin | powerUp
  deriving DecidableEq, Repr

/-- A switched power domain other than a bank (R431, R432). -/
inductive PowerDomain where
  | alm | link | ana
  deriving DecidableEq, Repr

/-- What is wrong with the cells of a row: bit `bit` of word `k` always reads `v`, or the read at access `op` of
March element `element` of word `k` returns the bits of `mask` inverted (R368; element 6 is the read-back of R372). -/
inductive CellFault where
  | stuck (k : Fin 64) (bit : Fin 64) (v : Bool)
  | misread (element op : Nat) (k : Fin 64) (mask : DWord)
  deriving DecidableEq, Repr

/-- The two parts of the mace's work on a window (R372): copy and borrow; test, restore and release, of cells
with these faults and, for LIVEREP, a spare with these. -/
inductive WindowPart where
  | borrow
  | finish (row spare : List CellFault)
  deriving DecidableEq, Repr

/-- A fault of the cells that a row of a bank stands on (R370). -/
structure RowFault where
  bank : BankNo
  row  : Fin 256
  fault : CellFault
  deriving DecidableEq, Repr

/-- A fault of the cells of a spare row (R371, R376). -/
structure SpareFault where
  bank  : BankNo
  spare : Fin 2
  fault : CellFault
  deriving DecidableEq, Repr

/-- A fuse field that can fail its check (R422): FUSE selector 1 to 4 and slot. -/
structure FuseCheck where
  sel  : Fin 5
  slot : Fin 4
  deriving DecidableEq, Repr

/-- One phase of the boot flow ending (R436), with what the phase finds outside the logic:
the HSEL strap and the failing fuse checks, the faults of the cells under the start-up March, the flash image (empty for none) and whether the store
reads back as written,
and the supplies that stand at 3.3 V. -/
inductive BootStage where
  | fuse (parallel : Bool) (bad : List FuseCheck) (vio33 : Byte)
  | test (faults : List RowFault) (spareFaults : List SpareFault)
  | clear
  | load (flash : List Byte) (storeOk : Bool)
  | ready
  deriving DecidableEq, Repr

end Sys2Proof
end

