-- ==== Sys2Proof/Syntax.lean ====
section
/-! DEFINITION. The commands of the block: one constructor per row of spec/opcode_table.json,
with the row's operands. `ch` is a channel number (for a program's instruction, the home channel
of the running service that executes it), stamps are machine times in ticks (R31). -/

namespace Sys2Proof

/-- A command sent to the block. -/
inductive Instr where
  /-- BASE_PERIOD_BOUNDARY (R144): At each 4 ns boundary, machine time advances by 32 tk and the device acts in the fixed order of steps 1 to 6. -/
  | basePeriodBoundary
  /-- PLL_LOCK (R30): The sextant PLL locks after power-up, and machine time is set to 0 at the first boundary after lock. -/
  | pllLock
  /-- REF_LOST (R29): No REFCLK edge for 160 ns clears REF_OK, holds the PLL and raises a HALT-class REF fault. -/
  | refLost
  /-- REF_RESTORED (R49): REFCLK edges return and REF_RESTORED is raised; the REF fault persists until the host clears it. -/
  | refRestored
  /-- PLL_UNLOCK (R29): The PLL loses lock, raising PLL_UNLOCK and a HALT-class REF fault. -/
  | pllUnlock
  /-- ICAL_FAIL (R28): Background calibration finds an interpolator phase beyond 1/2 tk, sets ICAL.FAIL, clears ICAL_OK and raises ICAL_FAIL. -/
  | icalFail (cell : Fin 288) (worst : Byte)
  /-- MT_LO_READ (R31): A read of STB_MT_LO latches machine time and plant time of that boundary into the five latch registers. -/
  | mtLoRead
  /-- OFS_LO_READ (R50): A read of STB_OFS_LO latches OFS_HI and both EPOCH registers. -/
  | ofsLoRead
  /-- TPPS_EDGE (R36): An active TPPS edge is stamped and accepted or rejected by servo state; an accepted edge runs the servo. -/
  | tppsEdge (rising : Bool) (stamp : DWord) (width : Word)
  /-- PPS_MISSING (R37): The acceptance window ends with no accepted edge; a miss is counted and HOLDOVER may be entered. -/
  | ppsMissing
  /-- TTOD_FRAME (R39): A complete TTOD frame is checked for sync, stops, gaps, CRC, version, VALID and timing, and is accepted or counted as an error. -/
  | ttodFrame (bytes : Tab Byte 12) (stopsOk : Bool) (gapBits : BitVec 16) (endStamp : DWord)
  /-- DISC_EN (R44): A write to STB_CTL.DISC_EN starts acquisition or tracking, or returns the servo to FREE or COARSE. -/
  | discEn (on : Bool)
  /-- REALIGN (R44): A write of 1 to STB_CTL.REALIGN moves TRACK, LOCKED or HOLDOVER to ACQ. -/
  | realign
  /-- KXCAL_UPDATE (R47): Every 64 s in LOCKED, the XKEEL error is written to STB_KXCAL and XCAL_VALID is set. -/
  | kxcalUpdate (ppb : BitVec 16)
  /-- KEEL_POWER_ON (R45): VKEEL rises through 1.5 V; the keel counter, anchors and calibration clear, and KEEL_LOST and CTR_LOST are set. -/
  | keelPowerOn
  /-- XKEEL_STOPPED (R443): No XKEEL edge for 1 ms clears XKEEL_RUN, and no anchor is taken. -/
  | xkeelStopped
  /-- AXIS_ENABLE (R72): AXS_CTL.EN written 1 enables the axis, clears the epoch and loads the quadrature count from ZPOS. -/
  | axisEnable (ax : Axis)
  /-- AXIS_DISABLE (R70): AXS_CTL.EN written 0 enters NOFIX after the fix of the boundary and discards dependent provisional actions. -/
  | axisDisable (ax : Axis)
  /-- CLR (R72): AXS_CTL.CLR enters NOFIX at the boundary of service, after that boundary's fix. -/
  | clr (ax : Axis)
  /-- QUAD_EDGE (R56): A counting A or B transition changes the quadrature count and yields a fix when FIXINT has passed.
  `stamp` is the ball time of the crossing, before CHN_PIN.SKEW (log 15). -/
  | quadEdge (ch : Chan) (level : Bool) (stamp : DWord)
  /-- STANDSTILL_FIX (R56): STILL µs pass with no counting edge, and a standstill fix at count + 0.5 is made. -/
  | standstillFix (ax : Axis)
  /-- Z_REFERENCE (R57): A rising Z edge is stamped and, under REF_ONCE or REF_ALL, sets the count to ZPOS.
  `stamp` is the ball time of the edge (log 15). -/
  | zReference (ch : Chan) (stamp : DWord)
  /-- VM_GO (R59): A write to AXS_VM_GO copies the virtual-master registers, converts the stamp and submits a host fix. -/
  | vmGo (ax : Axis) (tscale : Bool)
  /-- FIX_TAKES_EFFECT (R60): The dead-reckoning unit takes the next queued fix, checks it, and updates the estimate and epoch. -/
  | fixTakesEffect
  /-- FIX_TIMEOUT (R64): No fix is accepted within TMO µs; FIXLATE is set, TIMEOUT is raised, and NOFIX is entered with TMO_DROP. -/
  | fixTimeout (ax : Axis)
  /-- CHANNEL_ENABLE (R85): CHN_CTL.EN written 1 takes the ball at the safe level in output modes and starts a latched train or program. -/
  | channelEnable (ch : Chan)
  /-- CHANNEL_DISABLE (R85): CHN_CTL.EN written 0 discards actions, stops the train, drops a pending apply, stops the program and returns the ball to its safe level. -/
  | channelDisable (ch : Chan)
  /-- APPLY_GO (R116): A write of CHN_APPLY.GO starts a per-channel apply, or is refused with STGREF while one is pending. -/
  | applyGo (ch : Chan) (atmode : BitVec 2) (axis : Axis) (dropFirst : Bool)
  /-- APPLY_CANCEL (R114): CHN_APPLY.CANCEL drops a pending per-channel apply at the boundary of service. -/
  | applyCancel (ch : Chan)
  /-- APPLY_LATCH (R115): A pending apply takes effect at its instant; the shadow set is checked and copied to the live set or refused with CFGERR. -/
  | applyLatch (ch : Chan)
  /-- GAPPLY_GO (R118): SYS_GAPPLY.GO latches the mask, ATMODE and time and starts a group apply, or is ignored with REF. -/
  | gapplyGo (atTime : Bool) (dropFirst : Bool)
  /-- GAPPLY_CANCEL (R118): SYS_GAPPLY.CANCEL drops a pending group apply at the boundary of service. -/
  | gapplyCancel
  /-- GAPPLY_LATCH (R118): At boundary G every member is checked, and all latch together or none does, with ERR and ERRCH set. -/
  | gapplyLatch
  /-- TRAIN_PERIOD_COMMIT (R97): At the commit instant of period start S(k), the train generator commits that period's pulse into the committed queue. -/
  | trainPeriodCommit (ch : Chan)
  /-- TRAIN_PERIOD_START (R314): Period start S(k) arrives; the lookout ramp resets and clear-on-period is attempted. -/
  | trainPeriodStart (ch : Chan)
  /-- ACTION_COMMIT (R15): At its commit instant a provisional action moves to the committed queue, or a late, full-queue or link-loss outcome applies. -/
  | actionCommit (ch : Chan)
  /-- EDGE_PLACED (R93): A committed edge is placed at the ball at T minus SKEW, enforcing the 64 tk minimum spacing. -/
  | edgePlaced (ch : Chan)
  /-- ENTRY_RETIRE (R92): A committed entry retires at the boundary after its last edge is placed, or after its window closes. -/
  | entryRetire (ch : Chan)
  /-- INPUT_EDGE (R96): An input transition that passes the filter is stamped and written as a capture entry per mode.
  `stamp` is the ball time at which the ball goes to `level`; the filter and SKEW act on it (log 15). -/
  | inputEdge (ch : Chan) (level : Bool) (stamp : DWord)
  /-- WINDOW_CLOSE (R107): A CAP_MARK window reaches its close tick, and its entry is written with MISS or MULTI. -/
  | windowClose (ch : Chan)
  /-- CAP_ATTR_READ (R106): A host read of CHN_CAP_ATTR returns the head, and under CAPOWN = 1 latches and consumes it. -/
  | capAttrRead (ch : Chan)
  /-- ROUTINE_COMMIT (R250): A routine's staged writes land at the boundary after its COMMIT microword, followed by the tests of R135. -/
  | routineCommit (ch : Chan)
  /-- SEGMENT_RELEASE (R129): A segment whose conditions hold is released and its held effects take place in program order. -/
  | segmentRelease (ch : Chan)
  /-- FAULT_FINAL (R176): A held fault becomes final when its segment is oldest, and the home channel and members enter their safe states. -/
  | faultFinal (ch : Chan)
  /-- SNAPSHOT (R478): A write to SYS_SNAP freezes a copy of committed channel and axis registers in step 6. -/
  | snapshot
  /-- SERVICE_DISPATCH (R235): The helm dispatches up to four queued requests to free engine slots, in deadline order. -/
  | serviceDispatch
  /-- WAIT_SATISFIED (R165): A blocked WAIT's condition holds after step 5 of a boundary, and the helm raises a service request. -/
  | waitSatisfied (ch : Chan)
  /-- IMPLICIT_WAIT_SATISFIED (R167): An implicit wait on HOLD, queue, segment, effect, checkpoint or pending apply is satisfied and a request is raised. -/
  | implicitWaitSatisfied (ch : Chan)
  /-- WAIT_TIMEOUT (R166): A WAIT's timeout time arrives and satisfies it, with Z set to 1 at re-execution. -/
  | waitTimeout (ch : Chan)
  /-- SERVICE_LIMIT (R163): A service reaching 1,024 instructions is ended as by YIELD, and LONG is set. -/
  | serviceLimit (ch : Chan)
  /-- PREEMPTION (R242): With no free slot, the helm preempts the running service of latest deadline for an urgent queue head. -/
  | preemption
  /-- MICROWORD_LIMIT (R244): A routine that runs 4,096 microwords without COMMIT, BLOCK, FAULT or END faults MICRO 0x3F. -/
  | microwordLimit (ch : Chan) (uaddr : BitVec 16)
  /-- ECC_UNCORR (R243): An uncorrectable microword or scratch error abandons the routine and restarts it once. -/
  | eccUncorr (ch : Chan)
  /-- ENGINE_FAIL (R245): The helm declares an engine failed, ends its services and takes it out of service. -/
  | engineFail (eng : EngineNo)
  /-- PACE_WINDOW (R240): A 64 µs pace window ends, updating EPACE and the planning pace. -/
  | paceWindow (eng : EngineNo) (stepPs : BitVec 16)
  /-- ENGINE_LEAVE_SERVICE (R260): An engine cleared in HLM_EMASK leaves service once its slots are empty. -/
  | engineLeaveService (eng : EngineNo)
  /-- ILLEGAL_OPCODE (R160): An unassigned or reserved opcode or absent register faults ILLEGAL. -/
  | illegalOpcode (ch : Chan)
  /-- ADD (R184): Adds two g registers with flags. -/
  | add (ch : Chan)
  /-- SUB (R184): Subtracts two g registers with flags. -/
  | sub (ch : Chan)
  /-- MUL (R184): Multiplies, keeping the low or high half, signed or unsigned. -/
  | mul (ch : Chan)
  /-- MAC (R184): Adds the shifted product to g[d] with exact-sum overflow. -/
  | mac (ch : Chan)
  /-- AND (R184): Bitwise AND of two g registers. -/
  | and (ch : Chan)
  /-- OR (R184): Bitwise OR of two g registers. -/
  | or (ch : Chan)
  /-- XOR (R184): Bitwise XOR of two g registers. -/
  | xor (ch : Chan)
  /-- SHL (R184): Shifts left by a register amount. -/
  | shl (ch : Chan)
  /-- SHR (R184): Shifts right with zero fill. -/
  | shr (ch : Chan)
  /-- ASR (R184): Shifts right with sign fill. -/
  | asr (ch : Chan)
  /-- CMP (R184): Sets flags as SUB without writing a result. -/
  | cmp (ch : Chan)
  /-- MIN (R184): Chooses the smaller operand, signed or unsigned. -/
  | min (ch : Chan)
  /-- MAX (R184): Chooses the larger operand, signed or unsigned. -/
  | max (ch : Chan)
  /-- SAT (R186): Clamps g[a] into the range given by g[b], faulting ARITH on a negative bound. -/
  | sat (ch : Chan)
  /-- LDI (R184): Loads a 32-bit immediate from the extension word. -/
  | ldi (ch : Chan)
  /-- ADD_IMMEDIATE (R183): Opcode 0x11: ADD with a sign-extended imm16. -/
  | addImmediate (ch : Chan)
  /-- SUB_IMMEDIATE (R183): Opcode 0x12: SUB with a sign-extended imm16. -/
  | subImmediate (ch : Chan)
  /-- MUL_IMMEDIATE (R183): Opcode 0x13: signed MUL with an imm16. -/
  | mulImmediate (ch : Chan)
  /-- MAC_IMMEDIATE (R183): Opcode 0x14: MAC with a sign-extended imm16. -/
  | macImmediate (ch : Chan)
  /-- AND_IMMEDIATE (R183): Opcode 0x15: AND with a zero-extended imm16. -/
  | andImmediate (ch : Chan)
  /-- OR_IMMEDIATE (R183): Opcode 0x16: OR with a zero-extended imm16. -/
  | orImmediate (ch : Chan)
  /-- XOR_IMMEDIATE (R183): Opcode 0x17: XOR with a zero-extended imm16. -/
  | xorImmediate (ch : Chan)
  /-- SHL_IMMEDIATE (R183): Opcode 0x18: SHL by imm16[5:0]. -/
  | shlImmediate (ch : Chan)
  /-- SHR_IMMEDIATE (R183): Opcode 0x19: SHR by imm16[5:0]. -/
  | shrImmediate (ch : Chan)
  /-- ASR_IMMEDIATE (R183): Opcode 0x1A: ASR by imm16[5:0]. -/
  | asrImmediate (ch : Chan)
  /-- CMP_IMMEDIATE (R183): Opcode 0x1B: CMP with a sign-extended imm16. -/
  | cmpImmediate (ch : Chan)
  /-- MIN_IMMEDIATE (R183): Opcode 0x1C: signed MIN with an imm16. -/
  | minImmediate (ch : Chan)
  /-- MAX_IMMEDIATE (R183): Opcode 0x1D: signed MAX with an imm16. -/
  | maxImmediate (ch : Chan)
  /-- SAT_IMMEDIATE (R186): Opcode 0x1E: clamps into an n-bit signed or unsigned range. -/
  | satImmediate (ch : Chan)
  /-- TADD (R187): Adds a g or t register to a t register modulo 2^64. -/
  | tadd (ch : Chan)
  /-- TADD_IMMEDIATE (R187): Opcode 0x21: adds a sign-extended imm32 to a t register. -/
  | taddImmediate (ch : Chan)
  /-- TSUB (R187): Subtracts two times into a saturated g register or a t register. -/
  | tsub (ch : Chan)
  /-- TCMP (R187): Sets flags from a 64-bit time difference. -/
  | tcmp (ch : Chan)
  /-- TNOW (R188): Returns the service's view boundary. -/
  | tnow (ch : Chan)
  /-- TPACK (R187): Packs two g registers into a t register. -/
  | tpack (ch : Chan)
  /-- TPART (R187): Extracts one half of a t register. -/
  | tpart (ch : Chan)
  /-- PADD (R189): Adds two positions modulo 2^48. -/
  | padd (ch : Chan)
  /-- PADD_IMMEDIATE (R189): Opcode 0x31: adds a 16.16 immediate to a position. -/
  | paddImmediate (ch : Chan)
  /-- PSUB (R189): Subtracts positions, optionally wrapped on a modulo axis. -/
  | psub (ch : Chan)
  /-- PMOD (R189): Reduces a position into [0, M) on a modulo axis. -/
  | pmod (ch : Chan)
  /-- P2T (R190): Converts a position to a machine time as a tracked conversion. -/
  | p2t (ch : Chan)
  /-- T2P (R190): Converts a machine time to a position as a tracked conversion. -/
  | t2p (ch : Chan)
  /-- PSET (R189): Loads a shifted g register into a position register. -/
  | pset (ch : Chan)
  /-- PGET (R189): Returns a shifted, saturated position in a g register. -/
  | pget (ch : Chan)
  /-- B (R191): Branches by condition to a word offset. -/
  | b (ch : Chan)
  /-- CALL (R191): Branches by condition and saves the return address in g15. -/
  | call (ch : Chan)
  /-- RET (R191): Branches by condition to g15[14:0]. -/
  | ret (ch : Chan)
  /-- BR (R191): Branches by condition to a register address. -/
  | br (ch : Chan)
  /-- LOOP (R191): Decrements g[d] and branches while it is non-zero. -/
  | loop (ch : Chan)
  /-- NOP (R191): Does nothing. -/
  | nop (ch : Chan)
  /-- LDM_G (R193): Loads 32 bits from a data bank through held STMs. -/
  | ldmG (ch : Chan)
  /-- LDM_T (R193): Loads a 64-bit word into a t register. -/
  | ldmT (ch : Chan)
  /-- LDM_P (R193): Loads bits [47:0] of a 64-bit word into a p register. -/
  | ldmP (ch : Chan)
  /-- STM_G (R193): Holds a 32-bit data-bank write until release. -/
  | stmG (ch : Chan)
  /-- STM_T (R193): Holds a 64-bit write of a t register until release. -/
  | stmT (ch : Chan)
  /-- STM_P (R193): Holds a 64-bit write of a sign-extended p register until release. -/
  | stmP (ch : Chan)
  /-- LDC (R194): Reads a register of any channel's released context. -/
  | ldc (ch : Chan)
  /-- STC (R195): Holds a write to g8 to g15 of another running channel. -/
  | stc (ch : Chan)
  /-- LDA (R196): Reads one field of an almanac entry in the live extent. -/
  | lda (ch : Chan)
  /-- EMIT (R198): Writes a time-stamped provisional action to a member channel. -/
  | emit (ch : Chan)
  /-- EMITP (R198): Writes a position-stamped provisional action, converted by P2T under the NOFIX policy. -/
  | emitp (ch : Chan)
  /-- ARMTRIP (R200): Opcode 0x62: writes a time-stamped TRIPPULSE armed against a lookout. -/
  | armtrip (ch : Chan)
  /-- ARMTRIP_POSITION (R200): Opcode 0x63: writes a position-stamped TRIPPULSE armed against a lookout. -/
  | armtripPosition (ch : Chan)
  /-- CANCEL (R201): Places held cancel marks on unsettled provisional actions of a member. -/
  | cancel (ch : Chan)
  /-- CAPT (R202): Holds consumption of the first unheld capture entry and returns it. -/
  | capt (ch : Chan)
  /-- CAPTN (R203): Holds consumption of every unheld capture entry and returns the newest. -/
  | captn (ch : Chan)
  /-- ALM (R205): Searches a table for the first entry at or after a key. -/
  | alm (ch : Chan)
  /-- ALMN (R206): Returns the next entry index in search order. -/
  | almn (ch : Chan)
  /-- WAIT (R207): Tests a wait condition, and continues with loading or blocks. -/
  | wait (ch : Chan)
  /-- SIG (R208): Holds a SERVICE record until release. -/
  | sig (ch : Chan)
  /-- XKICK (R209): Holds a software request to a transfer channel until release. -/
  | xkick (ch : Chan)
  /-- LSEND (R210): Holds a 64-bit link buffer write until release. -/
  | lsend (ch : Chan)
  /-- CFG (R211): Holds a masked staged write to a member's CHN register. -/
  | cfg (ch : Chan)
  /-- APPLY (R213): Holds an apply start on a member. -/
  | apply (ch : Chan)
  /-- YIELD (R214): Ends the service and raises a new request. -/
  | yield (ch : Chan)
  /-- HALT (R214): Ends the service and holds a program stop. -/
  | halt (ch : Chan)
  /-- UOP (R215): Runs a customer opcode's open-store routine, or faults UOP if the entry is empty or masked. -/
  | uop (ch : Chan)
  /-- HOSTGO (R257): HLM_OS_CTL.HOSTGO starts the host-path image load while WAITHOST is 1. -/
  | hostgo (storeOk : Bool)
  /-- SKIP (R257): HLM_OS_CTL.SKIP ends a waiting load with no image, in RECOVERY. -/
  | skip
  /-- CLOVE_STEP (R270): At each boundary a running clove engine samples its lines, takes one transition and tests for a pending swap. -/
  | cloveStep (n : CloveNo)
  /-- CLOVE_TIMER (R261): A clove timer expires 32 × TIM after state entry, and its TIMER line becomes 1. -/
  | cloveTimer (n : CloveNo) (k : Fin 2)
  /-- CLOVE_ENABLE (R273): CLV_CTL.EN written 1 starts the engine in state 0 of the active bank. -/
  | cloveEnable (n : CloveNo)
  /-- CLOVE_DISABLE (R273): CLV_CTL.EN written 0 stops the engine, keeping its outputs. -/
  | cloveDisable (n : CloveNo)
  /-- SWAP (R271): CLV_CTL.SWAP sets a pending bank swap. -/
  | swap (n : CloveNo)
  /-- FORCE_SWAP (R272): CLV_CTL.FORCE_SWAP swaps banks at once, clearing SR and recording SHIFTED. -/
  | forceSwap (n : CloveNo)
  /-- CLOVE_CANCEL (R272): CLV_CTL.CANCEL drops a pending swap. -/
  | cloveCancel (n : CloveNo)
  /-- RXD_READ (R274): A read of CLV_RXD latches the RX head and its stamp and pops it unless RXREQ = 1. -/
  | rxdRead (n : CloveNo)
  /-- TXD_WRITE (R274): A write to CLV_TXD pushes a TX FIFO word, or is refused with TXOVF. -/
  | txdWrite (n : CloveNo) (v : Word)
  /-- FLAG_SET (R270): A write to CLV_FSET sets flags, seen by that boundary's step. -/
  | flagSet (n : CloveNo) (mask : Byte)
  /-- FLAG_CLEAR (R270): A write to CLV_FCLR clears flags. -/
  | flagClear (n : CloveNo) (mask : Byte)
  /-- LINK_ENABLE (R292): GLK_CTL.EN written 1 enters TRAIN with a new link epoch and sends SYNC frames. -/
  | linkEnable (l : LinkNo)
  /-- LINK_DISABLE (R292): GLK_CTL.EN written 0 enters OFF and silences the transmitter. -/
  | linkDisable (l : LinkNo)
  /-- RETRAIN (R292): GLK_CTL.RETRAIN enters LOST with cause HOST, or starts TRAIN from LOST after the quiet period. -/
  | retrain (l : LinkNo)
  /-- FRAME_TRANSMIT (R299): At each frame start the content is fixed: SAFE, keyed CONFIG, ECHO, EDGE or queue entry. -/
  | frameTransmit (l : LinkNo)
  /-- UPSTREAM_STATUS (R302): A good STATUS frame is latched into GLK_EPST and its flags are ORed into GLK_EPFLAG. -/
  | upstreamStatus (l : LinkNo) (hdr : Byte) (pay : Tab Byte 12) (stamp : DWord)
  /-- UPSTREAM_CAPT (R301): A good CAPT frame's stamp records are resolved and written to slot channels. -/
  | upstreamCapt (l : LinkNo) (hdr : Byte) (pay : Tab Byte 12) (stamp : DWord)
  /-- UPSTREAM_FIX (R302): A good FIX frame delivers a fix to every axis with SRC LINK and the matching index. -/
  | upstreamFix (l : LinkNo) (hdr : Byte) (pay : Tab Byte 12) (stamp : DWord)
  /-- UPSTREAM_ECHO (R295): An ECHO reply gives an echo result that updates DQ or is rejected, and can move ALIGN to UP. -/
  | upstreamEcho (l : LinkNo) (hdr : Byte) (pay : Tab Byte 12) (stamp : DWord)
  /-- UPSTREAM_SYNC (R296): A good SYNC frame in TRAIN is latched and counted toward ALIGN; in ALIGN or UP it makes the link LOST. -/
  | upstreamSync (l : LinkNo) (hdr : Byte) (pay : Tab Byte 12) (stamp : DWord)
  /-- UPSTREAM_USER (R305): A good USER frame is written to the receive queue. -/
  | upstreamUser (l : LinkNo) (hdr : Byte) (pay : Tab Byte 12) (stamp : DWord)
  /-- UPSTREAM_BAD_FRAME (R284): A bad or missing upstream frame is counted, and three in a row make the link LOST. -/
  | upstreamBadFrame (l : LinkNo) (why : BadFrame)
  /-- QUIET_PERIOD_END (R292): The 16-frame quiet period of LOST ends, and the link retrains if AUTORE is 1. -/
  | quietPeriodEnd (l : LinkNo)
  /-- TRAIN_TMO (R292): TRAIN lasting 1 ms without reaching ALIGN raises TRAIN_TMO once. -/
  | trainTmo (l : LinkNo)
  /-- CONFIG_RETRY (R303): A keyed message unacknowledged for 64 frames is resent, and after three repeats CFGNACK is raised. -/
  | configRetry (l : LinkNo)
  /-- LOOKOUT_INPUT_CROSSING (R311): An LKI input crosses vth or leaves the hysteresis band, changing the raw comparator output. -/
  | lookoutInputCrossing (k : LkNo) (microvolts : Int)
  /-- LOOKOUT_CLEAR (R317): A host LKO_CTL.CLR write attempts a clear at the boundary of service. -/
  | lookoutClear (k : LkNo)
  /-- CLRM (R317): A write to LKO_CLRM attempts a clear of each lookout named. -/
  | clrm (mask : Word)
  /-- LOOKOUT_ENABLE (R315): LKO_CFG.EN written 1 enables the comparator with the latch and samples tripped. -/
  | lookoutEnable (k : LkNo)
  /-- LOOKOUT_DISABLE (R315): LKO_CFG.EN written 0 sets the latch quietly. -/
  | lookoutDisable (k : LkNo)
  /-- CONVERSION_START (R322): An idle converter starts a host, synchronised or background conversion in priority order. -/
  | conversionStart
  /-- HOST_CONVERSION (R322): SND_REQ.GO requests a host conversion of the selected input. -/
  | hostConversion (mux : BitVec 7)
  /-- CONVERSION_COMPLETE (R322): A conversion completes 125 base periods after its hold and its result is stored, checked and queued. -/
  | conversionComplete (val : BitVec 12)
  /-- SAMPLE_SKIP (R323): A synchronised sample that finds no window within 1 ms is skipped and counted. -/
  | sampleSkip
  /-- SND_FIFO_READ (R326): A read of SND_FIFO returns and pops the head result. -/
  | sndFifoRead
  /-- XFR_GO (R350): XFR_CTL.GO in IDLE clears the counters and starts the channel at XFR_PC. -/
  | xfrGo (n : XcNo)
  /-- XFR_ABORT (R351): XFR_CTL.ABORT enters ABORT; the current burst completes and no more start. -/
  | xfrAbort (n : XcNo)
  /-- ABORT_COMPLETE (R351): After the burst and the status word, the channel enters IDLE and raises DMA-ABORT. -/
  | abortComplete (n : XcNo)
  /-- XFR_RESUME (R355): XFR_CTL.RESUME retries an ASLEEP channel's burst or fetch. -/
  | xfrResume (n : XcNo)
  /-- XFR_AUTORESUME (R355): An ASLEEP channel with AUTORESUME retries when its bank is on again. -/
  | xfrAutoresume (n : XcNo)
  /-- BELL (R353): A write to XFR_BELL sets BELLPEND. -/
  | bell (n : XcNo)
  /-- KICK (R348): A write to XFR_KICK, or a delivered XKICK, adds a kick or drops it with KDROP. -/
  | kick (n : XcNo)
  /-- DESCRIPTOR_FETCH (R333): A running channel fetches the descriptor at XFR_PC, or stops on a refused fetch or unassigned opcode. -/
  | descriptorFetch (n : XcNo)
  /-- BURST (R345): A transfer burst starts once its banks are on and, if paced, a request is taken; it completes whole. -/
  | burst (n : XcNo)
  /-- XFR_WAIT_SATISFIED (R340): A waiting channel's request, kick or time arrives, and it continues. -/
  | xfrWaitSatisfied (n : XcNo)
  /-- SIGNAL_DELIVERY (R341): A SIGNAL takes effect after prior writes complete: DMA signal count, clove flag or link queue VALID. -/
  | signalDelivery (n : XcNo)
  /-- PLANE_UNIT_GRANT (R338): A plane unit frees and is granted to the earliest waiting channel. -/
  | planeUnitGrant
  /-- ATEND_REFETCH (R353): In ATEND a set BELLPEND is cleared and the word at XFR_PC is fetched again. -/
  | atendRefetch (n : XcNo)
  /-- BANK_STATE_REQUEST (R364): A MEM_BCTL write changing REQ or OFFLINE requests a bank state change or is refused with REF. -/
  | bankStateRequest (bk : BankNo) (v : Word)
  /-- BANK_STATE_CHANGE (R364): The requested change takes effect once no access is in flight, entering WAKING or POWERING as needed. -/
  | bankStateChange (bk : BankNo)
  /-- BANK_POWER_COMPLETE (R363): A WAKING or POWERING bank reaches its requested state and BANKSTATE is raised. -/
  | bankPowerComplete (bk : BankNo)
  /-- MACE_GO (R371): MEM_MCTL.GO starts a destructive or preserving mace run, or is refused with REFUSED. -/
  | maceGo (v : Word)
  /-- MACE_ABORT (R375): MEM_MCTL.ABORT stops the mace run at its next window boundary or access. -/
  | maceAbort
  /-- MACE_WINDOW (R372): The mace copies, borrows, tests, restores and releases one row. -/
  | maceWindow (part : WindowPart)
  /-- DESTRUCTIVE_RUN (R371): A destructive run tests whole OFFLINE banks and their spares, then maps repairs. -/
  | destructiveRun (faults : List RowFault) (spareFaults : List SpareFault)
  /-- SWITCH_GO (R226): MEM_ASW.GO in IDLE locks the shadow extent and starts CHECK. -/
  | switchGo (n : TableNo) (atmode : BitVec 2) (swaxis : Axis) (lead : BitVec 11)
  /-- CHECK_COMPLETE (R227): CHECK ends; a failure refuses the switch, and a pass enters PEND with switch boundary S. -/
  | checkComplete (n : TableNo)
  /-- TABLE_SWITCH (R229): At S the live and shadow extents are exchanged, AGEN increments and the table drains. -/
  | tableSwitch (n : TableNo)
  /-- DRAIN_END (R229): The last service reading the old extent ends, and the table returns to IDLE. -/
  | drainEnd (n : TableNo)
  /-- SWITCH_CANCEL (R230): MEM_ASW.CANCEL in CHECK or PEND returns to IDLE and unlocks the shadow. -/
  | switchCancel (n : TableNo)
  /-- TABLE_UNDEFINE (R230): DEF written 1 to 0 in IDLE undefines the table at the next boundary and drains its live extent. -/
  | tableUndefine (n : TableNo)
  /-- TABLE_DEFINE (R230): DEF written 0 to 1 defines the table with an empty live extent. -/
  | tableDefine (n : TableNo)
  /-- RECORD_RESERVATION (R388): After step 6 of each boundary, the unmasked pending source with the earliest stamp reserves one record. -/
  | recordReservation
  /-- RECORD_WRITE (R393): A reserved record is written through port B and EVC_WP increments, driving EVT_N. -/
  | recordWrite
  /-- SOFTWARE_SET (R386): A write to EVC_SWSET makes a SOFT cause or an outstanding level-mode set. -/
  | softwareSet (src : SourceNo) (detail : BitVec 16)
  /-- EVC_DONE (R387): A write to EVC_DONE clears a level source's claim and re-arms it. -/
  | evcDone (src : SourceNo)
  /-- EVC_CLR (R387): A write to EVC_CLR discards a source's queued and latched state. -/
  | evcClr (src : SourceNo)
  /-- EVC_MODE (R387): A write to EVC_MODE changes source modes and clears each changed source. -/
  | evcMode (k : Fin 8) (v : Word)
  /-- EVC_MASK (R389): A write to EVC_MASK lands in step 2 and completes only when EVC_WP equals EVC_RSV. -/
  | evcMask (k : Fin 8) (v : Word)
  /-- EVC_RP (R395): A write to EVC_RP consumes records, or is refused with RPREF. -/
  | evcRp (v : Word)
  /-- RING_ENABLE (R392): EVC_RCFG.EN written 1 enables the ring and zeroes its pointers, or is refused with CFGREF. -/
  | ringEnable (size : BitVec 4) (layout : Bool)
  /-- RING_DISABLE (R392): EVC_RCFG.EN written 0 stops reservation; reserved records are still written. -/
  | ringDisable
  /-- WRITE (R400): QSPI command 0x02 posts data words to consecutive addresses. -/
  | write (addr : Word) (words : List Word)
  /-- READ (R401): QSPI command 0x0B reads words, with status bytes for wait or bus error. -/
  | read (addr : Word) (count : Nat)
  /-- RDSR (R402): QSPI command 0x05 returns the status byte repeatedly. -/
  | rdsr
  /-- PROTO (R400): An unknown command, a misaligned address or HCS_N rising mid-word ends the transaction with PROTO. -/
  | proto (why : ProtoError)
  /-- PADDR_HI_WRITE (R403): A write to PADDR_HI sets the address and, with PREF, starts a read. -/
  | paddrHiWrite (hi : BitVec 16)
  /-- PDATA_LO_WRITE (R403): A write to PDATA_LO (HPA 2) latches the low half of a write; PADDR_LO, PCTL and the other values of
  HPA by the same cycle. -/
  | pdataLoWrite (hpa : Byte) (v : BitVec 16)
  /-- PDATA_HI_WRITE (R403): A write to PDATA_HI posts the 32-bit write and advances the address with AINC. -/
  | pdataHiWrite (v : BitVec 16)
  /-- PDATA_HI_READ (R404): A read of PDATA_HI returns latched data, advances the address and, with PREF, starts the next read; PADDR_LO,
  PADDR_HI, PDATA_LO, PSTAT, PCTL and the other values of HPA by the same cycle. -/
  | pdataHiRead (hpa : Byte)
  /-- PARALLEL_READ_COMPLETE (R404): A started parallel-port read latches its data or bus error and sets RDY. -/
  | parallelReadComplete
  /-- REGISTER_WRITE (R405): A host write to a register with no row of its own takes effect in step 2, with locked fields treated per R492. -/
  | registerWrite (addr : Word) (v : Word)
  /-- ACCESS_TIMEOUT (R407): An access held 20 µs for a bank is refused with cause TIMEOUT. -/
  | accessTimeout
  /-- DATA_PORT_ACCESS (R408): An HPS_DATA access reads or writes memory at HPS_DPTR in 32-bit or 64-bit units. -/
  | dataPortAccess (wr : Option Word)
  /-- ARM (R440): Keyed ARM sets ARMED, opens the run gate and makes PERMIT conduct when all conditions hold. -/
  | arm (cnt : DWord) (mac : BitVec 128)
  /-- DISARM (R415): Keyed DISARM deasserts PERMIT and clears ARMED. -/
  | disarm (cnt : DWord) (mac : BitVec 128)
  /-- SAFECFG (R416): Keyed SAFECFG writes masked safe fields of a range of channels or lookouts. -/
  | safecfg (cnt : DWord) (mac : BitVec 128) (arg0 arg1 arg2 : Word)
  /-- STORELOAD (R258): Keyed STORELOAD disables channels, drops PERMIT, resets the open store and reloads it. -/
  | storeload (cnt : DWord) (mac : BitVec 128) (arg0 : Word)
  /-- FUSE (R418): Keyed FUSE burns and verifies a selected fuse field. -/
  | fuse (cnt : DWord) (mac : BitVec 128) (args : List Word) (vaux : Bool)
  /-- DBGOPEN (R426): Keyed DBGOPEN presents a debug response to open the debug port. -/
  | dbgopen (cnt : DWord) (mac : BitVec 128) (resp : BitVec 128)
  /-- LINKCFG (R417): Keyed LINKCFG queues a keyed CONFIG message for a link. -/
  | linkcfg (cnt : DWord) (mac : BitVec 128) (arg0 arg1 arg2 arg3 : Word)
  /-- KEYROLL (R419): Keyed KEYROLL moves a key class to its next good slot. -/
  | keyroll (cnt : DWord) (mac : BitVec 128) (arg0 : Word)
  /-- CTRSEED (R420): Keyed CTRSEED sets the command counter after keel loss and clears CTR_LOST. -/
  | ctrseed (cnt : DWord) (mac : BitVec 128)
  /-- LOCKOUT_END (R411): The 1 s lockout expires and keyed commands are accepted again. -/
  | lockoutEnd
  /-- IDCODE (R425): TAP instruction returning the 32-bit IDCODE. -/
  | idcode
  /-- BYPASS (R425): TAP instruction selecting the 1-bit bypass register. -/
  | bypass
  /-- CHAL (R425): TAP instruction returning the current nonce in CLOSED. -/
  | chal
  /-- RESP (R426): TAP instruction whose response is checked at Update-DR and opens or counts a failure. -/
  | resp (resp : BitVec 128)
  /-- SAMPLE_PRELOAD (R425): TAP instruction accessing the boundary-scan register. -/
  | samplePreload (bsr : List Bool)
  /-- EXTEST (R427): Entering TAP EXTEST disarms the device and drives pins from the boundary-scan register. -/
  | extest (bsr : List Bool)
  /-- EXTEST_EXIT (R427): The TAP leaves EXTEST, releasing the PERMIT hold and raising an EXTEST record. -/
  | extestExit
  /-- BUSACC (R425): TAP instruction performing a 32-bit bus access as the host would. -/
  | busacc (addr data : Word) (wr start : Bool)
  /-- PORST (R435): PORST_N low or a VCORE or VAUX power-up holds the device in cold reset. -/
  | porst (why : ColdCause) (low : Bool)
  /-- WARM_RESET (R435): RST_N low with PORST_N high resets everything outside KEEL and the sextant. -/
  | warmReset (low : Bool)
  /-- BROWN (R434): VCORE or VAUX falls below its window and causes a cold reset. -/
  | brown (which : CoreSupply)
  /-- SUPPLY (R442): VCORE or VAUX rises above its window and raises the SUPPLY HALT-class fault. -/
  | supply (which : CoreSupply)
  /-- IOLOSS (R434): VIOk leaves its window; with an output channel enabled on the bank this is a HALT-class fault. -/
  | ioloss (k : Fin 8)
  /-- BOOT_FLOW (R436): After reset the device runs PLL, FUSE, TEST, CLEAR, LOAD and READY in order. -/
  | bootFlow (stage : BootStage)
  /-- ROMRUN (R437): PWR_CTL.ROMRUN opens the run gate while MODE is RECOVERY. -/
  | romrun
  /-- DOMAIN_REQUEST (R432): A PWR_DCTL write requests ALM, LINK or ANA on or off, or is refused with REF. -/
  | domainRequest (v : BitVec 3)
  /-- DOMAIN_POWER_COMPLETE (R432): A powering domain reaches ON, with its contents cleared or undefined per domain. -/
  | domainPowerComplete (dom : PowerDomain)
  /-- HFAULT_CLEAR (R442): A write of 1 to a PWR_HFAULT bit clears it only if its clear condition holds. -/
  | hfaultClear (mask : BitVec 6)
  /-- THERMAL_EVALUATION (R446): Every 10 µs the governor reads its sensors and power and changes stage or PACE. -/
  | thermalEvaluation (sensors : Tab Int 4) (powerMw : BitVec 16)
  /-- SHUTDOWN (R448): Tj at or above 125 °C sets THERM, takes every channel safe and deasserts PERMIT. -/
  | shutdown
  /-- ICAL_OK (R28): Background calibration brings every interpolator phase within 1/2 tk and STB_STAT.ICAL_OK becomes 1, after start-up or after an ICAL_FAIL. -/
  | icalOk (cell : Fin 288) (worst : Byte)
  /-- XKEEL_START (R443): XKEEL edges begin to arrive, or arrive again, and PWR_KEEL.XKEEL_RUN becomes 1, so keel anchors can be taken again. -/
  | xkeelStart
  /-- VKEEL_LOSS (R443): VKEEL leaves 1.6–3.6 V; PWR_KEEL.VKEEL_OK clears and the keel counter stops running. -/
  | vkeelLoss
  /-- SUPPLY_RESTORED (R434): VCORE, VAUX or a VIOk returns inside its monitor window, setting its OK bit and meeting the clear condition of a SUPPLY or IOLOSS fault. -/
  | supplyRestored (which : Supply)
  /-- DOMAIN_STATE_CHANGE (R432): A requested ALM, LINK or ANA state change takes effect at the first boundary with no access in flight. -/
  | domainStateChange (dom : PowerDomain)
  deriving DecidableEq, Repr

end Sys2Proof
end

