-- ==== Sys2Proof/WellFormed.lean ====
section
/-! DEFINITION. Which commands are well-formed: the ranges of operands that their types leave wider than the manual
does. -/

namespace Sys2Proof

/-- R422: a failing fuse field is a slot that exists: four of each command and debug key, two of the image pair. -/
def FuseCheck.wellFormed (f : FuseCheck) : Bool :=
  decide (1 ≤ f.sel.val) && (decide (f.sel.val ≤ 2) || decide (f.slot.val < 2))

/-- R368, R372: a misread names an access of a March element, or the read-back. -/
def CellFault.wellFormed (f : CellFault) : Bool :=
  match f with
  | .stuck _ _ _ => true
  | .misread e o _ _ => (decide (e ≤ 5) && decide (o ≤ 4)) || (e == 6 && o == 0)

/-- R372: a part of the work on a window. -/
def windowWellFormed (p : WindowPart) : Bool :=
  match p with
  | .borrow => true
  | .finish row spare => row.all CellFault.wellFormed && spare.all CellFault.wellFormed

/-- R371, R376: the faults that a whole-bank run meets. -/
def faultsWellFormed (rows : List RowFault) (spares : List SpareFault) : Bool :=
  rows.all (fun f => f.fault.wellFormed) && spares.all (fun f => f.fault.wellFormed)

/-- R436: what a phase of the boot flow finds. -/
def bootWellFormed (st : BootStage) : Bool :=
  match st with
  | .fuse _ bad _ => bad.all FuseCheck.wellFormed && decide bad.Nodup
  | .test faults spares => faultsWellFormed faults spares
  | .clear => true
  | .load _ _ => true
  | .ready => true

/-- R57, R96: pin edges name pin channels. R322: an input of the converter. R368: accesses of a March test.
R400: a burst moves at least one word. R418: FUSE has 1 to 9 arguments. R444: a sensor value fits 12 bits. -/
def Instr.wellFormed (i : Instr) : Bool :=
  match i with
  | .basePeriodBoundary => true
  | .pllLock => true
  | .refLost => true
  | .refRestored => true
  | .pllUnlock => true
  | .icalFail _ _ => true
  | .mtLoRead => true
  | .ofsLoRead => true
  | .tppsEdge _ _ _ => true
  | .ppsMissing => true
  | .ttodFrame _ _ _ _ => true
  | .discEn _ => true
  | .realign => true
  | .kxcalUpdate _ => true
  | .keelPowerOn => true
  | .xkeelStopped => true
  | .axisEnable _ => true
  | .axisDisable _ => true
  | .clr _ => true
  | .quadEdge ch _ _ => decide (ch.val < 256)
  | .standstillFix _ => true
  | .zReference ch _ => decide (ch.val < 256)
  | .vmGo _ _ => true
  | .fixTakesEffect => true
  | .fixTimeout _ => true
  | .channelEnable _ => true
  | .channelDisable _ => true
  | .applyGo _ _ _ _ => true
  | .applyCancel _ => true
  | .applyLatch _ => true
  | .gapplyGo _ _ => true
  | .gapplyCancel => true
  | .gapplyLatch => true
  | .trainPeriodCommit _ => true
  | .trainPeriodStart _ => true
  | .actionCommit _ => true
  | .edgePlaced _ => true
  | .entryRetire _ => true
  | .inputEdge ch _ _ => decide (ch.val < 256)
  | .windowClose _ => true
  | .capAttrRead _ => true
  | .routineCommit _ => true
  | .segmentRelease _ => true
  | .faultFinal _ => true
  | .snapshot => true
  | .serviceDispatch => true
  | .waitSatisfied _ => true
  | .implicitWaitSatisfied _ => true
  | .waitTimeout _ => true
  | .serviceLimit _ => true
  | .preemption => true
  | .microwordLimit _ _ => true
  | .eccUncorr _ => true
  | .engineFail _ => true
  | .paceWindow _ _ => true
  | .engineLeaveService _ => true
  | .illegalOpcode _ => true
  | .add _ => true
  | .sub _ => true
  | .mul _ => true
  | .mac _ => true
  | .and _ => true
  | .or _ => true
  | .xor _ => true
  | .shl _ => true
  | .shr _ => true
  | .asr _ => true
  | .cmp _ => true
  | .min _ => true
  | .max _ => true
  | .sat _ => true
  | .ldi _ => true
  | .addImmediate _ => true
  | .subImmediate _ => true
  | .mulImmediate _ => true
  | .macImmediate _ => true
  | .andImmediate _ => true
  | .orImmediate _ => true
  | .xorImmediate _ => true
  | .shlImmediate _ => true
  | .shrImmediate _ => true
  | .asrImmediate _ => true
  | .cmpImmediate _ => true
  | .minImmediate _ => true
  | .maxImmediate _ => true
  | .satImmediate _ => true
  | .tadd _ => true
  | .taddImmediate _ => true
  | .tsub _ => true
  | .tcmp _ => true
  | .tnow _ => true
  | .tpack _ => true
  | .tpart _ => true
  | .padd _ => true
  | .paddImmediate _ => true
  | .psub _ => true
  | .pmod _ => true
  | .p2t _ => true
  | .t2p _ => true
  | .pset _ => true
  | .pget _ => true
  | .b _ => true
  | .call _ => true
  | .ret _ => true
  | .br _ => true
  | .loop _ => true
  | .nop _ => true
  | .ldmG _ => true
  | .ldmT _ => true
  | .ldmP _ => true
  | .stmG _ => true
  | .stmT _ => true
  | .stmP _ => true
  | .ldc _ => true
  | .stc _ => true
  | .lda _ => true
  | .emit _ => true
  | .emitp _ => true
  | .armtrip _ => true
  | .armtripPosition _ => true
  | .cancel _ => true
  | .capt _ => true
  | .captn _ => true
  | .alm _ => true
  | .almn _ => true
  | .wait _ => true
  | .sig _ => true
  | .xkick _ => true
  | .lsend _ => true
  | .cfg _ => true
  | .apply _ => true
  | .yield _ => true
  | .halt _ => true
  | .uop _ => true
  | .hostgo _ => true
  | .skip => true
  | .cloveStep _ => true
  | .cloveTimer _ _ => true
  | .cloveEnable _ => true
  | .cloveDisable _ => true
  | .swap _ => true
  | .forceSwap _ => true
  | .cloveCancel _ => true
  | .rxdRead _ => true
  | .txdWrite _ _ => true
  | .flagSet _ _ => true
  | .flagClear _ _ => true
  | .linkEnable _ => true
  | .linkDisable _ => true
  | .retrain _ => true
  | .frameTransmit _ => true
  | .upstreamStatus _ _ _ _ => true
  | .upstreamCapt _ _ _ _ => true
  | .upstreamFix _ _ _ _ => true
  | .upstreamEcho _ _ _ _ => true
  | .upstreamSync _ _ _ _ => true
  | .upstreamUser _ _ _ _ => true
  | .upstreamBadFrame _ _ => true
  | .quietPeriodEnd _ => true
  | .trainTmo _ => true
  | .configRetry _ => true
  | .lookoutInputCrossing _ _ => true
  | .lookoutClear _ => true
  | .clrm _ => true
  | .lookoutEnable _ => true
  | .lookoutDisable _ => true
  | .conversionStart => true
  | .hostConversion mux => decide (mux.toNat < 80)
  | .conversionComplete _ => true
  | .sampleSkip => true
  | .sndFifoRead => true
  | .xfrGo _ => true
  | .xfrAbort _ => true
  | .abortComplete _ => true
  | .xfrResume _ => true
  | .xfrAutoresume _ => true
  | .bell _ => true
  | .kick _ => true
  | .descriptorFetch _ => true
  | .burst _ => true
  | .xfrWaitSatisfied _ => true
  | .signalDelivery _ => true
  | .planeUnitGrant => true
  | .atendRefetch _ => true
  | .bankStateRequest _ _ => true
  | .bankStateChange _ => true
  | .bankPowerComplete _ => true
  | .maceGo _ => true
  | .maceAbort => true
  | .maceWindow part => windowWellFormed part
  | .destructiveRun faults spares => faultsWellFormed faults spares
  | .switchGo _ _ _ _ => true
  | .checkComplete _ => true
  | .tableSwitch _ => true
  | .drainEnd _ => true
  | .switchCancel _ => true
  | .tableUndefine _ => true
  | .tableDefine _ => true
  | .recordReservation => true
  | .recordWrite => true
  | .softwareSet _ _ => true
  | .evcDone _ => true
  | .evcClr _ => true
  | .evcMode _ _ => true
  | .evcMask _ _ => true
  | .evcRp _ => true
  | .ringEnable _ _ => true
  | .ringDisable => true
  | .write _ words => !words.isEmpty
  | .read _ count => decide (0 < count)
  | .rdsr => true
  | .proto _ => true
  | .paddrHiWrite _ => true
  | .pdataLoWrite _ _ => true
  | .pdataHiWrite _ => true
  | .pdataHiRead _ => true
  | .parallelReadComplete => true
  | .registerWrite _ _ => true
  | .accessTimeout => true
  | .dataPortAccess _ => true
  | .arm _ _ => true
  | .disarm _ _ => true
  | .safecfg _ _ _ _ _ => true
  | .storeload _ _ _ => true
  | .fuse _ _ args _ => decide (1 ≤ args.length) && decide (args.length ≤ 9)
  | .dbgopen _ _ _ => true
  | .linkcfg _ _ _ _ _ _ => true
  | .keyroll _ _ _ => true
  | .ctrseed _ _ => true
  | .lockoutEnd => true
  | .idcode => true
  | .bypass => true
  | .chal => true
  | .resp _ => true
  | .samplePreload _ => true
  | .extest _ => true
  | .extestExit => true
  | .busacc _ _ _ _ => true
  | .porst _ _ => true
  | .warmReset _ => true
  | .brown _ => true
  | .supply _ => true
  | .ioloss _ => true
  | .bootFlow st => bootWellFormed st
  | .romrun => true
  | .domainRequest _ => true
  | .domainPowerComplete _ => true
  | .hfaultClear _ => true
  | .thermalEvaluation t _ => (List.range 4).all (fun i => let v := t.at (Fin.ofNat 4 i); decide (-2048 ≤ v) && decide (v ≤ 2047))
  | .shutdown => true
  | .icalOk _ _ => true
  | .xkeelStart => true
  | .vkeelLoss => true
  | .supplyRestored _ => true
  | .domainStateChange _ => true

end Sys2Proof
end

