-- ==== Sys2Proof/Config.lean ====
section
/-! DEFINITION. The free values: what the manual leaves open, as constants without a body. Nothing in
Lean can see what one of them is, so a claim holds whatever it is (log entry 3). -/

namespace Sys2Proof.Config

/-- Whether the `k`-th boundary carries an XKEEL edge (R45: XKEEL's phase and exact rate are free). -/
opaque xkeelEdge : Nat → Bool
/-- The `k`-th nonce drawn (R421). -/
opaque nonce : Nat → BitVec 128
/-- A byte of a data bank whose contents became undefined for the `g`-th time (R363, R371, R436). -/
opaque lostByte : (g : Nat) → (addr : Nat) → Byte
/-- A byte of the almanac after its contents became undefined for the `g`-th time (R432). -/
opaque lostAlm : (g : Nat) → (addr : Nat) → Byte
/-- The microcode-ROM address of the routine of an opcode (R253). -/
opaque romUaddr : (op : Byte) → BitVec 16
/-- What a signed `n`-bit field holds when the exact result lies outside it and the manual states no result. -/
opaque outside : (n : Nat) → (exact : Int) → Int
/-- A value that an instruction leaves undefined, the `k`-th one taken. -/
opaque word : (k : Nat) → BitVec 32
/-- A bit that the manual leaves open, the `k`-th one taken. -/
opaque bit : (k : Nat) → Bool

end Sys2Proof.Config
end

