-- ==== Sys2Proof/Machine/State.lean ====
section
/-! DEFINITION. The state of the block: every register, queue, buffer, counter, mode and pin the
manual gives the MLT5120, as plain data, and the queue of commands that wait. Each field's comment
reads: rules; what it holds; width; value after reset. Times are machine times in ticks (below 2^64),
positions are integers in the unit named. -/

namespace Sys2Proof.Machine

open Sys2Proof

/-- Reasons for a fault. No command of this device faults the model: every stop of the manual
(a program fault, a HALT-class fault, a bus error) is an effect on the state. -/
inductive Fault where
  /-- Raised by nobody; the closed type needs one name. Safe. -/
  | never
  deriving DecidableEq, Repr

/-- Reasons for a refusal. -/
inductive Refusal where
  /-- An arm of `exec` whose command has no meaning yet. Safe. -/
  | notModelled (mnemonic : String)
  deriving DecidableEq, Repr

/-- NEVER (R78), the time that never comes. -/
def never : Nat := 0xFFFF_FFFF_FFFF_FFFF

/-! ## Memories -/

/-- The addressable memories. Each is a list of (byte address, byte) in canonical form
(`Machine/Ops.lean`, `Memory.wf`); addresses are offsets from the window's base (R472). -/
structure Ram where
  /-- R358, R472: data banks; 2 MiB; nothing listed. -/
  bank  : List Host.Cell
  /-- R217, R218: almanac entries; 256 KiB; nothing listed. -/
  alm   : List Host.Cell
  /-- R154: program memory; 128 KiB; nothing listed. -/
  prog  : List Host.Cell
  /-- R254: open microcode store; 96 KiB; nothing listed. -/
  store : List Host.Cell
  /-- R266: clove tables, banks A and B of each engine; 64 KiB; nothing listed. -/
  lut   : List Host.Cell
  /-- R304: link buffers, transmit and receive queue of each link; 64 KiB; nothing listed. -/
  lbuf  : List Host.Cell
  /-- R363, R371 (model's own): how often each bank's contents became undefined; count; 0. -/
  bankGen : Tab Nat 16
  /-- R432 (model's own): odd while the almanac's contents are undefined, a new number each time; count; 0. -/
  almGen  : Nat
  deriving DecidableEq, Repr

def Ram.reset : Ram := ⟨[], [], [], [], [], [], Tab.all 0, 0⟩

/-! ## Sextant time base -/

/-- Servo states of STB_STAT.STATE (R44). -/
inductive Servo where
  | free | coarse | acq | track | locked | holdover
  deriving DecidableEq, Repr

/-- A keel anchor (R46). -/
structure Anchor where
  /-- R46: keel count; 48 bits; 0. -/
  cnt : Nat
  /-- R46: plant seconds; 48 bits; 0. -/
  sec : Nat
  /-- R46: plant nanoseconds; 30 bits; 0. -/
  ns  : Nat
  deriving DecidableEq, Repr

/-- The KEEL domain (R431): kept through every reset. -/
structure Keel where
  /-- R45: STB_KCNT, the keel counter; 48 bits; 0 at keel power-on. -/
  kcnt     : Nat
  /-- R45: STB_KSTAT.KEEL_LOST; 1 bit; 1 at keel power-on. -/
  keelLost : Bool
  /-- R46: STB_KSTAT.ANC_VALID; 1 bit; 0 at keel power-on. -/
  ancValid : Bool
  /-- R47: STB_KSTAT.XCAL_VALID; 1 bit; 0 at keel power-on. -/
  xcalValid : Bool
  /-- R46: the two anchor slots; 2 anchors; 0 at keel power-on. -/
  anc      : Tab Anchor 2
  /-- R46: which slot is current; 1 bit; slot 0. -/
  ancCur   : Fin 2
  /-- R47: STB_KXCAL.PPB; 16 bits signed; 0 at keel power-on. -/
  kxcal    : BitVec 16
  /-- R412: the keyed-command counter's two slots; 2 x 64 bits; 0 at keel power-on. -/
  ctr      : Tab DWord 2
  /-- R412: which counter slot is current; 1 bit; slot 0. -/
  ctrCur   : Fin 2
  /-- R420: HPS_KSTAT.CTR_LOST; 1 bit; 1 at keel power-on. -/
  ctrLost  : Bool
  /-- R443: PWR_KEEL.VKEEL_OK; 1 bit; 0. -/
  vkeelOk  : Bool
  /-- R443: PWR_KEEL.XKEEL_RUN; 1 bit; 0. -/
  xkeelRun : Bool
  /-- R50: STB_KCNT_HI as latched by reading LO; 16 bits; 0. -/
  kcntHi   : Nat
  /-- R412, R429: HPS_CTR_HI as latched by reading LO; 32 bits; 0. -/
  ctrHi    : Word
  /-- R48, R50: STB_CPT_SEC; 48 bits; 0. -/
  cptSec   : Nat
  /-- R48, R50: STB_CPT_NS; 30 bits; 0. -/
  cptNs    : Nat
  deriving DecidableEq, Repr

def Keel.powerOn : Keel :=
  ⟨0, true, false, false, Tab.all ⟨0, 0, 0⟩, 0, 0, Tab.all 0, 0, true, false, false, 0, 0, 0, 0⟩

/-- The STB registers and the servo's working state. -/
structure Stb where
  /-- R50: STB_CTL (DISC_EN, PPS_POL, TTOD_EN, STEP_EN, REALIGN, ANCHOR_EN, COARSE_EN); 7 bits; 0x68. -/
  ctl      : Word
  /-- R44: STB_STAT.STATE; 3 bits; FREE. -/
  st       : Servo
  /-- R29, R30: STB_STAT.PLL_LOCK; 1 bit; 0. -/
  pllLock  : Bool
  /-- R29: STB_STAT.REF_OK; 1 bit; 0. -/
  refOk    : Bool
  /-- R50: STB_STAT.PPS_OK; 1 bit; 0. -/
  ppsOk    : Bool
  /-- R44: STB_STAT.TTOD_OK; 1 bit; 0. -/
  ttodOk   : Bool
  /-- R42, R48: STB_STAT.PT_VALID; 1 bit; 0. -/
  ptValid  : Bool
  /-- R42, R48: STB_STAT.PT_COARSE; 1 bit; 0. -/
  ptCoarse : Bool
  /-- R41: STB_STAT.RATE_CLAMPED; 1 bit; 0. -/
  rateClamped : Bool
  /-- R28: STB_STAT.ICAL_OK; 1 bit; 0. -/
  icalOk   : Bool
  /-- R27: STB_RATE; 32 bits signed; 0. -/
  rate     : Int
  /-- R27: STB_RATE_MAN; 32 bits signed; 0. -/
  rateMan  : Int
  /-- R41: the servo's integrator integ; 32 bits signed; 0. -/
  integ    : Int
  /-- R50: STB_SERVO; 32 bits; 0x0064_2441. -/
  servo    : Word
  /-- R50: STB_THR; 32 bits; 0x0320_0028. -/
  thr      : Word
  /-- R43: STB_STEPTHR; 32 bits; 0x1F40. -/
  stepthr  : Word
  /-- R35: STB_PDLY; 32 bits signed; 0. -/
  pdly     : Word
  /-- R40: STB_PHERR; 32 bits signed; 0. -/
  pherr    : Int
  /-- R34: STB_LSTEP; 32 bits signed; 0. -/
  lstep    : Int
  /-- R32: plant epoch E, STB_EPOCH; 48 bits; 0. -/
  epoch    : Int
  /-- R32: plant offset OFS, STB_OFS; 64 bits signed; 0. -/
  ofs      : Int
  deriving DecidableEq, Repr

/-- A TTOD frame that passed every check but that of its distance from the next accepted edge (R39). -/
structure TodFrame where
  /-- R38: SEC; 48 bits. -/
  sec   : Nat
  /-- R38: FLAGS and UTC_OFS as STB_TOD_INFO shows them; 24 bits. -/
  info  : Word
  /-- R39: end of its last stop bit; time. -/
  stop  : Nat
  /-- R39: its VALID bit; 1 bit. -/
  valid : Bool
  /-- R39 (model's own): it stands in STB_TOD_SEC and STB_TOD_INFO, or never will; 1 bit. -/
  shown : Bool
  /-- R44 (model's own): no other frame has ended since; 1 bit. -/
  newest : Bool
  deriving DecidableEq, Repr

/-- The rest of the STB block: the time port, the latches and the calibration. -/
structure TimePort where
  /-- R36, R50: STB_PPS, stamp of the last accepted edge; 64 bits; 0. -/
  pps      : Nat
  /-- R36: whether an edge was ever accepted; 1 bit; no. -/
  hasPps   : Bool
  /-- R50: STB_TOD_SEC; 48 bits; 0. -/
  todSec   : Nat
  /-- R50: STB_TOD_INFO; 24 bits; 0. -/
  todInfo  : Word
  /-- R39: frames that ended since the last accepted edge, newest first; list; empty. -/
  frames   : List TodFrame
  /-- R50: STB_ERRCNT (CRC, FRAME, SEQ, MISS); 4 x 8 bits; 0. -/
  errcnt   : Word
  /-- R43: STB_HOLDSEC; 32 bits; 0. -/
  holdsec  : Nat
  /-- R43: boundary at which HOLDOVER was entered; time; 0. -/
  holdAt   : Nat
  /-- R40: second S of the last servo edge; 48 bits; 0. -/
  sec      : Int
  /-- R42: first edge of the pair in ACQ and its second; stamp and second; none. -/
  m1       : Option (Int × Nat)
  /-- R44: consecutive edges within LOCK_THR; count; 0. -/
  lockCnt  : Nat
  /-- R44: consecutive edges beyond UNLOCK_THR; count; 0. -/
  unlockCnt : Nat
  /-- R37: consecutive misses; count; 0. -/
  missCnt  : Nat
  /-- R46: an accepted edge in LOCKED awaits the next XKEEL edge; 1 bit; 0. -/
  ancPend  : Bool
  /-- R31: STB_MT_HI latch; 32 bits; 0. -/
  mtHi     : Word
  /-- R31: STB_PT_NS latch; 30 bits; 0. -/
  ptNs     : Word
  /-- R31: STB_PT_SEC_LO latch; 32 bits; 0. -/
  ptSecLo  : Word
  /-- R31: STB_PT_SEC_HI latch; 32 bits; 0. -/
  ptSecHi  : Word
  /-- R50: STB_PPS_HI latch; 32 bits; 0. -/
  ppsHi    : Word
  /-- R50: STB_TOD_SEC_HI latch; 16 bits; 0. -/
  todHi    : Word
  /-- R50: STB_OFS_HI latch; 32 bits; 0. -/
  ofsHi    : Word
  /-- R50: STB_EPOCH_LO latch; 32 bits; 0. -/
  epLo     : Word
  /-- R50: STB_EPOCH_HI latch; 16 bits; 0. -/
  epHi     : Word
  /-- R28, R50: STB_ICAL (WORST, WCELL, FAIL); 32 bits; 0. -/
  ical     : Word
  deriving DecidableEq, Repr

def Stb.reset : Stb :=
  ⟨0x68, .free, false, false, false, false, false, false, false, false, 0, 0, 0,
   0x0064_2441, 0x0320_0028, 0x1F40, 0, 0, 0, 0, 0⟩

def TimePort.reset : TimePort :=
  ⟨0, false, 0, 0, [], 0, 0, 0, 0, none, 0, 0, 0, false, 0, 0, 0, 0, 0, 0, 0, 0, 0, 0⟩

/-! ## Axes -/

/-- AXS_STAT.STATE (R70). -/
inductive AxState where
  | nofix | acquiring | steady
  deriving DecidableEq, Repr

/-- The host's AXS registers (R81). -/
structure AxRegs where
  /-- R72: AXS_CTL.EN; 1 bit; 0. -/
  en     : Bool
  /-- R72 (model's own): an EN write that waits for step 3 of its boundary; 1 bit; none. -/
  enPend : Option Bool
  /-- R72 (model's own): a CLR write that waits for step 3 of its boundary; 1 bit; 0. -/
  clrPend : Bool
  /-- R81: AXS_CFG; 26 bits; 0. -/
  cfg    : Word
  /-- R52: AXS_MOD_LO; 32 bits; 0. -/
  modLo  : Word
  /-- R52: AXS_MOD_HI; 16 bits; 0. -/
  modHi  : Word
  /-- R68: AXS_GAIN_AB; 32 bits; 0x9000_E000. -/
  gainAB : Word
  /-- R68: AXS_GAIN_G; 16 bits; 0x1000. -/
  gainG  : Word
  /-- R133: AXS_TOL; 16 bits; 2. -/
  tol    : Word
  /-- R61: AXS_VMAX; 32 bits; 0. -/
  vmax   : Word
  /-- R61: AXS_AMAX; 32 bits; 0. -/
  amax   : Word
  /-- R70: AXS_VRES; 32 bits; 0x400. -/
  vres   : Word
  /-- R63, R64: AXS_LIM; 32 bits; 4. -/
  lim    : Word
  /-- R56: AXS_QUAD; 32 bits; 0x03E8_04E2. -/
  quad   : Word
  /-- R57: AXS_ZPOS; 32 bits signed; 0. -/
  zpos   : Word
  /-- R58: AXS_SER; 9 bits; 0. -/
  ser    : Word
  /-- R59: AXS_VM_POS_LO; 32 bits; 0. -/
  vmPosLo : Word
  /-- R59: AXS_VM_POS_HI; 16 bits; 0. -/
  vmPosHi : Word
  /-- R59: AXS_VM_T_LO; 32 bits; 0. -/
  vmTLo  : Word
  /-- R59: AXS_VM_T_HI; 32 bits; 0. -/
  vmTHi  : Word
  /-- R59: AXS_VM_NS; 30 bits; 0. -/
  vmNs   : Word
  deriving DecidableEq, Repr

/-- An exact rational velocity in counts per tick, as numerator in 2^-16 counts and denominator in ticks (R61). -/
structure Vel where
  num : Int
  den : Nat
  deriving DecidableEq, Repr

/-- The estimator and status of one axis. -/
structure AxEst where
  /-- R70: AXS_STAT.STATE; 2 bits; NOFIX. -/
  st     : AxState
  /-- R70: AXS_STAT.NFIX; 4 bits; 0. -/
  nfix   : Nat
  /-- R64: AXS_STAT.FIXLATE; 1 bit; 0. -/
  fixlate : Bool
  /-- R53: AXS_STAT.OVR; 1 bit; 0. -/
  ovr    : Bool
  /-- R55: AXS_STAT.QERR; 1 bit; 0. -/
  qerr   : Bool
  /-- R51: AXS_STAT.CFGIGN; 1 bit; 0. -/
  cfgign : Bool
  /-- R69: AXS_EPOCH; 32 bits; 0. -/
  epoch  : BitVec 32
  /-- R65: tf, AXS_FIXT; 64 bits; 0. -/
  tf     : Nat
  /-- R65: x, AXS_X, in 2^-32 counts; 64 bits signed; 0. -/
  x      : Int
  /-- R52: AXS_TURNS; 32 bits signed; 0. -/
  turns  : Int
  /-- R65: v, AXS_VEL, in 2^-48 counts per tick; 64 bits signed; 0. -/
  v      : Int
  /-- R65: a, AXS_ACC, in 2^-80 counts per tick squared; 64 bits signed; 0. -/
  a      : Int
  /-- R67: AXS_RES, in 2^-16 counts; 32 bits signed; 0. -/
  res    : Int
  /-- R62: AXS_REJ.CNT; 16 bits; 0. -/
  rejCnt : Nat
  /-- R62: AXS_REJ.CAUSE; 8 bits; 0. -/
  rejCause : Nat
  /-- R63: AXS_REJ.CONSEC; 4 bits; 0. -/
  consec : Nat
  /-- R61, R74: the last two accepted fixes of the acquisition, newest first, z in 2^-16 counts; positions and times; none. -/
  last   : List (Int × Nat)
  /-- R66: time of fix 1 of the acquisition; 64 bits; 0. -/
  t1     : Nat
  /-- R61: vm_prev; an exact velocity; none. -/
  vm     : Option Vel
  /-- R64: origin of the fix timeout; 64 bits; 0. -/
  origin : Nat
  /-- R58: previous accepted z of a linear serial axis, in 2^-16 counts; 48 bits; 0. -/
  zprev  : Int
  deriving DecidableEq, Repr

/-- The quadrature decoder of one axis (R55 to R57). -/
structure QuadDec where
  /-- R55: the quadrature count, in 2^-16 counts; 48 bits; 0. -/
  count  : Int
  /-- R55: logical level of A; 1 bit; 0. -/
  a      : Bool
  /-- R55: logical level of B; 1 bit; 0. -/
  b      : Bool
  /-- R55: base period of the last transition; its start; none. -/
  per    : Option Nat
  /-- R55: A changed in that base period; 1 bit; 0. -/
  perA   : Bool
  /-- R55: B changed in that base period; 1 bit; 0. -/
  perB   : Bool
  /-- R55 (model's own): the count before that base period, restored by a quadrature error; 48 bits; 0. -/
  count0 : Int
  /-- R55 (model's own): lastFix before that base period; time; none. -/
  fix0   : Option Nat
  /-- R55 (model's own): lastEdge before that base period; time; none. -/
  edge0  : Option Nat
  /-- R56: stamp of the previous fix made by this decoder; time; none. -/
  lastFix : Option Nat
  /-- R56: stamp of the last counting edge; time; none. -/
  lastEdge : Option Nat
  /-- R56: boundary at which EN was set; time; 0. -/
  enAt   : Nat
  /-- R57: the first reference after EN was taken; 1 bit; 0. -/
  refDone : Bool
  deriving DecidableEq, Repr

/-- One axis. -/
structure AxisSt where
  reg  : AxRegs
  est  : AxEst
  quad : QuadDec
  deriving DecidableEq, Repr

def AxRegs.reset : AxRegs :=
  ⟨false, none, false, 0, 0, 0, 0x9000_E000, 0x1000, 2, 0, 0, 0x400, 4, 0x03E8_04E2, 0, 0, 0, 0, 0, 0, 0⟩
def AxEst.reset : AxEst :=
  ⟨.nofix, 0, false, false, false, false, 0, 0, 0, 0, 0, 0, 0, 0, 0, 0, [], 0, none, 0, 0⟩
def QuadDec.reset : QuadDec := ⟨0, false, false, none, false, false, 0, none, none, none, none, 0, false⟩
def AxisSt.reset : AxisSt := ⟨AxRegs.reset, AxEst.reset, QuadDec.reset⟩

/-- A fix in the queue of the dead-reckoning unit (R60). -/
structure FixReq where
  /-- R60: the axis; 6 bits. -/
  ax     : Axis
  /-- R54: position in 2^-16 counts; 48 bits signed. -/
  z      : Int
  /-- R54: stamp; 64 bits. -/
  t      : Nat
  /-- R60: boundary of arrival at the unit; 64 bits. -/
  arrive : Nat
  /-- R61: the cause already found at conversion (SOURCE, NOPLANT or AHEAD); 0 for none. -/
  pre    : Nat
  /-- R55, R56 (model's own): a counting edge made it; 1 bit. -/
  edge   : Bool
  deriving DecidableEq, Repr

/-- The dead-reckoning unit's queue. -/
structure DrUnit where
  /-- R60: the fix queue; at most 64 fixes; empty. -/
  q     : List FixReq
  /-- R60, R144 (model's own): the fix of this boundary has been taken; 1 bit; 0. -/
  taken : Bool
  deriving DecidableEq, Repr

/-! ## Channel programs -/

/-- The 128-byte context of a program (R157). -/
structure Context where
  /-- R157: g0 to g15; 16 x 32 bits; 0. -/
  g  : Tab Word 16
  /-- R157: t0 to t3; 4 x 64 bits; 0. -/
  t  : Tab DWord 4
  /-- R157: p0 to p3; 4 x 48 bits; 0. -/
  p  : Tab (BitVec 48) 4
  /-- R157: Z; 1 bit; 0. -/
  z  : Bool
  /-- R157: N; 1 bit; 0. -/
  n  : Bool
  /-- R157: C; 1 bit; 0. -/
  c  : Bool
  /-- R157: V; 1 bit; 0. -/
  v  : Bool
  /-- R157: PC; 15 bits; 0 until a start loads ENTRY. -/
  pc : BitVec 15
  /-- R156 (model's own): the next word to fetch lies beyond 0x7FFF; 1 bit; 0. -/
  past : Bool
  deriving DecidableEq, Repr

def Context.clear : Context := ⟨Tab.all 0, Tab.all 0, Tab.all 0, false, false, false, false, 0, false⟩

/-- A wait in which a program stands (R164, R167). -/
inductive WaitState where
  | runnable
  | stopped
  | wait (kind : Fin 6) (reg : Fin 16) (arg : Byte) (ch : Chan) (timeout : Option (Fin 4))
  | hold (ax : Axis) (coast : Bool)
  | qspace (ch : Chan)
  | segSpace
  | effSpace
  | ckptSpace
  | applyPend (ch : Chan)
  | micro (kind : BitVec 4) (test : Option (Byte × DWord))
  deriving DecidableEq, Repr

/-- An effect held until release (R126). -/
inductive HeldEff where
  | stm (addr : Nat) (data : DWord) (half : Bool) (pc : BitVec 15)
  | stc (ch : Chan) (reg : Fin 16) (val : Word)
  | sig (detail : BitVec 16)
  | xkick (xc : XcNo)
  | lsend (off : Nat) (data : DWord)
  | cfg (ch : Chan) (off : Byte) (mask val : Word)
  | apply (ch : Chan) (atmode : BitVec 2) (at' : DWord) (axis : Axis)
  | cancel (ch : Chan) (id : Nat) (thr : Option DWord)
  | capt (ch : Chan) (n : Nat)
  deriving DecidableEq, Repr

/-- A tracked conversion (R131): a P2T keeps its extended target, a T2P its time. -/
structure Conv where
  /-- R131: the axis. -/
  ax    : Axis
  /-- R131: true for T2P. -/
  t2p   : Bool
  /-- R131, R190: extended target in 2^-16 counts (P2T) or time (T2P). -/
  arg   : Int
  /-- R131: recorded time (P2T) or position in 2^-16 counts (T2P). -/
  res   : Int
  /-- R131: epoch of the conversion. -/
  epoch : BitVec 32
  /-- R135 (model's own): it was written at this boundary and is not yet tested; 1 bit. -/
  fresh : Bool
  deriving DecidableEq, Repr

/-- A fault held in a segment (R175). -/
structure HeldFault where
  code : Nat
  sub  : Nat
  pc   : BitVec 15
  /-- R260: micro-address of a MICRO fault of an open-store routine. -/
  ua   : Option Nat
  deriving DecidableEq, Repr

/-- A segment of a program (R123). -/
structure Segment where
  /-- R137: sequence number of the segment; count. -/
  seq     : Nat
  /-- R123: checkpoint; 128 bytes. -/
  ckpt    : Context
  /-- R125: settled mask; 4 bits. -/
  settled : BitVec 4
  /-- R125: ordinals taken; 0 to 4. -/
  emits   : Nat
  /-- R126: held effects in program order. -/
  held    : List HeldEff
  /-- R131: tracked conversions, at most 4. -/
  convs   : List Conv
  /-- R131: conversions tracked by epoch alone. -/
  epochs  : List (Axis × BitVec 32 × Bool)
  /-- R129: the service has ended or a new segment has begun. -/
  ended   : Bool
  /-- R175: the held fault. -/
  fault   : Option HeldFault
  /-- R177: the held stop. -/
  stop    : Bool
  /-- R143: it carries the sequence number of a discarded segment. -/
  rerun   : Bool
  deriving DecidableEq, Repr

/-- Action types (R86). -/
inductive ActTy where
  | level | pulse | capwin | trippulse
  deriving DecidableEq, Repr

/-- The position stamp of an action (R76, R131). -/
structure PosStamp where
  /-- R76: the axis. -/
  ax    : Axis
  /-- R76: extended target Q in 2^-16 counts. -/
  q     : Int
  /-- R133: epoch of its time. -/
  epoch : BitVec 32
  /-- R74: converted under COAST (the ACQUIRE mark). -/
  coast : Bool
  deriving DecidableEq, Repr

/-- An entry of a provisional queue: an action or a placeholder (R89, R136). -/
structure ProvEntry where
  /-- R136: true for a placeholder. -/
  holder : Bool
  /-- R86: type. -/
  ty     : ActTy
  /-- R86: logical level. -/
  lvl    : Bool
  /-- R86: width in tk; 32 bits. -/
  w      : Nat
  /-- R86: machine time T; 64 bits. -/
  t      : Nat
  /-- R86: position stamp, if any. -/
  pos    : Option PosStamp
  /-- R122: home channel of the program that wrote it. -/
  home   : Chan
  /-- R125: sequence number of its segment. -/
  seq    : Nat
  /-- R125: ordinal; 0 to 3. -/
  ord    : Nat
  /-- R143: written by a re-run. -/
  rerun  : Bool
  /-- R200: armed lookout of a TRIPPULSE. -/
  lk     : LkNo
  /-- R142: boundary at which it was written. -/
  wrote  : Nat
  /-- R127, R201: cancel marks, by the id of the CANCEL effect. -/
  marks  : List Nat
  deriving DecidableEq, Repr

/-- How a routine leaves its service (R163, R175). -/
inductive Finish where
  | go
  | yield
  | stop
  | block (w : WaitState)
  | fault (f : HeldFault)
  | preempt
  deriving DecidableEq, Repr

/-- The writes a routine has staged, which land together (R250). -/
structure Staged where
  /-- R250: context after the routine, next PC included. -/
  ctx    : Context
  /-- R123: checkpoint of a segment the routine begins. -/
  newSeg : Option Context
  /-- R125: the routine takes an ordinal. -/
  emit   : Bool
  /-- R198: action and the channel it goes to. -/
  act    : Option (Chan × ProvEntry)
  /-- R126: held effects. -/
  held   : List HeldEff
  /-- R131: tracked conversions. -/
  convs  : List Conv
  /-- R177: it holds a stop. -/
  stop   : Bool
  /-- R201 (model's own): its Z says whether its CANCEL marked nothing. -/
  zmark  : Bool
  /-- R250: context with the writes staged after COMMIT, which land apart, and the period in which END completed. -/
  tail   : Option (Context × Nat)
  /-- R250 (model's own): it holds writes staged after COMMIT. -/
  late   : Bool
  /-- R163: how the service goes on. -/
  fin    : Finish
  /-- R250: boundary that starts the base period in which its COMMIT microword completed. -/
  at'    : Nat
  deriving DecidableEq, Repr

/-- An axis as seen at a view boundary (R159). -/
structure AxView where
  /-- R249: STATE. -/
  st    : AxState
  /-- R249: NFIX. -/
  nfix  : Nat
  /-- R249: epoch. -/
  epoch : BitVec 32
  /-- R189: modulo axis. -/
  modulo : Bool
  /-- R189: modulus in 2^-16 counts. -/
  m     : Nat
  deriving DecidableEq, Repr

/-- A channel as seen at a view boundary (R151, R159, R171). -/
structure ChView where
  /-- R151: EN. -/
  en      : Bool
  /-- R172: BOUND. -/
  bound   : Bool
  /-- R151: membership: home channel and index. -/
  member  : Option (Chan × BitVec 3)
  /-- R84: MODE. -/
  mode    : BitVec 4
  /-- R164: free provisional entries. -/
  free    : Nat
  /-- R164: capture entries not held. -/
  capFree : Nat
  /-- R164: CAPTHR. -/
  capthr  : Nat
  /-- R171: released context. -/
  rel     : Context
  deriving DecidableEq, Repr

/-- An almanac table as seen at a view boundary (R173). -/
structure TabView where
  /-- R219: DEF. -/
  defd : Bool
  /-- R219: KIND (true: time-keyed). -/
  time : Bool
  /-- R219: AXIS. -/
  ax   : Axis
  /-- R219: LIVE_BASE. -/
  base : Nat
  /-- R219: LIVE_LEN. -/
  len  : Nat
  deriving DecidableEq, Repr

/-- Committed state at the view boundary of a service (R159). -/
structure View where
  /-- R159: the boundary. -/
  at'  : Nat
  axs  : Tab AxView 64
  chn  : Tab ChView 512
  /-- R164: raise counts of the sources. -/
  rcnt : Tab (BitVec 16) 256
  /-- R164: DMA signal count of the home channel. -/
  dsig : BitVec 16
  tabs : Tab TabView 64
  /-- R224: the ALM domain is on. -/
  almOn : Bool
  deriving DecidableEq, Repr

/-- A running service (R163, R236). -/
structure Service where
  /-- R236: engine. -/
  eng      : EngineNo
  /-- R236: slot. -/
  slot     : Fin 6
  /-- R235: deadline. -/
  deadline : Nat
  /-- R123: sequence number of the segment it began with. -/
  first    : Nat
  /-- R159: view. -/
  view     : View
  /-- R163: instructions executed. -/
  count    : Nat
  /-- R238: context with every write of the routines so far. -/
  ctx      : Context
  /-- R250: routines past COMMIT whose writes have not landed, oldest first. -/
  staged   : List Staged
  /-- R243: the current instruction was already restarted once after an uncorrectable error. -/
  retried  : Bool
  deriving DecidableEq, Repr

/-- The program bound to a home channel. -/
structure Prog where
  /-- R157: current context. -/
  ctx     : Context
  /-- R178: CHN_PSTAT.RUNNING; 1 bit; 0. -/
  running : Bool
  /-- R178: CHN_PSTAT.WKIND; 4 bits; 0xF. -/
  wait    : WaitState
  /-- R123: unreleased segments, oldest first; at most 4; none. -/
  segs    : List Segment
  /-- R137: sequence number of the next new segment; count; 0. -/
  nextSeq : Nat
  /-- R137: settled masks of discarded segments that a re-run will carry; list; empty. -/
  settled : List (Nat × BitVec 4)
  /-- R163: CHN_PSTAT.LONG; 1 bit; 0. -/
  long    : Bool
  /-- R164: DMA signal count; 16 bits; 0. -/
  dsig    : BitVec 16
  /-- R178: CHN_FAULT.PC; 15 bits; 0. -/
  faultPc : BitVec 15
  /-- R178: CHN_FAULT.CODE; 5 bits; 0. -/
  faultCode : Nat
  /-- R178: CHN_FAULT.VALID; 1 bit; 0. -/
  faultValid : Bool
  /-- R163: the running service; none. -/
  svc     : Option Service
  /-- R201 (model's own): id of the next CANCEL effect; count; 0. -/
  nextId  : Nat
  /-- R89 (model's own): an instruction blocked on queue space has not yet executed again; 1 bit; 0. -/
  again   : Bool
  deriving DecidableEq, Repr

def Prog.reset : Prog :=
  ⟨Context.clear, false, .stopped, [], 0, [], false, 0, 0, 0, false, none, 0, false⟩

/-! ## Channels -/

/-- CHN_STAT.CODE (R113). -/
inductive Code where
  | ok | late | revised | nofix | acquire | qfull | trip | linklost | bankasleep | progfault | halted
  deriving DecidableEq, Repr

/-- What the pin cell does with the ball (R85, R109). -/
inductive Drive where
  | undriven | low | high
  deriving DecidableEq, Repr

/-- A staged set: the fields marked ST (R114). -/
structure StSet where
  /-- R111, R104: CHN_CFG without MODE (LATE, NOFIX, EDGE, CAPOWN, CAPTHR); 12 bits; 0. -/
  cfg   : Word
  /-- R115: CHN_LEAD; 11 bits; 0x40. -/
  lead  : Word
  /-- R97: CHN_PER; 32 bits; 0. -/
  per   : Word
  /-- R98: CHN_WID; 32 bits; 0. -/
  wid   : Word
  /-- R100: CHN_PHS; 32 bits; 0. -/
  phs   : Word
  /-- R99: CHN_TRAIN (RUN, LVL, REF, COUNT); 32 bits; 2. -/
  train : Word
  /-- R101: CHN_TRIP (LK, ARM); 9 bits; 0. -/
  trip  : Word
  deriving DecidableEq, Repr

def StSet.reset : StSet := ⟨0, 0x40, 0, 0, 0, 2, 0⟩

/-- A pending per-channel apply (R116, R117). -/
structure PendApply where
  /-- R116: ATMODE 0 NEXT, 1 TIME, 2 POS. -/
  atmode : Nat
  /-- R117: axis and extended target of ATMODE POS, once it has one; raw position before. -/
  pos    : Option (Axis × Option Int × BitVec 48)
  /-- R116: T, NEVER while a POS time is not known. -/
  t      : Nat
  /-- R116: B. -/
  b      : Nat
  deriving DecidableEq, Repr

/-- An edge that a committed entry still has to place (R93). -/
structure PinEdge where
  /-- R93: ball time (T - SKEW), or the moved or terminating time. -/
  ball : Int
  /-- R121: T before SKEW. -/
  t    : Nat
  /-- R88: logical level. -/
  lvl  : Bool
  deriving DecidableEq, Repr

/-- Who committed an entry (R90, R97, R263). -/
inductive Origin where
  | program | train | clove
  deriving DecidableEq, Repr

/-- An entry of a committed queue (R89). -/
structure CommEntry where
  src    : Origin
  ty     : ActTy
  lvl    : Bool
  /-- R15: T. -/
  t      : Nat
  /-- R86: width. -/
  w      : Nat
  /-- R101: the lookout it is armed against. -/
  lk     : Option LkNo
  /-- R101: the armed pulse has passed its test at the latch. -/
  tested : Bool
  /-- R102: ball time of the leading edge as placed; none before. -/
  leadAt : Option Int
  /-- R93: edges still to place, in time order. -/
  edges  : List PinEdge
  /-- R98: for WID >= PER, the period end S(k + 1) at which it retires. -/
  until? : Option Nat
  /-- R107: first qualifying edge of a window: stamp and level. -/
  first  : Option (Nat × Bool)
  /-- R107: qualifying edges of a window. -/
  nEdge  : Nat
  /-- R92: boundary at which the entry retires, once its last edge has been placed or handed over; none before. -/
  retireAt : Option Nat
  deriving DecidableEq, Repr

/-- A capture FIFO entry (R103). -/
structure CapEntry where
  /-- R103: STAMP; 64 bits. -/
  stamp : Nat
  /-- R103: VAL; 32 bits. -/
  val   : Nat
  /-- R103: EDGE. -/
  edge  : Bool
  /-- R103: LOST. -/
  lost  : Bool
  /-- R103: MISS. -/
  miss  : Bool
  /-- R103: MULTI. -/
  multi : Bool
  /-- R103: SAT. -/
  sat   : Bool
  deriving DecidableEq, Repr

/-- A phase-channel period fixed before it commits (R100). -/
structure PhasePeriod where
  /-- R100: S(k). -/
  s   : Nat
  /-- R100: PER of REF. -/
  per : Nat
  /-- R100: WID. -/
  wid : Nat
  /-- R100: LVL. -/
  lvl : Bool
  /-- R100: armed lookout. -/
  lk  : Option LkNo
  deriving DecidableEq, Repr

/-- The train generator of a channel (R97). -/
structure TrainGen where
  /-- R99: live RUN; 1 bit; 0. -/
  run    : Bool
  /-- R97: index of the next period to commit; count; 0. -/
  k      : Nat
  /-- R97: S(k) of the next period to commit; 64 bits; 0. -/
  next   : Nat
  /-- R97, R314: period starts committed and not yet reached; times; empty. -/
  starts : List Nat
  /-- R314: the current period's start; 64 bits; none. -/
  cur    : Option Nat
  /-- R314: the start of the period before it, which lasts at a boundary that precedes `cur`; 64 bits; none. -/
  prev   : Option Nat
  /-- R314: end of the last committed period, where a stopped train's ramp ends; 64 bits; 0. -/
  ends   : Nat
  /-- R100: periods fixed and not yet committed; list; empty. -/
  fixed  : List PhasePeriod
  deriving DecidableEq, Repr

/-- Host-side configuration of a channel. -/
structure ChnCfg where
  /-- R85: CHN_CTL.EN; 1 bit; 0. -/
  en     : Bool
  /-- R85 (model's own): EN writes not yet in effect, with their boundaries; list; empty. -/
  enPend : List (Bool × Nat)
  /-- R82: CHN_CFG.MODE; 4 bits; 0. -/
  mode   : BitVec 4
  /-- R121: CHN_PIN; 24 bits; 1. -/
  pin    : Word
  /-- R109, R110: CHN_SAFE; 9 bits; 2. -/
  safe   : Word
  /-- R178: CHN_PROG; 29 bits; 0. -/
  prog   : Word
  /-- R120: CHN_EVEN; 3 bits; 7. -/
  even   : Word
  /-- R148: CHN_REVLIM.LIM and ACT; 10 bits; 0. -/
  revlim : Word
  /-- R114: shadow set. -/
  shadow : StSet
  /-- R114: live set. -/
  live   : StSet
  /-- R116: CHN_APPLY.ATMODE; 2 bits; 0. -/
  atmode : BitVec 2
  /-- R117: CHN_APPLY.AXIS; 6 bits; 0. -/
  axis   : BitVec 6
  /-- R116: CHN_APPLY_AT_LO; 32 bits; 0. -/
  atLo   : Word
  /-- R116: CHN_APPLY_AT_HI; 32 bits; 0. -/
  atHi   : Word
  /-- R114: CHN_APPLY.PEND and the pending apply; none. -/
  pend   : Option PendApply
  /-- R118: CHN_APPLY.GPEND; 1 bit; 0. -/
  gpend  : Bool
  /-- R116 (model's own): the apply of a program that commits at this boundary has been started; 1 bit; 0. -/
  early  : Bool
  deriving DecidableEq, Repr

/-- Status and counters of a channel. -/
structure ChnStat where
  /-- R113: CODE; 4 bits; OK. -/
  code   : Code
  /-- R85: DRIVEN; 1 bit; 0. -/
  driven : Bool
  /-- R99: DONE; 1 bit; 0. -/
  done   : Bool
  /-- R94: NARROW; 1 bit; 0. -/
  narrow : Bool
  /-- R105: COVF; 1 bit; 0. -/
  covf   : Bool
  /-- R115: CFGERR; 1 bit; 0. -/
  cfgerr : Bool
  /-- R83: CFGIGN; 1 bit; 0. -/
  cfgign : Bool
  /-- R114: STGREF; 1 bit; 0. -/
  stgref : Bool
  /-- R136: CHN_REV; 32 bits; 0. -/
  rev    : Nat
  /-- R142: CHN_MARGIN.MIN; 32 bits; 0xFFFF_FFFF. -/
  margin : Nat
  /-- R140: CHN_LATECNT; 32 bits; 0. -/
  latecnt : Nat
  /-- R101: CHN_TRIPCNT; 32 bits; 0. -/
  tripcnt : Nat
  /-- R147: CHN_REVLIM.RUN; 8 bits; 0. -/
  run    : Nat
  /-- R147: CHN_REVLIM.FROZEN; 1 bit; 0. -/
  frozen : Bool
  /-- R26, R112: the channel is in its safe state; 1 bit; 0. -/
  safe   : Bool
  /-- R26, R176: safe-state entry due at a boundary, with its code and whether it is by PROGFAULT or HALT policy (R110); none. -/
  safeDue : Option (Code × Nat)
  deriving DecidableEq, Repr

/-- Pin cell and capture logic of a channel. -/
structure PinCell where
  /-- R85, R109: drive of the ball; low, high or undriven; undriven. -/
  drive  : Drive
  /-- R96: filtered level of the ball as an input; 1 bit; 0. -/
  inp    : Bool
  /-- R94: ball time of the last edge that made a transition; time; none. -/
  lastAt : Option Int
  /-- R121: CHN_EDGE, T of the last placed edge; 64 bits; 0. -/
  edgeT  : Nat
  /-- R108: level of the last committed edge whose time has passed (link slots); 1 bit; 0. -/
  slotLvl : Bool
  /-- R108, R121: committed edges of a link slot, handed over, whose time has not passed; time and level; empty. -/
  slotEdges : List (Nat × Bool)
  /-- R103: capture FIFO; at most 16 entries; empty. -/
  cap    : List CapEntry
  /-- R128: entries held for consumption at the head; 0 to 16; 0. -/
  capHeld : Nat
  /-- R105: LOST is due on the next entry; 1 bit; 0. -/
  lostDue : Bool
  /-- R104: previous selected (CAP_EDGE) or active (CAP_PERIOD, CAP_DUTY) edge; time; none. -/
  prevSel : Option Nat
  /-- R104: start of the active level now seen (CAP_WIDTH, CAP_DUTY); time; none. -/
  actAt  : Option Nat
  /-- R104: active time seen in the current period (CAP_DUTY); tk; 0. -/
  actSum : Nat
  /-- R121: CHN_CAP_ATTR as last latched; 32 bits; 0. -/
  attrL  : Word
  /-- R121: CHN_CAP_LO/HI as last latched; 64 bits; 0. -/
  stampL : Nat
  /-- R121: CHN_CAP_VAL as last latched; 32 bits; 0. -/
  valL   : Nat
  /-- R96 (model's own): level that the ball is driven to from outside, before the filter; 1 bit; 0. -/
  raw    : Bool
  /-- R96 (model's own): ball time of a crossing that the filter has not yet passed; time; none. -/
  cand   : Option Nat
  /-- R261 (model's own): crossings of the ball that clove lines do not yet show, with ball time and level; list; empty. -/
  seen   : List (Nat × Bool)
  /-- R261 (model's own): filtered ball level as clove lines see it; 1 bit; 0. -/
  line   : Bool
  deriving DecidableEq, Repr

/-- One channel. -/
structure Channel where
  cfg  : ChnCfg
  stat : ChnStat
  pin  : PinCell
  /-- R89: provisional queue; at most 8 entries; empty. -/
  prov : List ProvEntry
  /-- R89: committed queue; at most 4 entries; empty. -/
  comm : List CommEntry
  train : TrainGen
  prog : Prog
  deriving DecidableEq, Repr

def ChnCfg.reset : ChnCfg :=
  ⟨false, [], 0, 1, 2, 0, 7, 0, StSet.reset, StSet.reset, 0, 0, 0, 0, none, false, false⟩
def ChnStat.reset : ChnStat :=
  ⟨.ok, false, false, false, false, false, false, false, 0, 0xFFFF_FFFF, 0, 0, 0, false, false, none⟩
def PinCell.reset : PinCell :=
  ⟨.undriven, false, none, 0, false, [], [], 0, false, none, none, 0, 0, 0, 0, false, none, [], false⟩
def TrainGen.reset : TrainGen := ⟨false, 0, 0, [], none, none, 0, []⟩
def Channel.reset : Channel :=
  ⟨ChnCfg.reset, ChnStat.reset, PinCell.reset, [], [], TrainGen.reset, Prog.reset⟩

/-! ## Group apply and snapshot (SYS) -/

/-- A pending group apply (R118). -/
structure GroupApply where
  mask   : Tab Word 16
  atTime : Bool
  t      : Nat
  goAt   : Nat
  /-- R118: the lowest member that had a per-channel apply pending at GO. -/
  busy   : Option Chan
  deriving DecidableEq, Repr

/-- The SN fields and the live set of one channel in a snapshot (R9, R145). -/
structure ChSnap where
  stat  : Word
  pstat : Word
  edge  : Nat
  next  : Nat
  live  : StSet
  rel   : Context
  deriving DecidableEq, Repr

/-- The SN fields of one axis in a snapshot (R9, R145). -/
structure AxSnap where
  stat  : Word
  epoch : BitVec 32
  tf    : Nat
  x     : Int
  turns : Int
  v     : Int
  a     : Int
  res   : Int
  deriving DecidableEq, Repr

/-- A snapshot copy (R21, R478). -/
structure Snap where
  chn : Tab ChSnap 512
  axs : Tab AxSnap 64
  deriving DecidableEq, Repr

/-- The SYS block (R477). -/
structure SysBlk where
  /-- R118: SYS_GMASK0 to 15; 512 bits; 0. -/
  gmask   : Tab Word 16
  /-- R118: SYS_GAPPLY.ATMODE; 1 bit; 0. -/
  gatmode : Bool
  /-- R118: SYS_GAPPLY_AT_LO; 32 bits; 0. -/
  gatLo   : Word
  /-- R118: SYS_GAPPLY_AT_HI; 32 bits; 0. -/
  gatHi   : Word
  /-- R118: the pending group apply (SYS_GAPPLY.PEND); none. -/
  gp      : Option GroupApply
  /-- R118: SYS_GAPPLY.ERR; 1 bit; 0. -/
  gerr    : Bool
  /-- R118: SYS_GAPPLY.REF; 1 bit; 0. -/
  gref    : Bool
  /-- R118: SYS_GAPPLY.ERRCH; 9 bits; 0. -/
  gerrch  : Nat
  /-- R478: SYS_SNAPCNT; 32 bits; 0. -/
  snapcnt : Nat
  /-- R477: SYS_SNAPT; 64 bits; 0. -/
  snapt   : Nat
  /-- R477: SYS_SNAPT_HI latch; 32 bits; 0. -/
  snaptHi : Word
  /-- R478: a SYS_SNAP write waits for step 6; 1 bit; 0. -/
  snapReq : Bool
  /-- R21: the frozen copy; none until the first snapshot. -/
  snap    : Option Snap
  deriving DecidableEq, Repr

def SysBlk.reset : SysBlk :=
  ⟨Tab.all 0, false, 0, 0, none, false, false, 0, 0, 0, 0, false, none⟩

/-! ## Helm, engines and microcode stores -/

/-- A queued service request (R233, R234). -/
structure Req where
  ch       : Chan
  deadline : Nat
  /-- R235: a revision request. -/
  rev      : Bool
  deriving DecidableEq, Repr

/-- One compass engine (R236, R240, R245). -/
structure Engine where
  /-- R236: channel whose service each slot holds; 6 slots; empty. -/
  slots  : Tab (Option Chan) 6
  /-- R260: ESTAT.INSVC; 1 bit; 0 until the helm runs (R260). -/
  insvc  : Bool
  /-- R245: ESTAT.FAIL; 1 bit; 0. -/
  fail   : Bool
  /-- R240: EPACE.STEP; 16 bits; 2,600. -/
  epace  : Nat
  /-- R240: EPACE.MAX; 16 bits; 0. -/
  emax   : Nat
  /-- R240: the last 16 windows, newest first; list; empty. -/
  wins   : List Nat
  /-- R240: windows measured since reset or entry into service; count; 0. -/
  meas   : Nat
  /-- R245: times of the uncorrectable errors of the last 1 ms; list; empty. -/
  errs   : List Nat
  deriving DecidableEq, Repr

/-- HLM_OS_STAT.MODE (R260). -/
inductive OsMode where
  | boot | normal | recovery
  deriving DecidableEq, Repr

/-- A dispatch record loaded from the image (R252, R253). -/
structure DispRec where
  op    : Byte
  uaddr : BitVec 16
  fmt   : BitVec 3
  x     : Bool
  deriving DecidableEq, Repr

/-- The HLM block and the stores' status. -/
structure Helm where
  /-- R234: service queue; at most one per home channel; empty. -/
  q        : List Req
  eng      : Tab Engine 16
  /-- R242: HLM_CTL.PREEMPT_EN; 1 bit; 1. -/
  preemptEn : Bool
  /-- R260: HLM_EMASK; 16 bits; 0xFFFF. -/
  emask    : BitVec 16
  /-- R242: HLM_PREEMPT; 32 bits; 0x0100_0040. -/
  preempt  : Word
  /-- R260: HLM_SVCCNT; 32 bits; 0. -/
  svccnt   : Nat
  /-- R260: HLM_PRECNT; 32 bits; 0. -/
  precnt   : Nat
  /-- R243: HLM_ABNCNT; 32 bits; 0. -/
  abncnt   : Nat
  /-- R236: HLM_SLACKMIN; 32 bits; 0xFFFF_FFFF. -/
  slackmin : Nat
  /-- R254: HLM_ECC.CORR; 16 bits; 0. -/
  eccCorr  : Nat
  /-- R260: HLM_ECC.UNCORR; 16 bits; 0. -/
  eccUnc   : Nat
  /-- R260: HLM_MFAULT; 32 bits; 0. -/
  mfault   : Word
  /-- R260: OS_STAT.MODE; 2 bits; BOOT. -/
  mode     : OsMode
  /-- R260: OS_STAT.LOADED; 1 bit; 0. -/
  loaded   : Bool
  /-- R260: OS_STAT.LOCKED; 1 bit; 0. -/
  locked   : Bool
  /-- R257: OS_STAT.WAITHOST; 1 bit; 0. -/
  waithost : Bool
  /-- R257: OS_STAT.ERR; 4 bits; 0. -/
  err      : Nat
  /-- R260: OS_STAT.SRC; 2 bits; 0. -/
  src      : Nat
  /-- R257: HLM_OS_LEN; 17 bits; 0. -/
  len      : Nat
  /-- R260: HLM_OS_SVN; 32 bits; 0. -/
  svn      : Nat
  /-- R260: HLM_OS_NW.NW; 16 bits; 0. -/
  nw       : Nat
  /-- R260: HLM_OS_NW.ND; 8 bits; 0. -/
  nd       : Nat
  /-- R254: image flag READABLE; 1 bit; 0. -/
  readable : Bool
  /-- R252, R253: dispatch records of the loaded image; at most 191; none. -/
  recs     : List DispRec
  /-- R258: a STORELOAD started this load, so MODE follows the lock at the next boundary; 1 bit; 0. -/
  reload   : Bool
  deriving DecidableEq, Repr

def Engine.reset : Engine := ⟨Tab.all none, false, false, 2600, 0, [], 0, []⟩
def Helm.reset : Helm :=
  ⟨[], Tab.all Engine.reset, true, 0xFFFF, 0x0100_0040, 0, 0, 0, 0xFFFF_FFFF, 0, 0, 0,
   .boot, false, false, false, 0, 0, 0, 0, 0, 0, false, [], false⟩

/-! ## Clove engines -/

/-- One clove engine (R277). -/
structure Clove where
  /-- R273: CLV_CTL.EN; 1 bit; 0. -/
  en     : Bool
  /-- R271: CLV_CTL.BANK; 1 bit; A. -/
  bank   : Bool
  /-- R277: CLV_CFG; 22 bits; 0x0020_0000. -/
  cfg    : Word
  /-- R266: CLV_INIT; 16 bits; 0. -/
  init   : Word
  /-- R261: CLV_TIM0, CLV_TIM1; 2 x 24 bits; 0. -/
  tim    : Tab Word 2
  /-- R277 (model's own): the timer values in effect at this boundary; 2 x 24 bits; 0. -/
  timE   : Tab Word 2
  /-- R263: CLV_TOFS0 to 3; 4 x 32 bits; 0. -/
  tofs   : Tab Word 4
  /-- R261: CLV_LINE0 to 7; 8 x 16 bits; 0. -/
  line   : Tab Word 8
  /-- R262: CLV_OMAP0 to 7; 8 x 9 bits; 0. -/
  omap   : Tab Word 8
  /-- R277: RUN; 1 bit; 0. -/
  run    : Bool
  /-- R271: PEND; 1 bit; 0. -/
  pend   : Bool
  /-- R275: FAULT; 1 bit; 0. -/
  fault  : Bool
  /-- R267: STATE; 6 bits; 0. -/
  st     : BitVec 6
  /-- R265: SCNT; 6 bits; 0. -/
  scnt   : Nat
  /-- R272: SHIFTED; 6 bits; 0. -/
  shifted : Nat
  /-- R277: WREF, RXOVF, TXOVF, QDROP, LATEO, NOSTAMP, TXEMPTY; 7 bits; 0. -/
  flagsW : BitVec 7
  /-- R265: SR; 32 bits; 0. -/
  sr     : Word
  /-- R262: OUT; 8 bits; 0. -/
  out    : Byte
  /-- R262: F0 to F7; 8 bits; 0. -/
  flag   : Byte
  /-- R274: TX FIFO; at most 4 words; empty. -/
  tx     : List Word
  /-- R274: RX FIFO of (word, stamp); at most 4; empty. -/
  rx     : List (Word × Nat)
  /-- R274: CLV_RXD latch; 32 bits; 0. -/
  rxd    : Word
  /-- R274: CLV_RXT latch; 64 bits; 0. -/
  rxt    : Nat
  /-- R270: E; 64 bits; 0. -/
  ent    : Nat
  /-- R269: stamp latch; 64 bits; 0. -/
  stmp   : Nat
  /-- R269: stamp latch valid; 1 bit; 0. -/
  stmpV  : Bool
  /-- R277: CLV_ENT_HI and CLV_STMP_HI latches; 2 x 32 bits; 0. -/
  entHi  : Word
  /-- R277: CLV_STMP_HI latch; 32 bits; 0. -/
  stmpHi : Word
  /-- R270 (model's own): a swap was forced at this boundary, so no transition is taken; 1 bit; 0. -/
  forced : Bool
  deriving DecidableEq, Repr

def Clove.reset : Clove :=
  ⟨false, false, 0x0020_0000, 0, Tab.all 0, Tab.all 0, Tab.all 0, Tab.all 0, Tab.all 0, false, false, false, 0, 0, 0, 0,
   0, 0, 0, [], [], 0, 0, 0, 0, false, 0, 0, false⟩

/-! ## Grinil links -/

/-- GLK_STAT.STATE (R292). -/
inductive LinkSt where
  | off | train | align | up | lost
  deriving DecidableEq, Repr

/-- A committed edge of a slot that waits for a frame (R297). -/
structure LinkEdge where
  slot : Fin 8
  lvl  : Bool
  /-- R297: T, raised by R94 where it applies. -/
  t    : Nat
  deriving DecidableEq, Repr

/-- The keyed CONFIG message of a link (R303). -/
structure KeyedMsg where
  ty    : Byte
  body  : Tab Byte 10
  seq   : Byte
  /-- R303: frame of the last transmission; none before the first. -/
  sent  : Option Nat
  /-- R303: it waits to be sent. -/
  due   : Bool
  deriving DecidableEq, Repr

/-- An upstream SYNC frame seen in TRAIN (R292, R296). -/
structure SyncSeen where
  stamp : Nat
  seq   : BitVec 3
  turn  : Nat
  deriving DecidableEq, Repr

/-- One link: state and registers (R309). -/
structure Link where
  /-- R292: GLK_CTL.EN; 1 bit; 0. -/
  en      : Bool
  /-- R292: GLK_CTL.AUTORE; 1 bit; 1. -/
  autore  : Bool
  /-- R309: GLK_CFG; 17 bits; 0x0840. -/
  cfg     : Word
  /-- R295: GLK_ASYM; 16 bits signed; 0. -/
  asym    : Word
  /-- R292: STATE; 3 bits; OFF. -/
  st      : LinkSt
  /-- R292: end of the quiet period (STAT.QUIET); time; none. -/
  quiet   : Option Nat
  /-- R292: LCAUSE; 3 bits; 0. -/
  lcause  : Nat
  /-- R282: LEP; 8 bits; 0. -/
  lep     : Byte
  /-- R295: DQ in 1/16 tk; 24 bits; 0. -/
  dq      : Int
  /-- R294: GLK_RTT; 32 bits; 0. -/
  rtt     : Int
  /-- R288: GLK_TURN; 16 bits; 0. -/
  turn    : Nat
  /-- R302: GLK_EPID; 32 bits; 0. -/
  epid    : Word
  /-- R302: GLK_EPCAP; 24 bits; 0. -/
  epcap   : Word
  /-- R302: GLK_EPST0 to 2; 3 x 32 bits; 0. -/
  epst    : Tab Word 3
  /-- R302: GLK_EPFLAG; 5 bits; 0. -/
  epflag  : BitVec 5
  /-- R309: GLK_ERR (CRC, CODE, MISS, ECHOREJ); 4 x 8 bits; 0. -/
  err     : Tab Nat 4
  /-- R298: GLK_TXLATE; 32 bits; 0. -/
  txlate  : Nat
  /-- R297: GLK_HOLD; 32 bits; 0. -/
  hold    : Nat
  /-- R303: KSEQ; 8 bits; 0x7F. -/
  kseq    : Byte
  /-- R303: KACK; 8 bits; 0. -/
  kack    : Byte
  /-- R303: KTRY; 2 bits; 0. -/
  ktry    : Nat
  /-- R303: the keyed message (KPEND); none. -/
  kmsg    : Option KeyedMsg
  /-- R304: TXQ_RP.IDX; 6 bits; 0. -/
  txIdx   : Nat
  /-- R304: TXQ_RP.SENT; 26 bits; 0. -/
  txSent  : Nat
  /-- R305: RXQ_WP.IDX; 6 bits; 0. -/
  rxIdx   : Nat
  /-- R305: RXQ_WP.LAP; 26 bits; 0. -/
  rxLap   : Nat
  deriving DecidableEq, Repr

/-- One link: working state of the scheduler and the receiver. -/
structure LinkWork where
  /-- R292, R296: good SYNC frames of the current count; at most 8; empty. -/
  syncs   : List SyncSeen
  /-- R292: m values of the echo results of ALIGN; at most 8; empty. -/
  echos   : List Int
  /-- R284, R292: consecutive bad or missing frames; count; 0. -/
  badRun  : Nat
  /-- R292: consecutive rejected echoes in UP; count; 0. -/
  rejRun  : Nat
  /-- R294: frame of the last ECHO sent; frame number; 0. -/
  lastEcho : Nat
  /-- R294: ECHO frames sent and not yet answered; frame numbers; empty. -/
  awaiting : List Nat
  /-- R300: slots to name in the next SAFE frame; 8 bits; 0. -/
  safeDue : Byte
  /-- R297: committed edges not yet sent; list; empty. -/
  edges   : List LinkEdge
  /-- R297: commands sent in this epoch, slot and T; list; empty. -/
  sent    : List (Fin 8 × Nat)
  /-- R94, R297: time of the last edge sent of each slot; 8 times; none. -/
  lastT   : Tab (Option Nat) 8
  /-- R94, R297: level last sent of each slot; 8 bits; 0. -/
  lastLvl : Byte
  /-- R280: last downstream frame transmitted, 16 bytes; none while silent. -/
  frame   : List Byte
  /-- R278: its 16 code groups of 10 bits, bit a first; list; none while silent. -/
  line    : List (BitVec 10)
  /-- R278: running disparity after that frame, true positive; 1 bit; 0. -/
  rd      : Bool
  /-- R295: DQ before its last change, and the boundary of that change; none. -/
  dqWas   : Option (Int × Nat)
  /-- R280: number of the next frame to transmit; frame number; 0. -/
  nextF   : Nat
  /-- R292: when TRAIN was entered; time; 0. -/
  trainAt : Nat
  /-- R292: TRAIN_TMO was raised in this TRAIN; 1 bit; 0. -/
  tmoDone : Bool
  deriving DecidableEq, Repr

def Link.reset : Link :=
  ⟨false, true, 0x0840, 0, .off, none, 0, 0, 0, 0, 0, 0, 0, Tab.all 0, 0, Tab.all 0, 0, 0, 0x7F, 0, 0, none,
   0, 0, 0, 0⟩
def LinkWork.reset : LinkWork :=
  ⟨[], [], 0, 0, 0, [], 0, [], [], Tab.all none, 0, [], [], false, none, 0, 0, false⟩

/-! ## Lookouts and the sounding converter -/

/-- One lookout (R328). -/
structure Lookout where
  /-- R328: LKO_CFG as written; 19 bits; 0x0004_0000. -/
  cfg    : Word
  /-- R310: LKO_DAC as written; 10 bits; 0x3FF. -/
  dac    : Word
  /-- R314: LKO_RAMP as written; 26 bits; 0. -/
  ramp   : Word
  /-- R314: LKO_RDLY as written; 16 bits; 0. -/
  rdly   : Word
  /-- R313: LKO_CFG in effect at this boundary; 19 bits; 0x0004_0000. -/
  cfgE   : Word
  /-- R313: LKO_DAC in effect at this boundary; 10 bits; 0x3FF. -/
  dacE   : Word
  /-- R313: LKO_RAMP in effect at this boundary; 26 bits; 0. -/
  rampE  : Word
  /-- R313: LKO_RDLY in effect at this boundary; 16 bits; 0. -/
  rdlyE  : Word
  /-- R310: input LKI above LKREF, in microvolts (outside the device); 0. -/
  uv     : Int
  /-- R311: raw comparator output, true tripped; 1 bit; tripped. -/
  raw    : Bool
  /-- R312: the last samples, newest first, true tripped; 7 bits; tripped. -/
  samples : List Bool
  /-- R312: STAT.FOUT, true tripped; 1 bit; 1. -/
  fout   : Bool
  /-- R315: STAT.LATCH; 1 bit; 1. -/
  latch  : Bool
  /-- R320: STAT.INBAND; 1 bit; 0. -/
  inband : Bool
  /-- R324: STAT.CHKERR; 1 bit; 0. -/
  chkerr : Bool
  /-- R317: STAT.CLRREF; 1 bit; 0. -/
  clrref : Bool
  /-- R314: STAT.RCODE; 10 bits; 0. -/
  rcode  : Nat
  /-- R316: LKO_CNT; 32 bits; 0. -/
  cnt    : Nat
  /-- R319: LKO_SAFE; 5 bits; 0. -/
  safe   : Word
  /-- R317: a host clear is attempted at this boundary; 1 bit; 0. -/
  clrHost : Bool
  /-- R317: a period clear is attempted at this boundary; 1 bit; 0. -/
  clrPer : Bool
  /-- R324: boundary of the last change of C or of the ramp settings; time; none. -/
  chgAt  : Option Nat
  deriving DecidableEq, Repr

/-- A conversion in progress (R322). -/
structure AdcConv where
  mux  : Nat
  /-- R322: hold boundary H. -/
  hold : Nat
  /-- R322: a host conversion. -/
  host : Bool
  /-- R323: the end sample of a ramped threshold. -/
  endS : Bool
  /-- R324: expected node value e at H; none where the result is not checked. -/
  e    : Option Nat
  deriving DecidableEq, Repr

/-- The sounding converter (R329). -/
structure Sounding where
  /-- R329: SND_CTL; 5 bits; 4. -/
  ctl   : Word
  /-- R326: STAT.FOVF; 1 bit; 0. -/
  fovf  : Bool
  /-- R323: STAT.SKIP; 8 bits; 0. -/
  skip  : Nat
  /-- R325: STAT.WOUT; 16 bits; 0. -/
  wout  : BitVec 16
  /-- R322: REQ.MUX; 7 bits; 0. -/
  reqMux : BitVec 7
  /-- R322: a host request waits; 1 bit; 0. -/
  reqGo : Bool
  /-- R322: REQ.DONE; 1 bit; 0. -/
  reqDone : Bool
  /-- R329: RES.VAL; 12 bits; 0. -/
  resVal : Nat
  /-- R329: RES.MUX; 7 bits; 0. -/
  resMux : Nat
  /-- R323: SND_BGEN0 to 2; 80 bits; all 1. -/
  bgen  : Tab Word 3
  /-- R326: result FIFO of (value, mux); at most 16; empty. -/
  fifo  : List (Nat × Nat)
  /-- R324: SND_CHKCNT; 32 bits; 0. -/
  chkcnt : Nat
  /-- R325: SND_WIN0 to 15; 16 x 28 bits; 0. -/
  win   : Tab Word 16
  /-- R323: SND_DATA0 to 79 (VALID and VAL); 80 x 13 bits; none valid. -/
  data  : Tab (Option Nat) 80
  /-- R322: the conversion in progress (STAT.BUSY); none. -/
  conv  : Option AdcConv
  /-- R323: next input of the background pass; 0 to 79; 0. -/
  pos   : Nat
  /-- R323: the end sample of that input is next; 1 bit; 0. -/
  endNext : Bool
  /-- R323: since when the synchronised sample waits; time; none. -/
  waitAt : Option Nat
  deriving DecidableEq, Repr

def Lookout.reset : Lookout :=
  ⟨0x0004_0000, 0x3FF, 0, 0, 0x0004_0000, 0x3FF, 0, 0, 0, true, List.replicate 7 true, true, true, false,
   false, false, 0, 0, 0, false, false, none⟩
def Sounding.reset : Sounding :=
  ⟨4, false, 0, 0, 0, false, false, 0, 0, #v[0xFFFF_FFFF, 0xFFFF_FFFF, 0xFFFF], [], 0, Tab.all 0,
   Tab.all none, none, 0, false, none⟩

/-! ## Transfer engine -/

/-- XFR_STAT.STATE (R350). -/
inductive XferSt where
  | idle | run | wreq | wkick | wtime | atend | asleep | plane | abort
  deriving DecidableEq, Repr

/-- The descriptor a transfer channel executes (R333 to R342). -/
structure XferDesc where
  /-- R334: its words as fetched. -/
  words : List DWord
  /-- R336, R337: bytes (MOVE) or elements (MOVEX) moved. -/
  moved : Nat
  /-- R347: a request has been taken for the next burst. -/
  granted : Bool
  /-- R338: the plane unit it holds. -/
  unit  : Option (Fin 2)
  /-- R338: the source block in the plane unit's buffer, reshaped once it is whole. -/
  buf   : List Byte
  /-- R338: where its destination block starts; R337: the index word of the element of a MOVEX. -/
  base  : Nat
  /-- R341: a SIGNAL that waits for its delivery boundary. -/
  signal : Bool
  /-- R336, R345: bytes left of a burst that was split. -/
  part  : Nat
  /-- R338: source bytes of a plane MOVE read into the buffer; R345: bytes moved of the element of a MOVEX. -/
  rd    : Nat
  /-- R347: the boundary before which its last burst fell. -/
  lastAt : Option Nat
  deriving DecidableEq, Repr

/-- One transfer channel (R357). -/
structure Xfer where
  /-- R355: CTL.AUTORESUME; 1 bit; 1. -/
  autoresume : Bool
  /-- R357: XFR_CFG; 10 bits; 0x27F. -/
  cfg    : Word
  /-- R350: STATE; 4 bits; IDLE. -/
  st     : XferSt
  /-- R350 (model's own): GO was written in IDLE and RUN is entered at the next boundary; 1 bit; 0. -/
  start  : Bool
  /-- R353: BELLPEND; 1 bit; 0. -/
  bell   : Bool
  /-- R357: ERR, REF, SIGREF, MARKFAIL, STFAIL; 5 bits; 0. -/
  err    : Bool
  /-- R350: REF; 1 bit; 0. -/
  ref    : Bool
  /-- R341: SIGREF; 1 bit; 0. -/
  sigref : Bool
  /-- R354: MARKFAIL; 1 bit; 0. -/
  markfail : Bool
  /-- R351: STFAIL; 1 bit; 0. -/
  stfail : Bool
  /-- R355: ABANK; 4 bits; 0. -/
  abank  : Nat
  /-- R348: KCNT; 8 bits; 0. -/
  kcnt   : Nat
  /-- R348: KDROP; 8 bits; 0. -/
  kdrop  : Nat
  /-- R350: XFR_PC; 32 bits; 0. -/
  pc     : Word
  /-- R336: XFR_SPTR; 32 bits; 0. -/
  sptr   : Word
  /-- R336: XFR_DPTR; 32 bits; 0. -/
  dptr   : Word
  /-- R351: XFR_RES; 32 bits; 0. -/
  res    : Word
  /-- R339: XFR_LC0, XFR_LC1; 2 x 32 bits; 0. -/
  lc     : Tab Word 2
  /-- R351: XFR_STADDR; 32 bits; 0. -/
  staddr : Word
  /-- R354: XFR_BADADDR; 32 bits; 0. -/
  badaddr : Word
  /-- R357: XFR_BYTES; 32 bits; 0. -/
  bytes  : Word
  /-- R333: the descriptor in execution; none. -/
  cur    : Option XferDesc
  /-- R340: machine time of a WAIT TIME; 64 bits; 0. -/
  wtime  : Nat
  /-- R338: boundary at which a channel that waits for a plane unit arrived; time; 0. -/
  arrive : Nat
  deriving DecidableEq, Repr

/-- A request line (R346). -/
structure ReqLine where
  /-- R346: KIND; 4 bits; 0. -/
  kind : BitVec 4
  /-- R346: IDX; 9 bits; 0. -/
  idx  : BitVec 9
  /-- R346: CNT; 8 bits; 0. -/
  cnt  : Nat
  deriving DecidableEq, Repr

/-- The transfer engine. -/
structure XferEng where
  ch     : Tab Xfer 32
  lines  : Tab ReqLine 96
  /-- R338: channel that holds each plane unit (GSTAT.PLBUSY); 2 units; free. -/
  plane  : Tab (Option XcNo) 2
  /-- R345: the channel of each class (0 high, 1 low) served last; 2 numbers; 31. -/
  last   : Tab Nat 2
  deriving DecidableEq, Repr

def Xfer.reset : Xfer :=
  ⟨true, 0x27F, .idle, false, false, false, false, false, false, false, 0, 0, 0, 0, 0, 0, 0, Tab.all 0, 0, 0, 0,
   none, 0, 0⟩
def XferEng.reset : XferEng := ⟨Tab.all Xfer.reset, Tab.all ⟨0, 0, 0⟩, Tab.all none, Tab.all 31⟩

/-! ## Data banks and mace -/

/-- MEM_BSTAT.STATE (R363). -/
inductive BankSt where
  | on | retention | off | waking | powering | offline
  deriving DecidableEq, Repr

/-- A spare-row mapping (R376, R380). -/
structure Spare where
  row   : Fin 256
  valid : Bool
  fused : Bool
  bad   : Bool
  deriving DecidableEq, Repr

/-- One data bank (R380). -/
structure Bank where
  /-- R364: BCTL.REQ; 2 bits; 0. -/
  req    : BitVec 2
  /-- R366: BCTL.BANK_AUTOWAKE; 1 bit; 0. -/
  autowake : Bool
  /-- R367: BCTL.OFFLINE; 1 bit; 0. -/
  offline : Bool
  /-- R363: STATE; 3 bits; ON. -/
  st     : BankSt
  /-- R364: PEND; 1 bit; 0. -/
  pend   : Bool
  /-- R364: boundary of service of the pending request; time; 0. -/
  pendAt : Nat
  /-- R364: REF; 1 bit; 0. -/
  ref    : Bool
  /-- R376: UNREP; 1 bit; 0. -/
  unrep  : Bool
  /-- R376, R380: MEM_REPAIR; 2 spares; unmapped. -/
  spares : Tab Spare 2
  /-- R370: MRES.FROW; 8 bits; 0. -/
  frow   : Nat
  /-- R370: MRES.NFAIL; 8 bits; 0. -/
  nfail  : Nat
  /-- R375: MRES.SKIP; 1 bit; 0. -/
  skip   : Bool
  /-- R375: MRES.INTR; 1 bit; 0. -/
  intr   : Bool
  /-- R374: MRES.LOSS; 1 bit; 0. -/
  loss   : Bool
  /-- R380: MRES.VALID; 1 bit; 0. -/
  valid  : Bool
  deriving DecidableEq, Repr

/-- MEM_MSTAT.STATE (R380). -/
inductive MaceSt where
  | idle | run | paused
  deriving DecidableEq, Repr

/-- The banks, the collision registers and the mace (R380). -/
structure MemBlk where
  bank   : Tab Bank 16
  /-- R362: COLL.WW; 16 bits; 0. -/
  ww     : Nat
  /-- R362: COLL.RW; 16 bits; 0. -/
  rw'    : Nat
  /-- R362: COLLADDR; 21 bits; 0. -/
  collAddr : Nat
  /-- R361, R362 (model's own): word addresses read and written through port A in this base period; lists; empty. -/
  portA  : List (Nat × Bool)
  /-- R361, R362 (model's own): word addresses read and written through port B in this base period; lists; empty. -/
  portB  : List (Nat × Bool)
  /-- R360, R361 (model's own): byte addresses written through port B in this base period, each with its master's class of R360; list; empty. -/
  bytesB : List (Nat × Nat)
  /-- R380: MEM_MCTL (ALG, MODE, BG, LIVEREP, BANKS); 32 bits; 0. -/
  mctl   : Word
  /-- R380: MSTAT.STATE; 2 bits; IDLE. -/
  mst    : MaceSt
  /-- R380: MSTAT.ERR; 1 bit; 0. -/
  merr   : Bool
  /-- R375: MSTAT.TPAUSE; 1 bit; 0. -/
  tpause : Bool
  /-- R372: MSTAT.BANK; 4 bits; 0. -/
  mbank  : Nat
  /-- R372: MSTAT.ROW; 8 bits; 0. -/
  mrow   : Nat
  /-- R372: MSTAT.BORROW; 1 bit; 0. -/
  borrow : Bool
  /-- R374: MSTAT.LROW; 8 bits; 0. -/
  lrow   : Nat
  /-- R371: a destructive run is under way; 1 bit; 0. -/
  destr  : Bool
  /-- R368, R380: the fields of MEM_MCTL that the run under way was started with; 32 bits; 0. -/
  run    : Word
  /-- R375: an ABORT waits for the window boundary; 1 bit; 0. -/
  stop   : Bool
  /-- R372: the borrowed row's own cells, while the save buffer serves the row's addresses (its words then stand in `Ram.bank`); 64 words of 64 bits; 0. -/
  cells  : Tab DWord 64
  deriving DecidableEq, Repr

def Spare.none : Spare := ⟨0, false, false, false⟩
def Bank.reset : Bank :=
  ⟨0, false, false, .on, false, 0, false, false, Tab.all Spare.none, 0, 0, false, false, false, false⟩
def MemBlk.reset : MemBlk :=
  ⟨Tab.all Bank.reset, 0, 0, 0, [], [], [], 0, .idle, false, false, 0, 0, false, 0, false, 0, false, Tab.all 0⟩

/-! ## Almanac tables -/

/-- MEM_ASTAT.STATE (R232). -/
inductive SwSt where
  | idle | check | pend | drain
  deriving DecidableEq, Repr

/-- One almanac table descriptor (R219, R232). -/
structure ATable where
  /-- R219: DEF; 1 bit; 0. -/
  defd   : Bool
  /-- R219: KIND, true time-keyed; 1 bit; 0. -/
  time   : Bool
  /-- R219: AXIS; 6 bits; 0. -/
  ax     : Axis
  /-- R219: LIVE_BASE; 14 bits; 0. -/
  lbase  : Nat
  /-- R219: LIVE_LEN; 15 bits; 0. -/
  llen   : Nat
  /-- R219: SHD_BASE; 14 bits; 0. -/
  sbase  : Nat
  /-- R219: SHD_LEN; 15 bits; 0. -/
  slen   : Nat
  /-- R227: ASW.ATMODE; 2 bits; 0. -/
  atmode : BitVec 2
  /-- R228: ASW.SWAXIS; 6 bits; 0. -/
  swax   : Axis
  /-- R227: ASW.LEAD; 11 bits; 0x40. -/
  lead   : BitVec 11
  /-- R227: MEM_ASW_AT_LO; 32 bits; 0. -/
  atLo   : Word
  /-- R227: MEM_ASW_AT_HI; 32 bits; 0. -/
  atHi   : Word
  /-- R226: STATE; 2 bits; IDLE. -/
  st     : SwSt
  /-- R230: REF; 1 bit; 0. -/
  ref    : Bool
  /-- R226: ERR; 1 bit; 0. -/
  err    : Bool
  /-- R226: ECODE; 4 bits; 0. -/
  ecode  : Nat
  /-- R226: EIDX; 14 bits; 0. -/
  eidx   : Nat
  /-- R229: AGEN; 32 bits; 0. -/
  gen    : BitVec 32
  /-- R229, R232: boundary of the last switch, what MEM_ASWT reads outside PEND; 64 bits; 0. -/
  swt    : Nat
  /-- R232: MEM_ASWT_HI latch; 32 bits; 0. -/
  swtHi  : Word
  /-- R228: extended target Q of ATMODE POS in 2^-16 counts; none. -/
  q      : Option Int
  /-- R227: boundary C at which CHECK passed; time; 0. -/
  passAt : Nat
  /-- R229, R230: extent that drains, base and length, and the boundary from which it drains; none. -/
  drain  : Option (Nat × Nat × Nat)
  /-- R230: an undefinition that takes effect at the next boundary; 1 bit; 0. -/
  undef  : Bool
  deriving DecidableEq, Repr

def ATable.reset : ATable :=
  ⟨false, false, 0, 0, 0, 0, 0, 0, 0, 0x40, 0, 0, .idle, false, false, 0, 0, 0, 0, 0, none, 0, none, false⟩

/-! ## Event controller -/

/-- A cause (R382). -/
structure Cause where
  kind   : Byte
  detail : BitVec 16
  stamp  : Nat
  /-- R382 (model's own): boundary at which it was raised; time. -/
  at'    : Nat
  /-- R382 (model's own): step of R144 in which it was raised, 7 for work after step 6; 1 to 7. -/
  step   : Nat
  deriving DecidableEq, Repr

/-- One event source (R383 to R387, R397). -/
structure Source where
  /-- R164, R382: RCNT; 16 bits; 0. -/
  rcnt  : BitVec 16
  /-- R383: queued causes, oldest first; at most 4; empty. -/
  q     : List Cause
  /-- R383: drop count; 8 bits; 0. -/
  drop  : Nat
  /-- R383: boundary of the first drop; time; 0. -/
  dropAt : Nat
  /-- R383: an OVERFLOW record is due; 1 bit; 0. -/
  ovf   : Bool
  /-- R384: CLAIM; 1 bit; 0. -/
  claim : Bool
  /-- R384: latched newest cause; none. -/
  latch : Option Cause
  /-- R384: kind and detail of the previous record; none. -/
  prev  : Option (Byte × BitVec 16)
  /-- R386: outstanding software set, detail and stamp; none. -/
  soft  : Option (BitVec 16 × Nat)
  /-- R385: level at the last boundary; 1 bit; 0. -/
  level : Bool
  deriving DecidableEq, Repr

/-- A record (R390). -/
structure Rec where
  seq    : Word
  source : Nat
  kind   : Byte
  detail : BitVec 16
  stamp  : Nat
  /-- R391: the byte address of its slot. -/
  addr   : Nat
  /-- R392: reserved before the ring was enabled anew, so that it counts in no pointer. -/
  stale  : Bool
  deriving DecidableEq, Repr

/-- The EVC block (R397). -/
structure Evc where
  /-- R391: RCFG.SIZE; 4 bits; 6. -/
  size   : BitVec 4
  /-- R391: RCFG.LAYOUT, true PAIR; 1 bit; 0. -/
  layout : Bool
  /-- R392: RCFG.EN; 1 bit; 0. -/
  en     : Bool
  /-- R391: RBASE; 21 bits; 0. -/
  rbase  : Word
  /-- R393: STAT.FULL; 1 bit; 0. -/
  full   : Bool
  /-- R392: STAT.CFGREF; 1 bit; 0. -/
  cfgref : Bool
  /-- R395: STAT.RPREF; 1 bit; 0. -/
  rpref  : Bool
  /-- R393: WP; 32 bits; 0. -/
  wp     : Word
  /-- R395: RP; 32 bits; 0. -/
  rp     : Word
  /-- R388: RSV; 32 bits; 0. -/
  rsv    : Word
  /-- R397: DROPS; 32 bits; 0. -/
  drops  : Nat
  /-- R389: MASK0 to 7; 256 bits; all 1. -/
  mask   : Tab Word 8
  /-- R387: MODE0 to 7; 256 bits; 0. -/
  mode   : Tab Word 8
  src    : Tab Source 256
  /-- R393: records reserved and not yet written; list; empty. -/
  due    : List Rec
  /-- R389: an EVC_MASK write that has not completed; 1 bit; 0. -/
  maskWait : Bool
  /-- R396: EVT_N, true low; 1 bit; high. -/
  evtLow : Bool
  deriving DecidableEq, Repr

def Source.reset : Source := ⟨0, [], 0, 0, false, false, none, none, none, false⟩
def Evc.reset : Evc :=
  ⟨6, false, false, 0, false, false, false, 0, 0, 0, 0, Tab.all 0xFFFF_FFFF, Tab.all 0, Tab.all Source.reset,
   [], false, false⟩

/-! ## Host port, keys, debug port -/

/-- The fuses (R418, R422): kept through every reset. -/
structure Fuses where
  /-- R418: CKEY slots; 4 x 128 bits; unprogrammed. -/
  ckey   : Tab (Option (BitVec 128)) 4
  /-- R418: DKEY slots; 4 x 128 bits; unprogrammed. -/
  dkey   : Tab (Option (BitVec 128)) 4
  /-- R418: IKEY slots; 2 x 128 bits; unprogrammed. -/
  ikey   : Tab (Option (BitVec 128)) 2
  /-- R418: PKH slots; 2 x 256 bits; unprogrammed. -/
  pkh    : Tab (Option (BitVec 256)) 2
  /-- R422: slots that failed their check at the last read; list; none. -/
  bad    : List FuseCheck
  /-- R418: SVNMIN; 0 to 64; 0. -/
  svnmin : Nat
  /-- R422: slots whose burn power loss cut off, so that their check value fails; list; none. -/
  cut    : List FuseCheck
  /-- R422, R423: the three copies of PROV; 3 bits; 0. -/
  provC  : BitVec 3
  /-- R422, R424: the three copies of DBG_CLOSE; 3 bits; 0. -/
  closeC : BitVec 3
  /-- R422, R424: the three copies of DBG_PERM; 3 bits; 0. -/
  permC  : BitVec 3
  /-- R419, R422: the thermometer of CKSLOT, three copies of each bit; 3 x 3 bits; 0. -/
  ckT    : Tab (BitVec 3) 3
  /-- R419, R422: the thermometer of DKSLOT; 3 x 3 bits; 0. -/
  dkT    : Tab (BitVec 3) 3
  /-- R419, R422: the thermometer of IKSLOT; 1 x 3 bits; 0. -/
  ikT    : Tab (BitVec 3) 1
  /-- R418: UFUSE0 to 7; 8 x 32 bits; 0. -/
  ufuse  : Tab Word 8
  /-- R378: fused repair mappings of each bank, spare and row; lists; none. -/
  repair : Tab (List (Fin 2 × Fin 256)) 16
  /-- R410: DUID; 64 bits; 0. -/
  duid   : DWord
  deriving DecidableEq, Repr

/-- A host access that the port has received and not yet served (R402, R405). -/
inductive HostAcc where
  /-- R402: a posted write. -/
  | write (addr data : Word)
  /-- R401: a read of a READ burst; `sent` is false once the host has ended the burst. -/
  | read (addr : Word) (sent : Bool)
  /-- R404: a started parallel read. -/
  | start (addr : Word)
  deriving DecidableEq, Repr

/-- The HPS block: host access (R429). -/
structure Hps where
  /-- R398: STAT.PORT, true parallel; 1 bit; the strap. -/
  par    : Bool
  /-- R406: STAT.BERR; 1 bit; 0. -/
  berr   : Bool
  /-- R402: STAT.WOVF; 1 bit; 0. -/
  wovf   : Bool
  /-- R400: STAT.PROTO; 1 bit; 0. -/
  proto  : Bool
  /-- R414: STAT.CMDREF; 1 bit; 0. -/
  cmdref : Bool
  /-- R406: HPS_BERR (CAUSE, WRITE); 4 bits; 0. -/
  berrInfo : Word
  /-- R406: HPS_BERRADDR; 32 bits; 0. -/
  berrAddr : Word
  /-- R402, R405: accesses received and not yet served, oldest first; at most 16 of them posted writes; empty. -/
  q      : List HostAcc
  /-- R405, R407: boundary since which the access at the head is held; time; none. -/
  heldAt : Option Nat
  /-- R401: words returned to the host: status byte and word, oldest first; list; empty. -/
  rdOut  : List (Byte × Word)
  /-- R402: last RDSR byte returned; 8 bits; 0. -/
  rdsr   : Byte
  /-- R403: PADDR; 32 bits; 0. -/
  paddr  : Word
  /-- R403: low half of a parallel write; 16 bits; 0. -/
  pwlo   : BitVec 16
  /-- R403: PCTL (AINC, PREF); 2 bits; 3. -/
  pctl   : BitVec 2
  /-- R404: latched read data; 32 bits; 0. -/
  prd    : Word
  /-- R404: PSTAT.RDY; 1 bit; 0. -/
  rdy    : Bool
  /-- R404: PSTAT.RERR; 1 bit; 0. -/
  rerr   : Bool
  /-- R403: data last returned on HPD; 16 bits; 0. -/
  hpd    : BitVec 16
  /-- R408: HPS_DPTR; 32 bits; 0. -/
  dptr   : Word
  /-- R408: HPS_DCTL.WIDTH; 1 bit; 0. -/
  width  : Bool
  /-- R408: half count of a 64-bit unit: direction (true read) and latched half; none. -/
  half   : Option (Bool × Word)
  /-- R405: the word the last register or memory read returned to the host; 32 bits; 0. -/
  dout   : Word
  deriving DecidableEq, Repr

/-- The HPS block: keyed commands (R409 to R421). -/
structure Keyed where
  /-- R413: the boundary at which the GO of the block in process was serviced; time; 0. -/
  goAt   : Nat
  /-- R409: HPS_CMDBUF0 to 15; 16 x 32 bits; 0. -/
  buf    : Tab Word 16
  /-- R414: CMDSTAT.BUSY, the block in process; none. -/
  job    : Option (Tab Word 16)
  /-- R414: CMDSTAT.DONE; 1 bit; 0. -/
  done   : Bool
  /-- R411: CMDSTAT.RESULT; 4 bits; 0. -/
  result : Nat
  /-- R429: CMDSTAT.OPC; 8 bits; 0. -/
  opc    : Nat
  /-- R411: CMDSTAT.LOCK, the time at which the lockout ends; none. -/
  lockEnd : Option Nat
  /-- R411: CMDSTAT.BADMAC; 4 bits; 0. -/
  badmac : Nat
  /-- R421: NONCE; 128 bits; 0 until the FUSE phase draws one. -/
  nonce  : BitVec 128
  deriving DecidableEq, Repr

/-- A BUSACC access that R407 holds (R425). -/
structure BusJob where
  addr : Word
  /-- Data of a write; none for a read. -/
  data : Option Word
  /-- R407: boundary since which it is held. -/
  at'  : Nat
  deriving DecidableEq, Repr

/-- The debug port (R424 to R430). -/
structure Dbg where
  /-- R426: an accepted response since reset (OPENED); 1 bit; 0. -/
  opened : Bool
  /-- R426: TRIES; 4 bits; 0. -/
  tries  : Nat
  /-- R426: EXHAUSTED; 1 bit; 0. -/
  exhausted : Bool
  /-- R427: EXTEST; 1 bit; 0. -/
  extest : Bool
  /-- R425: instruction register; 8 bits; 0xFF (BYPASS). -/
  ir     : Byte
  /-- R425: boundary-scan register; list of bits; empty. -/
  bsr    : List Bool
  /-- R425: the levels that SAMPLE last captured, TP0 first; list of bits; empty. -/
  sample : List Bool
  /-- R425: data register as captured for TDO; 128 bits; 0. -/
  dr     : BitVec 128
  /-- R425, R407: a BUSACC access that waits for its bank; none. -/
  acc    : Option BusJob
  deriving DecidableEq, Repr

def Fuses.reset : Fuses :=
  ⟨Tab.all none, Tab.all none, Tab.all none, Tab.all none, [], 0, [], 0, 0, 0, Tab.all 0, Tab.all 0, Tab.all 0, Tab.all 0,
   Tab.all [], 0⟩
def Hps.reset : Hps :=
  ⟨false, false, false, false, false, 0, 0, [], none, [], 0, 0, 0, 3, 0, false, false, 0, 0, false, none, 0⟩
def Keyed.reset : Keyed := ⟨0, Tab.all 0, none, false, 0, 0, none, 0, 0⟩
def Dbg.reset : Dbg := ⟨false, 0, false, false, 0xFF, [], [], 0, none⟩

/-! ## Power and thermal -/

/-- PWR_STAT.PHASE (R436). -/
inductive Phase where
  | pll | fuse | test | clear | load | ready
  deriving DecidableEq, Repr

/-- PWR_DSTAT of a domain (R432). -/
inductive DomSt where
  | off | powering | on
  deriving DecidableEq, Repr

/-- The PWR block (R450). -/
structure Pwr where
  /-- R436: PHASE; 3 bits; PLL. -/
  phase   : Phase
  /-- R440: ARMED; 1 bit; 0. -/
  armed   : Bool
  /-- R439: PERMIT; 1 bit; 0. -/
  permit  : Bool
  /-- R437: RUNGATE; 1 bit; 0. -/
  gate    : Bool
  /-- R434: VCORE_OK; 1 bit; 0. -/
  vcoreOk : Bool
  /-- R434: VAUX_OK; 1 bit; 0. -/
  vauxOk  : Bool
  /-- R434: VIO_OK; 8 bits; 0. -/
  vioOk   : Byte
  /-- R434: VIO_33; 8 bits; 0. -/
  vio33   : Byte
  /-- R434 (model's own): VCORE lies in its window (outside the device); 1 bit; 1. -/
  vcoreIn : Bool
  /-- R434 (model's own): VAUX lies in its window (outside the device); 1 bit; 1. -/
  vauxIn  : Bool
  /-- R434, R471 (model's own): bit k: VIOk lies in its window (outside the device); 8 bits; all 1. -/
  vioIn   : Byte
  /-- R433, R435 (model's own): what holds the device in reset: PORST_N low, RST_N low, VCORE low, VAUX low; 4 bits; 0. -/
  hold    : BitVec 4
  /-- R435: PWR_RSTCAUSE; 4 bits; 1. -/
  rstcause : BitVec 4
  /-- R442: HFAULT.BITS; 6 bits; 0. -/
  hfault  : BitVec 6
  /-- R442: HFAULT.FIRST; 10 bits; 0. -/
  first   : Nat
  /-- R442 (model's own): lookouts that raised bit 1 since it was last clear; 32 bits; 0. -/
  lkoSet  : Word
  /-- R442 (model's own): pin banks whose loss raised bit 5 since it was last clear; 8 bits; 0. -/
  ioLost  : Byte
  /-- R432: PWR_DCTL; 3 bits; 7. -/
  dctl    : BitVec 3
  /-- R432: PWR_DSTAT.ALM; 2 bits; ON. -/
  alm     : DomSt
  /-- R432: PWR_DSTAT.LINK; 2 bits; ON. -/
  link    : DomSt
  /-- R432: PWR_DSTAT.ANA; 2 bits; ON. -/
  ana     : DomSt
  /-- R432: PWR_DSTAT.REF; 1 bit; 0. -/
  dref    : Bool
  deriving DecidableEq, Repr

/-- The thermal governor (R444 to R448). -/
structure Thermal where
  /-- R444: TSTAT.TJ in 1/8 degree; 12 bits signed; 0. -/
  tj      : Int
  /-- R445: STAGE; 3 bits; 0. -/
  stage   : Nat
  /-- R445: PACE; 4 bits; 0. -/
  pace    : Nat
  /-- R447: CAUTION; 1 bit; 0. -/
  caution : Bool
  /-- R447: LIMIT; 1 bit; 0. -/
  limit   : Bool
  /-- R444: SFAIL; 1 bit; 0. -/
  sfail   : Bool
  /-- R450: PWR_TCFG; 24 bits; 0x0081_8370. -/
  tcfg    : Word
  /-- R444: TPWR.P in mW; 16 bits; 0. -/
  p       : Nat
  /-- R446: TPWR.PHOLD in mW; 16 bits; 0x1770. -/
  phold   : Nat
  /-- R450: TMAX in 1/8 degree; 12 bits signed; 0 until the first evaluation. -/
  tmax    : Option Int
  /-- R450: TTIME in evaluations of 10 us at stage 1 or above; 32 bits of ms; 0. -/
  ttime   : Nat
  /-- R446: time of the governor's previous change; 64 bits; 0. -/
  chgAt   : Nat
  deriving DecidableEq, Repr

def Pwr.reset : Pwr :=
  ⟨.pll, false, false, false, false, false, 0, 0, true, true, 0xFF, 0, 1, 0, 0, 0, 0, 7, .on, .on, .on, false⟩
def Thermal.reset : Thermal := ⟨0, 0, 0, false, false, false, 0x0081_8370, 0, 0x1770, none, 0, 0⟩

/-! ## The whole -/

/-- An output action of a clove engine that has yet to enter its channel's queue (R263). -/
structure CloveOut where
  n   : CloveNo
  k   : Fin 8
  ch  : Chan
  lvl : Bool
  t   : Nat
  deriving DecidableEq, Repr

/-- What has been done at the present boundary, of the things the device does a limited number of times at each. -/
structure Turn where
  /-- R235 (model's own): requests dispatched at this boundary; 0 to 4; 0. -/
  disp : Nat
  /-- R242 (model's own): a service has been preempted at this boundary; 1 bit; 0. -/
  pre  : Bool
  /-- R388 (model's own): a record has been reserved at this boundary; 1 bit; 0. -/
  rsv  : Bool
  /-- R270 (model's own): the clove engines that have acted at this boundary; 32 bits; 0. -/
  clv  : Word
  /-- R270 (model's own): the engines whose RX FIFO was empty before a POST of this boundary; 32 bits; 0. -/
  post : Word
  /-- R263, R270 (model's own): output actions that enter their queues in step 4 of this boundary; list; empty. -/
  outs : List CloveOut
  /-- R221 (model's own): almanac words written in this base period, with the rank of the writer; list; empty. -/
  almw : List (Nat × Nat)
  /-- R405 (model's own): a host write has been serviced at this boundary; 1 bit; 0. -/
  wrote : Bool
  deriving DecidableEq, Repr

def Turn.reset : Turn := ⟨0, false, false, 0, 0, [], [], false⟩

/-- Every block but the memories and the clock. -/
structure Device where
  keel  : Keel
  fuses : Fuses
  stb   : Stb
  port  : TimePort
  axs   : Tab AxisSt 64
  dr    : DrUnit
  chn   : Tab Channel 512
  sys   : SysBlk
  hlm   : Helm
  clv   : Tab Clove 32
  glk   : Tab Link 32
  glw   : Tab LinkWork 32
  lko   : Tab Lookout 32
  snd   : Sounding
  xfr   : XferEng
  mem   : MemBlk
  alm   : Tab ATable 64
  evc   : Evc
  hps   : Hps
  key   : Keyed
  dbg   : Dbg
  pwr   : Pwr
  thm   : Thermal
  turn  : Turn
  /-- (model's own) how many free values have been taken; count; 0 (DESIGN CHOICE; no statement rests on it). -/
  free  : Nat
  deriving DecidableEq, Repr

def Device.reset : Device :=
  { keel := Keel.powerOn, fuses := Fuses.reset, stb := Stb.reset, port := TimePort.reset
    axs := Tab.all AxisSt.reset, dr := ⟨[], false⟩, chn := Tab.all Channel.reset, sys := SysBlk.reset
    hlm := Helm.reset, clv := Tab.all Clove.reset, glk := Tab.all Link.reset, glw := Tab.all LinkWork.reset
    lko := Tab.all Lookout.reset, snd := Sounding.reset, xfr := XferEng.reset, mem := MemBlk.reset
    alm := Tab.all ATable.reset, evc := Evc.reset, hps := Hps.reset, key := Keyed.reset, dbg := Dbg.reset
    pwr := Pwr.reset, thm := Thermal.reset, turn := Turn.reset, free := 0 }

/-- The memories and the blocks. -/
structure Core where
  ram : Ram
  dev : Device
  deriving DecidableEq, Repr

/-- The state of the block and the commands that wait. -/
structure State where
  /-- R30: machine time, the boundary at which the device now stands; 64 bits; 0. -/
  mt      : Nat
  core    : Core
  /-- The commands that wait, first in, first out; none. -/
  pending : List Instr
  deriving DecidableEq, Repr

/-- The block right after a cold reset with a keel power-on. -/
def State.reset : State := ⟨0, ⟨Ram.reset, Device.reset⟩, []⟩

end Sys2Proof.Machine
end

