-- ==== Sys2Proof/Machine/Ops.lean ====
section
/-! DEFINITION. The named operations over numbers, tables, memories and blocks that every meaning uses. -/

namespace Sys2Proof.Machine

open Sys2Proof

/-! ## Numbers -/

/-- `2^64`, the modulus of machine time (R4). -/
def two64 : Nat := 18446744073709551616

/-- R4: a time later by `n` ticks. -/
def addT (t n : Nat) : Nat := (t + n) % two64

/-- R4: time `now` is at or after time `t`, as two times within 2^63 tk of each other are ordered. -/
def due (t now : Nat) : Bool := decide ((now + two64 - t % two64) % two64 < 9223372036854775808)

/-- Bits `[hi:lo]` of a word, as a number. -/
def fld {n : Nat} (w : BitVec n) (hi lo : Nat) : Nat := (w.toNat >>> lo) % 2 ^ (hi + 1 - lo)

/-- Bit `i` of a word. -/
def bitOf {n : Nat} (w : BitVec n) (i : Nat) : Bool := w.getLsbD i

/-- A word with bits `[hi:lo]` replaced. -/
def setFld {n : Nat} (w : BitVec n) (hi lo v : Nat) : BitVec n :=
  let m : BitVec n := BitVec.ofNat n ((2 ^ (hi + 1 - lo) - 1) <<< lo)
  (w &&& ~~~ m) ||| (BitVec.ofNat n (v <<< lo) &&& m)

/-- Bits of `old` outside `m`, of `new` inside it. -/
def mergeBits {n : Nat} (m old new : BitVec n) : BitVec n := (old &&& ~~~ m) ||| (new &&& m)

/-- The two's complement value of the low `n` bits of `v`. -/
def signedOf (n v : Nat) : Int :=
  let r := v % 2 ^ n
  if r < 2 ^ (n - 1) then (r : Int) else (r : Int) - (2 ^ n : Nat)

/-- The low `n` bits of an integer. -/
def lowBits (n : Nat) (i : Int) : Nat := (i % ((2 ^ n : Nat) : Int)).toNat

/-- The value brought into a signed `n`-bit field by saturation (R491). -/
def satS (n : Nat) (i : Int) : Int :=
  let m : Int := ((2 ^ (n - 1) : Nat) : Int)
  if i < -m then -m else if m ≤ i then m - 1 else i

/-- The value wrapped into a signed `n`-bit field. -/
def wrapS (n : Nat) (i : Int) : Int := signedOf n (lowBits n i)

/-- A count that saturates at the top of its `n`-bit field. -/
def satInc (n v : Nat) : Nat := if v + 1 < 2 ^ n then v + 1 else 2 ^ n - 1

/-- R491: `num / den` (with `den > 0`) rounded to the nearest integer, ties toward +∞. -/
def rnd (num : Int) (den : Nat) : Int := Int.fdiv (2 * num + den) (2 * den)

/-- A word from a number. -/
def w32 (n : Nat) : Word := BitVec.ofNat 32 n

/-- A word from an integer, two's complement. -/
def w32i (i : Int) : Word := BitVec.ofNat 32 (lowBits 32 i)

/-- Low and high half of a 64-bit number. -/
def lo32 (n : Nat) : Word := BitVec.ofNat 32 n
def hi32 (n : Nat) : Word := BitVec.ofNat 32 (n / 4294967296)

/-- Two words joined. -/
def join64 (lo hi : Word) : Nat := lo.toNat + 4294967296 * hi.toNat

/-- The boundary at or before a time (R4). -/
def floor32 (t : Nat) : Nat := t / 32 * 32

/-- The boundary at or after a time (R4). -/
def ceil32 (t : Nat) : Nat := (t + 31) / 32 * 32

/-- Digit by digit square root: the largest `r` below `2^k` (times `r0`) with `r * r ≤ n`. -/
def isqrtGo (n : Nat) : Nat → Nat → Nat
  | 0, r => r
  | k + 1, r =>
    let c := r + 2 ^ k
    isqrtGo n k (if c * c ≤ n then c else r)

/-- The integer square root of `n < 4^128`. -/
def isqrt (n : Nat) : Nat := isqrtGo n 128 0

/-! ## Tables and lists -/

/-- Apply `f` for the numbers below `k`, lowest first. -/
def forUpTo {σ : Type} {n : Nat} (f : Fin n → σ → σ) : (k : Nat) → k ≤ n → σ → σ
  | 0, _, s => s
  | k + 1, h, s => f ⟨k, h⟩ (forUpTo f k (Nat.le_of_succ_le h) s)

/-- Apply `f` for every number below `n`, lowest first. -/
def forAll {σ : Type} {n : Nat} (f : Fin n → σ → σ) (s : σ) : σ := forUpTo f n (Nat.le_refl n) s

/-- The numbers below `k` put before `acc`, ascending. -/
def finsUpTo {n : Nat} : (k : Nat) → k ≤ n → List (Fin n) → List (Fin n)
  | 0, _, acc => acc
  | k + 1, h, acc => finsUpTo k (Nat.le_of_succ_le h) (⟨k, h⟩ :: acc)

/-- The numbers below `n`, ascending. -/
def fins (n : Nat) : List (Fin n) := finsUpTo n (Nat.le_refl n) []

/-- The numbers below `k`, ascending. -/
def natsUpTo : Nat → List Nat → List Nat
  | 0, acc => acc
  | k + 1, acc => natsUpTo k (k :: acc)

/-- The numbers below `n`, ascending. -/
def nats (n : Nat) : List Nat := natsUpTo n []

/-- The first entry whose key `k` is least (`none` of an empty list). -/
def leastBy {α : Type} (k : α → Nat) : List α → Option α
  | [] => none
  | a :: l =>
    match leastBy k l with
    | none => some a
    | some b => if k b < k a then some b else some a

/-- Insert before the first entry that `later` says comes after. -/
def insertBefore {α : Type} (later : α → Bool) (a : α) : List α → List α
  | [] => [a]
  | b :: l => if later b then a :: b :: l else b :: insertBefore later a l

/-- The list with entry `i` changed. -/
def modifyNth {α : Type} (f : α → α) : Nat → List α → List α
  | _, [] => []
  | 0, a :: l => f a :: l
  | i + 1, a :: l => a :: modifyNth f i l

/-- The list without its first entry that meets `p`. -/
def dropFirst {α : Type} (p : α → Bool) : List α → List α
  | [] => []
  | a :: l => if p a then l else a :: dropFirst p l

/-! ## Memories -/

/-- The byte at `a`: listed, or what an unlisted address reads as. -/
def Memory.read (dflt : Nat → Byte) : List Host.Cell → Nat → Byte
  | [], a => dflt a
  | (k, b) :: m, a => if a = k then b else Memory.read dflt m a

/-- The memory with byte `v` at `a`, in canonical form. -/
def Memory.write (dflt : Nat → Byte) (a : Nat) (v : Byte) : List Host.Cell → List Host.Cell
  | [] => if v = dflt a then [] else [(a, v)]
  | (k, b) :: m =>
    if a < k then (if v = dflt a then (k, b) :: m else (a, v) :: (k, b) :: m)
    else if a = k then (if v = dflt a then m else (a, v) :: m)
    else (k, b) :: Memory.write dflt a v m

/-- Canonical form from address `lo` on: addresses strictly rising and below `size`, and no entry equal
to what an unlisted address reads as. -/
def Memory.wfFrom (dflt : Nat → Byte) (size : Nat) : Nat → List Host.Cell → Prop
  | _, [] => True
  | lo, (k, b) :: m => lo ≤ k ∧ k < size ∧ b ≠ dflt k ∧ Memory.wfFrom dflt size (k + 1) m

/-- Canonical form. -/
abbrev Memory.wf (dflt : Nat → Byte) (size : Nat) (m : List Host.Cell) : Prop := Memory.wfFrom dflt size 0 m

/-- What an unlisted byte of a memory that is cleared reads as. -/
def zeroByte (_ : Nat) : Byte := 0

/-- `n` bytes from `a`, first byte least significant (R330). -/
def Memory.readN (dflt : Nat → Byte) (m : List Host.Cell) : Nat → Nat → Nat
  | 0, _ => 0
  | n + 1, a => (Memory.read dflt m a).toNat + 256 * Memory.readN dflt m n (a + 1)

/-- The low `n` bytes of `v` from `a`, least significant first (R330). -/
def Memory.writeN (dflt : Nat → Byte) : Nat → Nat → Nat → List Host.Cell → List Host.Cell
  | 0, _, _, m => m
  | n + 1, a, v, m => Memory.writeN dflt n (a + 1) (v / 256) (Memory.write dflt a (BitVec.ofNat 8 v) m)

/-- The bank that holds a byte address: word `w` lies in bank `w mod 16` (R24). -/
def bankOf (a : Nat) : BankNo := Fin.ofNat 16 (a / 8)

/-- What an unlisted byte of the data banks reads as: 0 from reset (log entry 4), and a free value once
the bank's contents became undefined. -/
def Ram.bankDflt (gen : Tab Nat 16) (a : Nat) : Byte :=
  if gen.at (bankOf a) = 0 then 0 else Config.lostByte (gen.at (bankOf a)) a

/-- What an unlisted byte of the almanac reads as: 0 once it was cleared (an even count), a free value once its
contents became undefined (an odd one). -/
def Ram.almDflt (gen : Nat) (a : Nat) : Byte := if gen % 2 = 0 then 0 else Config.lostAlm gen a

/-- The sizes of the memories, in bytes (R3, R472). -/
def bankSize : Nat := 2097152
def almSize : Nat := 262144
def progSize : Nat := 131072
def storeSize : Nat := 98304
def lutSize : Nat := 65536
def lbufSize : Nat := 65536

/-- Every memory is in canonical form. -/
def Ram.wf (r : Ram) : Prop :=
  Memory.wf (Ram.bankDflt r.bankGen) bankSize r.bank ∧ Memory.wf (Ram.almDflt r.almGen) almSize r.alm ∧
  Memory.wf zeroByte progSize r.prog ∧ Memory.wf zeroByte storeSize r.store ∧
  Memory.wf zeroByte lutSize r.lut ∧ Memory.wf zeroByte lbufSize r.lbuf

/-- `n` bytes of the data banks. -/
def Ram.bankRead (r : Ram) (n a : Nat) : Nat := Memory.readN (Ram.bankDflt r.bankGen) r.bank n a
def Ram.almRead (r : Ram) (n a : Nat) : Nat := Memory.readN (Ram.almDflt r.almGen) r.alm n a
def Ram.progRead (r : Ram) (n a : Nat) : Nat := Memory.readN zeroByte r.prog n a
def Ram.storeRead (r : Ram) (n a : Nat) : Nat := Memory.readN zeroByte r.store n a
def Ram.lutRead (r : Ram) (n a : Nat) : Nat := Memory.readN zeroByte r.lut n a
def Ram.lbufRead (r : Ram) (n a : Nat) : Nat := Memory.readN zeroByte r.lbuf n a

/-- Writes of `n` bytes; one that does not lie inside the memory changes nothing. -/
def Ram.bankWrite (n a v : Nat) (r : Ram) : Ram :=
  if a + n ≤ bankSize then { r with bank := Memory.writeN (Ram.bankDflt r.bankGen) n a v r.bank } else r
def Ram.almWrite (n a v : Nat) (r : Ram) : Ram :=
  if a + n ≤ almSize then { r with alm := Memory.writeN (Ram.almDflt r.almGen) n a v r.alm } else r
def Ram.progWrite (n a v : Nat) (r : Ram) : Ram :=
  if a + n ≤ progSize then { r with prog := Memory.writeN zeroByte n a v r.prog } else r
def Ram.storeWrite (n a v : Nat) (r : Ram) : Ram :=
  if a + n ≤ storeSize then { r with store := Memory.writeN zeroByte n a v r.store } else r
def Ram.lutWrite (n a v : Nat) (r : Ram) : Ram :=
  if a + n ≤ lutSize then { r with lut := Memory.writeN zeroByte n a v r.lut } else r
def Ram.lbufWrite (n a v : Nat) (r : Ram) : Ram :=
  if a + n ≤ lbufSize then { r with lbuf := Memory.writeN zeroByte n a v r.lbuf } else r

/-- The contents of a data bank become undefined: its listed bytes go, and its unlisted bytes read as
free values never seen before. -/
def Ram.loseBank (bk : BankNo) (r : Ram) : Ram :=
  { r with bank := r.bank.filter (fun c => bankOf c.1 ≠ bk), bankGen := r.bankGen.upd bk (· + 1) }

/-- The contents of every data bank become undefined. -/
def Ram.loseBanks (r : Ram) : Ram := { r with bank := [], bankGen := r.bankGen.map (· + 1) }

/-- The contents of the almanac become undefined (R432). -/
def Ram.loseAlm (r : Ram) : Ram := { r with alm := [], almGen := r.almGen + 1 + r.almGen % 2 }

/-- R218: the almanac is cleared to zero. -/
def Ram.clearAlm (r : Ram) : Ram := { r with alm := [], almGen := r.almGen + r.almGen % 2 }

/-! ## Blocks -/

def Device.chnUpd (c : Chan) (f : Channel → Channel) (d : Device) : Device := { d with chn := d.chn.upd c f }
def Device.axUpd (a : Axis) (f : AxisSt → AxisSt) (d : Device) : Device := { d with axs := d.axs.upd a f }
def Device.clvUpd (n : CloveNo) (f : Clove → Clove) (d : Device) : Device := { d with clv := d.clv.upd n f }
def Device.glkUpd (l : LinkNo) (f : Link → Link) (d : Device) : Device := { d with glk := d.glk.upd l f }
def Device.glwUpd (l : LinkNo) (f : LinkWork → LinkWork) (d : Device) : Device := { d with glw := d.glw.upd l f }
def Device.lkoUpd (k : LkNo) (f : Lookout → Lookout) (d : Device) : Device := { d with lko := d.lko.upd k f }
def Device.xcUpd (n : XcNo) (f : Xfer → Xfer) (d : Device) : Device :=
  { d with xfr := { d.xfr with ch := d.xfr.ch.upd n f } }
def Device.bankUpd (b : BankNo) (f : Bank → Bank) (d : Device) : Device :=
  { d with mem := { d.mem with bank := d.mem.bank.upd b f } }
def Device.tabUpd (n : TableNo) (f : ATable → ATable) (d : Device) : Device := { d with alm := d.alm.upd n f }
def Device.srcUpd (s : SourceNo) (f : Source → Source) (d : Device) : Device :=
  { d with evc := { d.evc with src := d.evc.src.upd s f } }
def Device.progUpd (c : Chan) (f : Prog → Prog) (d : Device) : Device :=
  d.chnUpd c (fun h => { h with prog := f h.prog })
def Device.cfgUpd (c : Chan) (f : ChnCfg → ChnCfg) (d : Device) : Device :=
  d.chnUpd c (fun h => { h with cfg := f h.cfg })
def Device.statUpd (c : Chan) (f : ChnStat → ChnStat) (d : Device) : Device :=
  d.chnUpd c (fun h => { h with stat := f h.stat })
def Device.pinUpd (c : Chan) (f : PinCell → PinCell) (d : Device) : Device :=
  d.chnUpd c (fun h => { h with pin := f h.pin })
def Device.estUpd (a : Axis) (f : AxEst → AxEst) (d : Device) : Device :=
  d.axUpd a (fun x => { x with est := f x.est })

/-! ## Almanac writes of one base period (R221) -/

/-- R221: almanac word `w` has been written in this base period by a master that comes after `rank`. -/
def Device.almTaken (rank w : Nat) (d : Device) : Bool := d.turn.almw.any (fun x => x.1 == w && decide (rank < x.2))

/-- R221: the master of this rank (XC28 to XC31 0 to 3, the host 4) writes these almanac words. -/
def Device.almNote (rank : Nat) (ws : List Nat) (d : Device) : Device :=
  { d with turn := { d.turn with almw := ws.map (fun w => (w, rank)) ++ d.turn.almw } }

/-! ## Fuses -/

/-- R422: a single-bit fuse reads as set if any copy is set. -/
def Fuses.prov (f : Fuses) : Bool := f.provC != 0
def Fuses.dbgClose (f : Fuses) : Bool := f.closeC != 0
def Fuses.dbgPerm (f : Fuses) : Bool := f.permC != 0

/-- R419, R422: the slot that a thermometer selects: one above its highest bit that is set. -/
def thermo {n : Nat} (t : Tab (BitVec 3) n) : Nat :=
  (fins n).foldl (fun m i => if t.at i != 0 then i.val + 1 else m) 0

def Fuses.ckslot (f : Fuses) : Fin 4 := Fin.ofNat 4 (thermo f.ckT)
def Fuses.dkslot (f : Fuses) : Fin 4 := Fin.ofNat 4 (thermo f.dkT)
def Fuses.ikslot (f : Fuses) : Fin 2 := Fin.ofNat 2 (thermo f.ikT)

/-- The next free value, and the count of those taken (log entry 3). -/
def Device.freeWord (d : Device) : Word := Config.word (2 * d.free)
def Device.freeHigh (d : Device) : Word := Config.word (2 * d.free + 1)
def Device.freeTaken (d : Device) : Device := { d with free := d.free + 1 }

def Core.mapDev (f : Device → Device) (c : Core) : Core := { c with dev := f c.dev }
def Core.mapRam (f : Ram → Ram) (c : Core) : Core := { c with ram := f c.ram }

/-- A meaning that acts on the blocks alone. -/
def State.runDev (s : State) (f : Nat → Device → Device) : Host.Outcome State Fault Refusal :=
  .next { s with core := { s.core with dev := f s.mt s.core.dev } }

/-- A meaning that acts on the blocks and the memories. -/
def State.run (s : State) (f : Nat → Core → Core) : Host.Outcome State Fault Refusal :=
  .next { s with core := f s.mt s.core }

end Sys2Proof.Machine
end

