-- ==== Sys2Proof/Machine/Predict.lean ====
section
/-! DEFINITION. The exact arithmetic of the dead-reckoning unit (R52, R65 to R68, R74, R76 to R79):
pure functions of an axis's registers and estimate. Positions `z`, `q` and `M` are in 2^-16 counts,
`X` in 2^-32 counts, `v` in 2^-48 counts per tick, `a` in 2^-80 counts per tick squared. -/

namespace Sys2Proof.Machine

open Sys2Proof

/-- An exact result in a signed `n`-bit field: itself when it fits; a free value when it does not and the
manual states no result (log entry 5). -/
def fitS (n : Nat) (i : Int) : Int :=
  if -(((2 ^ (n - 1) : Nat)) : Int) ≤ i ∧ i < ((2 ^ (n - 1) : Nat) : Int) then i else wrapS n (Config.outside n i)

/-- R51: a modulo axis. -/
def AxRegs.modulo (r : AxRegs) : Bool := bitOf r.cfg 0
/-- R68: second-order tracker. -/
def AxRegs.order1 (r : AxRegs) : Bool := bitOf r.cfg 1
/-- R55, R58: DIR. -/
def AxRegs.dir (r : AxRegs) : Bool := bitOf r.cfg 2
/-- R64: TMO_DROP. -/
def AxRegs.tmoDrop (r : AxRegs) : Bool := bitOf r.cfg 3
/-- R54: SRC. -/
def AxRegs.src (r : AxRegs) : Nat := fld r.cfg 7 4
/-- R57: ZMODE. -/
def AxRegs.zmode (r : AxRegs) : Nat := fld r.cfg 9 8
/-- R54: SRCIDX. -/
def AxRegs.srcidx (r : AxRegs) : Nat := fld r.cfg 25 16

/-- R52: the modulus M, or 0 on a linear axis. -/
def AxRegs.m (r : AxRegs) : Nat :=
  if r.modulo then r.modLo.toNat + 4294967296 * fld r.modHi 15 0 else 0

/-- R52: a fix position reduced into `[0, M)`, or itself with `m = 0` (linear). -/
def reduceM (m : Nat) (z : Int) : Int := if m = 0 then z else z % (m : Int)

/-- R52: a difference wrapped into `[-M/2, M/2)`, or itself with `m = 0` (linear). -/
def wrapM (m : Nat) (d : Int) : Int :=
  if m = 0 then d else let r := d % (m : Int); if (m : Int) ≤ 2 * r then r - m else r

/-- R52: the extended position X in 2^-32 counts. -/
def AxisSt.ext (a : AxisSt) : Int := a.est.turns * ((a.reg.m * 65536 : Nat) : Int) + a.est.x

/-- R52: TURNS and x from an extended position. -/
def splitX (m : Nat) (x : Int) : Int × Int :=
  if m = 0 then (0, x) else (fitS 32 (x / ((m * 65536 : Nat) : Int)), x % ((m * 65536 : Nat) : Int))

/-- R53: an extended position that a linear axis cannot hold. -/
def overrange (m : Nat) (x : Int) : Bool := m == 0 && (x < -9223372036854775808 || 9223372036854775808 ≤ x)

/-- R76: the extended target of position `q` from state `(x, v)`; `vs` has the sign of v. -/
def extTarget (m : Nat) (x vs : Int) (q : Int) : Int :=
  if m = 0 then q
  else
    let q0 := q % (m : Int)
    let n := x - q0 * 65536
    let mm : Int := ((m * 65536 : Nat) : Int)
    let k := if 0 ≤ vs then -Int.fdiv (-n) mm else Int.fdiv n mm
    k * m + q0

/-- The least `r` with `r * r ≥ n`. -/
def ceilSqrt (n : Nat) : Nat := let r := isqrt n; if r * r = n then r else r + 1

/-- `⌊(n + √r) / m⌋` with `plus`, `⌊(n - √r) / m⌋` without, for `m > 0`. -/
def floorSurd (plus : Bool) (n : Int) (r : Nat) (m : Int) : Int :=
  if plus then Int.fdiv (n + isqrt r) m else Int.fdiv (n - ceilSqrt r) m

/-- R78: the bound of 2^40 tk on |s|. -/
def sMax : Int := 1099511627776

/-- R77: the time `tf + s`, a time before 0 taken as 0 (log entry 6). -/
def timeFrom (tf : Nat) (s : Int) : Nat := ((tf : Int) + s).toNat % two64

/-- R77, R78: P2T from the state `X`, `v = vn / vd`, `a`, `tf` to the extended target `q`. With
`A = a·vd`, `B = vn·2^33` and `C = (q·2^16 - X)·vd·2^49` the time offset `s` is the root of
`A s² + B s = C` of least magnitude, the positive one of two. -/
def p2tSolve (x vn : Int) (vd : Nat) (a : Int) (tf : Nat) (q : Int) : Nat :=
  let d := q * 65536 - x
  if d = 0 then tf
  else
    let A := a * vd
    let B := vn * 8589934592
    let C := d * vd * 562949953421312
    if A = 0 then
      if B = 0 then never
      else
        let num := if B < 0 then -C else C
        let den := B.natAbs
        if sMax * den < num.natAbs then never else timeFrom tf (rnd num den)
    else
      let disc := B * B + 4 * A * C
      if disc < 0 then never
      else
        let r := disc.toNat
        -- the root is (-B ± √disc) / 2A: plus for B > 0, minus for B < 0, the sign of A for B = 0
        let plus := if B = 0 then decide (0 < A) else decide (0 < B)
        let n := if A < 0 then B else -B
        let p := if A < 0 then !plus else plus
        let m : Int := 2 * A.natAbs
        let fl := floorSurd p n r m
        let ce := -floorSurd (!p) (-n) r m
        if sMax < ce ∨ fl < -sMax then never
        else timeFrom tf (floorSurd p (2 * n + m) (4 * r) (2 * m))

/-- R74: the coasting state holds while the axis is not STEADY and has two accepted fixes. -/
def AxisSt.coasting (a : AxisSt) : Bool := a.est.st != .steady && 2 ≤ a.est.nfix

/-- R74: extended position, velocity (numerator, denominator) and time of the coasting state. -/
def AxisSt.coastState (a : AxisSt) : Int × Int × Nat × Nat :=
  match a.est.last with
  | (z1, t1) :: (z0, t0) :: _ =>
    let m := a.reg.m
    let x := a.ext + wrapM (m * 65536) (z1 * 65536 - a.est.x)
    (x, wrapM m (z1 - z0) * 4294967296, t1 - t0, t1)
  | _ => (a.ext, a.est.v, 1, a.est.tf)

/-- R74, R77: P2T of the extended target `q`, against the coasting state for an action converted under
COAST while the axis is not STEADY, and against the tracker otherwise; NEVER in NOFIX (R78). -/
def AxisSt.p2t (a : AxisSt) (coast : Bool) (q : Int) : Nat :=
  if a.est.st = .nofix then never
  else if coast && a.coasting then
    let (x, vn, vd, tf) := a.coastState
    p2tSolve x vn vd 0 tf q
  else p2tSolve a.ext a.est.v 1 a.est.a a.est.tf q

/-- R76: the extended target of a first conversion. -/
def AxisSt.target (a : AxisSt) (coast : Bool) (q : Int) : Int :=
  if coast && a.coasting then
    let (x, vn, _, _) := a.coastState
    extTarget a.reg.m x vn q
  else extTarget a.reg.m a.ext a.est.v q

/-- R79: T2P, in 2^-16 counts; 0 in NOFIX. -/
def AxisSt.t2p (a : AxisSt) (t : Nat) : Int :=
  if a.est.st = .nofix then 0
  else
    let s : Int := (t : Int) - a.est.tf
    let n := a.ext * 562949953421312 + a.est.v * s * 8589934592 + a.est.a * s * s
    let p := rnd n 36893488147419103232
    if a.reg.m = 0 then fitS 48 p else p % (a.reg.m : Int)

/-- R75, R133: the tolerance in tk of a test on the axis. -/
def AxisSt.tolFor (a : AxisSt) (coast : Bool) : Nat :=
  let tol := fld a.reg.tol 15 0
  if coast && a.est.st != .steady then 8 * tol else tol

/-- R133: the revision test of a time. -/
def timeFails (t tn tol : Nat) : Bool :=
  if tn = never ∨ t = never then tn != t else decide (tol < ((tn : Int) - t).natAbs)

/-- R133: the revision test of a tracked T2P: the recomputed position differs from the recorded one by more
than the distance the axis covers in `tol` ticks at its new velocity. -/
def AxisSt.posFails (a : AxisSt) (p pn : Int) (tol : Nat) : Bool :=
  decide (a.est.v.natAbs * tol < (wrapM a.reg.m (pn - p)).natAbs * 4294967296)

/-- R63, R70: the estimate of an acquisition cleared: position, velocity, acceleration, TURNS and NFIX, and with them AXS_RES
and AXS_FIXT. No earlier fix is left for the tests ORDER and VEL of R61 (DEDUCED, log 75). -/
def AxEst.clear (e : AxEst) : AxEst :=
  { e with nfix := 0, tf := 0, x := 0, turns := 0, v := 0, a := 0, res := 0, last := [], t1 := 0, vm := none }

/-- R66, R67: what the accepted fix number `n` makes of the extended position, v and a; with the residual
(in 2^-81 counts; none before the fourth fix) and whether vres admits STEADY. -/
def AxisSt.update (ax : AxisSt) (n : Nat) (z : Int) (t : Nat) : Int × Int × Int × Option Int × Bool :=
  let r := ax.reg
  let e := ax.est
  let m := r.m
  let dt := t - e.tf
  match n with
  | 0 | 1 => (z * 65536, 0, 0, none, false)
  | 2 =>
    let dz := wrapM m (z - e.x / 65536)
    (ax.ext + dz * 65536, fitS 64 (rnd (dz * 4294967296) dt), 0, none, false)
  | 3 =>
    let dz := wrapM m (z - e.x / 65536)
    let x := ax.ext + dz * 65536
    if r.order1 then (x, fitS 64 (rnd (dz * 4294967296) dt), 0, none, false)
    else
      -- v32 - v21 = (dz·2^32 - v·dt) / (2^48 dt); a = 2 (v32 - v21) / (t - t1)
      let du := dz * 4294967296 - e.v * dt
      let d1 := t - e.t1
      let v := rnd (dz * 4294967296 * d1 + du * dt) (dt * d1)
      let a := rnd (2 * du * 4294967296) (dt * d1)
      (x, fitS 64 v, fitS 64 a, none, false)
  | _ =>
    let a0 := if r.order1 then 0 else e.a
    let xp := ax.ext * 562949953421312 + e.v * dt * 8589934592 + a0 * dt * dt
    let res := wrapM (m * 36893488147419103232) (z * 36893488147419103232 - xp)
    let al : Int := (fld r.gainAB 15 0 : Nat)
    let be : Int := (fld r.gainAB 31 16 : Nat)
    let ga : Int := (fld r.gainG 15 0 : Nat)
    let x := rnd (xp * 65536 + al * res) 36893488147419103232
    let v := rnd ((e.v * 4294967296 + a0 * dt) * 131072 * dt + be * res) (562949953421312 * dt)
    let a := if r.order1 then 0 else fitS 64 (rnd (a0 * 65536 * dt * dt + ga * res) (65536 * dt * dt))
    let ok := decide ((be * res).natAbs * 8000000000 ≤ r.vres.toNat * 158456325028528675187087900672 * dt)
    (x, fitS 64 v, a, some res, ok)

end Sys2Proof.Machine
end

