-- ==== Sys2Proof/Machine/Raise.lean ====
section
/-! DEFINITION. Raising a cause on an event source (R381 to R387, chapter 15). Every block raises its
causes through `raise`. -/

namespace Sys2Proof.Machine

open Sys2Proof

/-- The detail of a cause: cause in [15:8], argument in [7:0] (R382). -/
def detailOf (cause arg : Nat) : BitVec 16 := BitVec.ofNat 16 (cause % 256 * 256 + arg % 256)

/-- R384: true for a level source. -/
def Evc.isLevel (e : Evc) (s : SourceNo) : Bool := bitOf (e.mode.at (Fin.ofNat 8 (s.val / 32))) (s.val % 32)

/-- R389: true for a masked source. -/
def Evc.isMasked (e : Evc) (s : SourceNo) : Bool := bitOf (e.mask.at (Fin.ofNat 8 (s.val / 32))) (s.val % 32)

/-- R382: of two causes of one source at one boundary, `b` stands after `a` when its step is later, or its
step is the same and its cause code is higher. -/
def Cause.after (a b : Cause) : Bool :=
  a.at' == b.at' && (a.step < b.step || (a.step == b.step && fld a.detail 15 8 < fld b.detail 15 8))

/-- R383: the cause joins the queue of an edge source in raise order, or the last of five is dropped. -/
def Source.queue (c : Cause) (x : Source) : Source :=
  let l := insertBefore (Cause.after c) c x.q
  match l.drop 4 with
  | [] => { x with q := l }
  | _ :: _ => { x with q := l.take 4, drop := satInc 8 x.drop, dropAt := if x.drop = 0 then c.at' else x.dropAt }

/-- R384: the latch of a level source holds the newest cause. -/
def Source.latchIn (c : Cause) (x : Source) : Source :=
  match x.latch with
  | some p => if Cause.after c p then x else { x with latch := some c }
  | none => { x with latch := some c }

/-- R382: the raise count of a source goes up once for each cause and each software set. -/
def Source.count (x : Source) : Source := { x with rcnt := x.rcnt + 1 }

/-- R382 to R384: a cause reaches its source. -/
def Source.take (level : Bool) (c : Cause) (x : Source) : Source :=
  if level then (Source.latchIn c x).count else (Source.queue c x).count

/-- R383: whether taking `c` drops a cause, for EVC_DROPS. -/
def Source.drops (level : Bool) (x : Source) : Bool := !level && x.q.length ≥ 4

/-- A cause is raised at boundary `now` in step `step` of R144 (R382). -/
def raiseAt (step src kind cause arg stamp now : Nat) (d : Device) : Device :=
  let s : SourceNo := Fin.ofNat 256 src
  let c : Cause := ⟨BitVec.ofNat 8 kind, detailOf cause arg, stamp, now, step⟩
  let e := d.evc
  let lv := e.isLevel s
  { d with evc := { e with
      drops := if Source.drops lv (e.src.at s) then satInc 32 e.drops else e.drops
      src := e.src.upd s (Source.take lv c) } }

/-- A cause raised with the boundary as its stamp (R144: event records raised by any step carry B). -/
def raise (step src kind cause arg now : Nat) (d : Device) : Device := raiseAt step src kind cause arg now now d

/-- The EVC_CLR of one source (R387). -/
def Source.clear (x : Source) : Source :=
  { x with q := [], drop := 0, ovf := false, claim := false, latch := none, prev := none, soft := none }

/-- R383, R384, R386: the source is pending. -/
def Source.pending (level : Bool) (x : Source) : Bool :=
  if level then (x.level && !x.claim) || x.soft.isSome else !x.q.isEmpty || x.ovf

/-- The source of channel `n` (R120). -/
def chnSource (n : Chan) : Nat := n.val / 8

/-- R120: a record of channel `n`, argument in [7:3] and `n mod 8` in [2:0]. -/
def raiseChn (step : Nat) (n : Chan) (kind cause arg now : Nat) (d : Device) : Device :=
  raise step (chnSource n) kind cause (arg % 32 * 8 + n.val % 8) now d

end Sys2Proof.Machine
end

