-- ==== Sys2Proof/Machine/Service.lean ====
section
/-! DEFINITION. Programs, their groups and their speculative state (R122 to R130, R149 to R152, R493), and
the helm's service requests (R233, R234, R243). -/

namespace Sys2Proof.Machine

open Sys2Proof

/-! ## Channels and groups -/

/-- R7: a link channel. -/
def isLink (c : Chan) : Bool := 256 ≤ c.val
/-- R7: the link of a link channel. -/
def linkOf (c : Chan) : LinkNo := Fin.ofNat 32 ((c.val - 256) / 8)
/-- R7: the slot of a link channel. -/
def slotOf (c : Chan) : Fin 8 := Fin.ofNat 8 c.val
/-- R7: the channel of a slot. -/
def slotChan (l : LinkNo) (s : Fin 8) : Chan := Fin.ofNat 512 (256 + 8 * l.val + s.val)

/-- R17, R108: a commit lead, raised to 512 base periods on a link channel. -/
def effLead (c : Chan) (lead : Nat) : Nat := if isLink c then max 512 lead else lead

/-- The commit lead in effect on a channel. -/
def Device.lead (d : Device) (c : Chan) : Nat := effLead c (fld (d.chn.at c).cfg.live.lead 10 0)

/-- R15: the commit instant of time `t` under a lead. -/
def commitAt (t lead : Nat) : Int := Int.fdiv ((t : Int) - 32 * (lead : Int)) 32 * 32

/-- R149: CHN_PROG.BOUND. -/
def ChnCfg.bound (c : ChnCfg) : Bool := bitOf c.prog 15
/-- R150: CHN_PROG.MEMBER. -/
def ChnCfg.member (c : ChnCfg) : Bool := bitOf c.prog 16
/-- R150: CHN_PROG.MIDX. -/
def ChnCfg.midx (c : ChnCfg) : Nat := fld c.prog 19 17
/-- R150: CHN_PROG.HOME. -/
def ChnCfg.home (c : ChnCfg) : Chan := Fin.ofNat 512 (fld c.prog 28 20)

/-- R149, R150: the home channel of the program a channel takes part in. -/
def Device.homeOf (d : Device) (c : Chan) : Option Chan :=
  let g := (d.chn.at c).cfg
  if g.bound then some c else if g.member then some g.home else none

/-- R150, R151: `c` is an enabled member, other than the home channel, of `h`'s program. -/
def Device.isMember (d : Device) (h c : Chan) : Bool :=
  let g := (d.chn.at c).cfg
  c != h && g.en && !g.bound && g.member && g.home == h

/-- R151: the enabled members of `h`'s program, the home channel left out. -/
def Device.members (d : Device) (h : Chan) : List Chan := (fins 512).filter (d.isMember h)

/-- The home channels whose programs have unreleased segments or run. -/
def Device.homes (d : Device) : List Chan := (fins 512).filter (fun c => (d.chn.at c).cfg.bound)

/-! ## Provisional entries -/

/-- The channels with a provisional entry. -/
def Device.provChans (d : Device) : List Chan := (fins 512).filter (fun c => !(d.chn.at c).prov.isEmpty)

/-- Change the provisional queue of every channel that has one. -/
def Device.mapProv (f : Chan → List ProvEntry → List ProvEntry) (d : Device) : Device :=
  d.provChans.foldl (fun d c => d.chnUpd c (fun h => { h with prov := f c h.prov })) d

/-- The provisional entries, with their channels, that meet `p`. -/
def Device.provWhere (d : Device) (p : ProvEntry → Bool) : List (Chan × ProvEntry) :=
  d.provChans.flatMap (fun c => ((d.chn.at c).prov.filter p).map (fun e => (c, e)))

/-- R168: the earliest commit instant among entries, NEVER left out. -/
def Device.earliest (d : Device) (l : List (Chan × ProvEntry)) : Option Int :=
  (l.filter (fun x => x.2.t ≠ never)).foldl (fun o x =>
    let c := commitAt x.2.t (d.lead x.1)
    match o with
    | none => some c
    | some v => some (min v c)) none

/-- R168: the deadline of a request raised at `now` by a wait, a YIELD or the end of a service. -/
def Device.waitDeadline (d : Device) (now : Nat) (h : Chan) : Nat :=
  match d.earliest (d.provWhere (fun e => e.home == h)) with
  | some t => t.toNat
  | none => now + 32 * d.lead h

/-- R129: segment `seq` of home `h` holds a provisional action or a placeholder. -/
def Device.segHolds (d : Device) (h : Chan) (seq : Nat) : Bool :=
  (fins 512).any (fun c => (d.chn.at c).prov.any (fun e => e.home == h && e.seq == seq))

/-- R125: flag L of the program of `h` while its newest segment runs. -/
def Device.flagL (d : Device) (h : Chan) : Bool :=
  match (d.chn.at h).prog.segs.reverse with
  | [] => false
  | [g] => d.segHolds h g.seq
  | _ => true

/-- R130: the released context of a channel. -/
def Prog.released (p : Prog) : Context :=
  match p.segs with
  | g :: _ => g.ckpt
  | [] => p.ctx

/-- R123, R158: the checkpoint slots of a program: of its unreleased segments, and of those that routines not yet landed
begin. -/
def Prog.slots (p : Prog) : Nat :=
  p.segs.length + (match p.svc with
    | some s => (s.staged.filter (fun r => r.newSeg.isSome)).length
    | none => 0)

/-- R158: the checkpoint slots taken device-wide, of 1,024. -/
def Device.ckptUsed (d : Device) : Nat := (fins 512).foldl (fun n c => n + (d.chn.at c).prog.slots) 0

/-- R125: the settled bit of an ordinal. -/
def setBit4 (m : BitVec 4) (o : Nat) : BitVec 4 := m ||| BitVec.ofNat 4 (2 ^ (o % 4))

/-- R125, R137: the settled bit of (segment, ordinal) is set, on the segment or on the mask kept for its re-run. -/
def settle (h : Chan) (seq ord : Nat) (d : Device) : Device :=
  d.progUpd h (fun p => { p with
    segs := p.segs.map (fun g => if g.seq = seq then { g with settled := setBit4 g.settled ord } else g)
    settled := p.settled.map (fun x => if x.1 = seq then (x.1, setBit4 x.2 ord) else x) })

/-! ## Held effects at discard -/

/-- R126: held captures go back to the head of their FIFOs and cancel marks go. -/
def returnHeld (l : List HeldEff) (d : Device) : Device :=
  l.foldl (fun d e =>
    match e with
    | .capt c n => d.pinUpd c (fun p => { p with capHeld := p.capHeld - n })
    | .cancel c i _ => d.chnUpd c (fun h =>
        { h with prov := h.prov.map (fun e => { e with marks := e.marks.filter (fun j => j != i) }) })
    | _ => d) d

/-! ## The helm -/

/-- R236: the slot of a service frees. -/
def freeSlot (s : Service) (d : Device) : Device :=
  { d with hlm := { d.hlm with eng := d.hlm.eng.upd s.eng (fun e => { e with slots := e.slots.put s.slot none }) } }

/-- R243, R250: the service has a routine to abandon: none of its routines is in its tail. -/
def Service.inFlight (s : Service) : Bool := !s.staged.any (fun r => r.late || r.tail.isSome)

/-- R243: the routine in flight of a channel is abandoned and its service ends. -/
def abandon (h : Chan) (d : Device) : Device :=
  match (d.chn.at h).prog.svc with
  | none => d
  | some s =>
    let d := freeSlot s d
    let d := if s.inFlight then { d with hlm := { d.hlm with abncnt := satInc 32 d.hlm.abncnt } } else d
    d.progUpd h (fun p => { p with svc := none })

/-- R234: requests for one channel merge, keeping the earlier deadline. -/
def mergeReq (r : Req) : List Req → List Req
  | [] => [r]
  | q :: l => if q.ch = r.ch then { q with deadline := min q.deadline r.deadline, rev := q.rev || r.rev } :: l
              else q :: mergeReq r l

/-- R233, R234: a service request for home channel `h`. -/
def request (h : Chan) (deadline : Nat) (rev : Bool) (d : Device) : Device :=
  if (d.chn.at h).cfg.en then { d with hlm := { d.hlm with q := mergeReq ⟨h, deadline, rev⟩ d.hlm.q } } else d

/-- R234, R243: the queued request of a channel is dropped. -/
def dropReq (h : Chan) (d : Device) : Device :=
  { d with hlm := { d.hlm with q := d.hlm.q.filter (fun r => r.ch != h) } }

/-- R140, R152, R176, R493: the program of `h` stops: its provisional actions, placeholders, checkpoints and
held effects are discarded and its routine abandoned. Its context is then the released one (log entry 7). -/
def stopProgram (h : Chan) (d : Device) : Device :=
  let p := (d.chn.at h).prog
  let d := returnHeld (p.segs.flatMap (fun g => g.held)) d
  let d := d.mapProv (fun _ l => l.filter (fun e => e.home != h))
  let d := dropReq h (abandon h d)
  d.progUpd h (fun p => { p with
    ctx := p.released, running := false, wait := .stopped, segs := [], settled := [], again := false })

end Sys2Proof.Machine
end

