-- ==== Sys2Proof/Machine/Safe.lean ====
section
/-! DEFINITION. Safe-state entry (R26, R109, R110, R112, R493), HALT-class faults and PERMIT (R439 to R442). -/

namespace Sys2Proof.Machine

open Sys2Proof

/-! ## Channel modes and levels -/

/-- R82: modes 2 to 5 run a train. -/
def isTrainMode (m : BitVec 4) : Bool := 2 ≤ m.toNat && m.toNat ≤ 5
/-- R82: modes 1 to 5 and 14 are output modes. -/
def isOutMode (m : BitVec 4) : Bool := (1 ≤ m.toNat && m.toNat ≤ 5) || m.toNat == 14
/-- R82: modes 8 to 13 are input modes. -/
def isInMode (m : BitVec 4) : Bool := 8 ≤ m.toNat && m.toNat ≤ 13
/-- R82: the modes a channel of this kind may be enabled in. Mode 0 is valid on all. -/
def modeValid (c : Chan) (m : BitVec 4) : Bool :=
  match m.toNat with
  | 6 | 7 | 15 => false
  | 12 | 13 => !isLink c
  | 14 => isLink c
  | _ => true

/-- CHN_CFG fields of a staged set (R121). -/
def StSet.late (s : StSet) : Nat := fld s.cfg 5 4
def StSet.coast (s : StSet) : Bool := bitOf s.cfg 6
def StSet.edge (s : StSet) : Nat := fld s.cfg 9 8
def StSet.capown (s : StSet) : Bool := bitOf s.cfg 10
def StSet.capthr (s : StSet) : Nat := fld s.cfg 15 12

/-- R88: CHN_PIN.INV. -/
def ChnCfg.inv (c : ChnCfg) : Bool := bitOf c.pin 5
/-- R93: CHN_PIN.SKEW, signed. -/
def ChnCfg.skew (c : ChnCfg) : Int := signedOf 8 (fld c.pin 23 16)

/-- R88: the ball's drive for a logical level. -/
def ballFor (inv lvl : Bool) : Drive := if lvl != inv then .high else .low

/-- R96: the level the ball shows: as driven, or as seen from outside. -/
def PinCell.ball (p : PinCell) : Bool :=
  match p.drive with
  | .low => false
  | .high => true
  | .undriven => p.raw

/-- R109: what the safe level does with the ball. -/
def safeDrive (c : ChnCfg) (p : PinCell) : Drive :=
  match fld c.safe 1 0 with
  | 0 => .low
  | 1 => .high
  | 2 => .undriven
  | _ => if p.ball then .high else .low

/-- R85, R109: the ball goes to the safe level if the pin cell owns it. -/
def ballSafe (h : Channel) : Channel :=
  if h.stat.driven then { h with pin := { h.pin with drive := safeDrive h.cfg h.pin } } else h

/-- R112: CODE PROGFAULT, BANKASLEEP and HALTED persist until EN is written 0 and then 1. -/
def Code.sticky (k : Code) : Bool :=
  match k with
  | .progfault | .halted | .bankasleep => true
  | _ => false

/-- R108, R112: a channel's CODE takes a new value unless the old one persists. -/
def setCode (c : Chan) (k : Code) (d : Device) : Device :=
  d.statUpd c (fun s =>
    if s.code.sticky then s
    else if s.code = .linklost && isLink c && (d.glk.at (linkOf c)).st != .up then s
    else { s with code := k })

/-- R300: a slot that entered its safe state is to be named in a SAFE frame; its edges not yet sent go, and CHN_NEXT no
longer shows them (R121). -/
def linkSafe (c : Chan) (d : Device) : Device :=
  if isLink c then
    let gone := (d.glw.at (linkOf c)).edges.filter (fun e => e.slot == slotOf c)
    let d := d.glwUpd (linkOf c) (fun w => { w with
      safeDue := w.safeDue ||| BitVec.ofNat 8 (2 ^ (slotOf c).val)
      edges := w.edges.filter (fun e => e.slot != slotOf c) })
    d.pinUpd c (fun p => { p with slotEdges := p.slotEdges.filter (fun x => !gone.any (fun e => e.t == x.1)) })
  else d

/-- The train of a channel stops at once and live RUN reads 0. -/
def stopTrain (h : Channel) : Channel :=
  { h with
    train := TrainGen.reset
    cfg := { h.cfg with live := { h.cfg.live with train := setFld h.cfg.live.train 0 0 0 } } }

/-- R26, R112, R140, R493: one enabled channel enters its safe state with code `k`: its train stops, its
committed actions are discarded, its ball goes to the safe level and the program it takes part in stops. -/
def safeOne (c : Chan) (k : Code) (d : Device) : Device :=
  if (d.chn.at c).cfg.en && !(d.chn.at c).stat.safe then
    let d := match d.homeOf c with
      | some h => stopProgram h d
      | none => d
    let d := d.chnUpd c (fun h =>
      ballSafe (stopTrain { h with comm := [], stat := { h.stat with code := k, safe := true, safeDue := none } }))
    linkSafe c d
  else d

/-- R442, R443: PERMIT stops conducting and ARMED clears; PERMIT is raised with argument 0 if it conducted. -/
def dropPermit (step now : Nat) (d : Device) : Device :=
  let was := d.pwr.permit
  let d := { d with pwr := { d.pwr with armed := false, permit := false } }
  if was then raise step 241 0x0C 0x03 0 now d else d

/-- R442: PWR_HFAULT bit `b` is set with FIRST `first` (for CHAN and LKO faults), HFAULT is raised when the bit
was clear, and PERMIT stops conducting (R441). -/
def setHFault (step : Nat) (b : Nat) (first : Nat) (now : Nat) (d : Device) : Device :=
  let old := d.pwr.hfault
  let d := if b < 2 && fld old 1 0 == 0 then { d with pwr := { d.pwr with first := first } } else d
  let d := if b = 1 then { d with pwr := { d.pwr with lkoSet := d.pwr.lkoSet ||| w32 (2 ^ (first % 32)) } } else d
  let d := if bitOf old b then d
    else raise step 241 0x04 0x10 b now { d with pwr := { d.pwr with hfault := old ||| BitVec.ofNat 6 (2 ^ b) } }
  dropPermit step now d

/-- R109: CHN_SAFE.SGRP. -/
def ChnCfg.sgrp (c : ChnCfg) : Nat := fld c.safe 7 4
/-- R110: CHN_SAFE.HCLASS. -/
def ChnCfg.hclass (c : ChnCfg) : Bool := bitOf c.safe 8

/-- R176, R493: the enabled members of the programs whose home channels are in the list enter with HALTED. -/
def safeMembers (l : List Chan) (d : Device) : Device :=
  let ms := l.flatMap (fun h => if (d.chn.at h).cfg.bound then (d.members h).filter (fun m => !l.contains m) else [])
  ms.foldl (fun d m => safeOne m .halted d) d

/-- R110: the enabled channels of safe group `g` other than `but`, not yet in their safe state. -/
def Device.safeGroup (d : Device) (g : Nat) (but : Option Chan) : List Chan :=
  if g = 0 then []
  else (fins 512).filter (fun c =>
    some c != but && (d.chn.at c).cfg.en && (d.chn.at c).cfg.sgrp == g && !(d.chn.at c).stat.safe)

/-- R110: every channel of the list goes to its safe level with HALTED and FAULT cause SAFEGROUP. -/
def enterGroup (step : Nat) (g : Nat) (l : List Chan) (now : Nat) (d : Device) : Device :=
  let d := l.foldl (fun d c => raiseChn step c 0x04 0x34 g now (safeOne c .halted d)) d
  safeMembers l d

/-- R110, R176, R140, R442: a channel enters its safe state by PROGFAULT or by a HALT late policy, with its
program's members, its safe group and its HALT class. -/
def enterSafe (step : Nat) (c : Chan) (k : Code) (now : Nat) (d : Device) : Device :=
  if (d.chn.at c).cfg.en && !(d.chn.at c).stat.safe then
    let g := (d.chn.at c).cfg.sgrp
    let hc := (d.chn.at c).cfg.hclass
    let l := d.safeGroup g (some c)
    let d := safeMembers [c] (enterGroup step g l now (safeOne c k d))
    if hc then setHFault step 0 c.val now d else d
  else d

/-- R442: the channels that a fault of bits 2 to 5 affects enter their safe states with CODE HALTED. -/
def haltChannels (l : List Chan) (d : Device) : Device :=
  let d := l.foldl (fun d c => safeOne c .halted d) d
  safeMembers l d

/-- The enabled channels. -/
def Device.enabled (d : Device) : List Chan := (fins 512).filter (fun c => (d.chn.at c).cfg.en)

/-- R442: a HALT-class fault that affects every enabled channel (REF, THERM, SUPPLY). -/
def haltAll (step : Nat) (b : Nat) (now : Nat) (d : Device) : Device :=
  setHFault step b 0 now (haltChannels d.enabled d)

end Sys2Proof.Machine
end

