-- ==== Sys2Proof/Machine/Revise.lean ====
section
/-! DEFINITION. Recomputation, the revision test, rewind and the revision budget (R71, R131 to R138, R147, R494). -/

namespace Sys2Proof.Machine

open Sys2Proof

/-- R138, R494: the time of a placeholder already in place that was `old` and is recomputed as `new`: the later one, but a
finite one where it was NEVER (DEDUCED, log 77). -/
def laterTime (old new : Nat) : Nat := if old = never then new else max old new

/-- R136, R138: the action of an entry is replaced by a placeholder that keeps its place and its latest time; a placeholder
already in place keeps the later of its two times. `was` is the queue before the recomputations of this boundary. -/
def toHolder (h : Chan) (k : Nat) (was : List ProvEntry) (e : ProvEntry) : ProvEntry :=
  if e.home = h ∧ k ≤ e.seq then
    if e.holder then
      match was.find? (fun x => x.home == h && x.seq == e.seq && x.ord == e.ord) with
      | some x => { e with t := laterTime x.t e.t }
      | none => e
    else { e with holder := true, marks := [] }
  else e

/-- R140, R147: what the HALT late policy does on channel `c`, with its LATE record, argument `arg`. -/
def latePolicyHalt (step : Nat) (c : Chan) (arg : Nat) (now : Nat) (d : Device) : Device :=
  let d := d.statUpd c (fun s => { s with latecnt := satInc 32 s.latecnt, margin := 0 })
  enterSafe step c .halted now (raiseChn step c 0x02 0x03 arg now d)

/-- R147: RUN goes up by one; on reaching LIM the channel acts per ACT. -/
def countRevision (step : Nat) (h : Chan) (now : Nat) (d : Device) : Device :=
  let s := (d.chn.at h).stat
  let g := (d.chn.at h).cfg
  let run := satInc 8 s.run
  let lim := fld g.revlim 7 0
  let act := fld g.revlim 9 8
  let d := d.statUpd h (fun s => { s with rev := satInc 32 s.rev, run := run })
  if lim ≠ 0 ∧ s.run < lim ∧ lim ≤ run then
    let d := raiseChn step h 0x03 0x01 act now d
    if act = 1 then d.statUpd h (fun s => { s with frozen := true })
    else if act = 2 then latePolicyHalt step h 0 now d
    else d
  else d

/-- R137: what is kept of discarded segments for the re-run: their settled masks. -/
def keepSettled (k : Nat) (p : Prog) : List (Nat × BitVec 4) :=
  let gone := p.segs.filter (fun g => k ≤ g.seq)
  p.settled.filter (fun x => !gone.any (fun g => g.seq == x.1)) ++ gone.map (fun g => (g.seq, g.settled))

/-- R136 to R138: the program of home `h` is rewound to segment `k`. `old` is the device before the
recomputations of this boundary, for the old commit instants of the placeholders. -/
def revise (step : Nat) (h : Chan) (k : Nat) (old : Device) (now : Nat) (d : Device) : Device :=
  let p := (d.chn.at h).prog
  match p.segs.find? (fun g => k ≤ g.seq) with
  | none => d
  | some g =>
    let mine : ProvEntry → Bool := fun e => e.home == h && k ≤ e.seq
    let dl := d.earliest (old.provWhere mine ++ d.provWhere mine)
    let d := returnHeld ((p.segs.filter (fun g => k ≤ g.seq)).flatMap (fun g => g.held)) d
    let d := d.mapProv (fun c l => l.map (toHolder h k (old.chn.at c).prov))
    let d := abandon h d
    let d := d.progUpd h (fun p => { p with
      ctx := g.ckpt, wait := .runnable, segs := p.segs.filter (fun g => g.seq < k)
      nextSeq := k, settled := keepSettled k p, again := false })
    let dl := match dl with
      | some t => t.toNat
      | none => d.waitDeadline now h
    countRevision step h now (request h dl true d)

/-- R132, R133, R494: an entry stamped against the axis takes its time at the new epoch. -/
def recompute (ax : AxisSt) (e : ProvEntry) : ProvEntry :=
  match e.pos with
  | none => e
  | some p => { e with t := ax.p2t p.coast p.q, pos := some { p with epoch := ax.est.epoch } }

/-- R75, R133: the revision test of an action against its recomputed time. -/
def entryFails (ax : AxisSt) (e : ProvEntry) : Bool :=
  match e.pos with
  | none => false
  | some p => !e.holder && timeFails e.t (ax.p2t p.coast p.q) (ax.tolFor p.coast)

/-- R131: a tracked conversion made again at the new epoch. -/
def reconvert (ax : AxisSt) (c : Conv) : Conv :=
  { c with res := if c.t2p then ax.t2p c.arg.toNat else (ax.p2t false c.arg : Nat), epoch := ax.est.epoch }

/-- R133: the test of a tracked conversion. -/
def convFails (ax : AxisSt) (c : Conv) : Bool :=
  let n := reconvert ax c
  if c.t2p then ax.posFails c.res n.res (ax.tolFor false)
  else timeFails c.res.toNat n.res.toNat (ax.tolFor false)

/-- The home channels with an unreleased segment or a provisional entry. -/
def Device.specHomes (d : Device) : List Chan :=
  (fins 512).filter (fun c => !(d.chn.at c).prog.segs.isEmpty)

/-- R136: the programs whose segments fail are revised, each from its earliest failing segment. No rewind
occurs on a frozen channel (R147); an action that R71 would discard stays there with the time NEVER (DEDUCED, log 77). -/
def reviseAll (step : Nat) (fails forced : Chan → List Nat) (old : Device) (now : Nat) (d : Device) : Device :=
  d.specHomes.foldl (fun d h =>
    match leastBy id (if (d.chn.at h).stat.frozen then [] else fails h ++ forced h) with
    | none => d
    | some k => revise step h k old now d) d

/-- The entry is stamped against axis `a`. -/
def onAxis (a : Axis) (e : ProvEntry) : Bool :=
  match e.pos with
  | some p => p.ax == a
  | none => false

/-- R71: the segments that wrote the actions stamped against axis `a`. -/
def axisSegs (a : Axis) (d : Device) (h : Chan) : List Nat :=
  (d.provWhere (fun e => e.home == h && onAxis a e && !e.holder)).map (fun x => x.2.seq)

/-! ## Pending applies with a position (R117) -/

/-- R117: a pending ATMODE POS apply of channel `h` against axis state `ax` takes its time from it. -/
def applyTime (ax : AxisSt) (coast : Bool) (p : PendApply) : PendApply :=
  match p.pos with
  | some (a, q, raw) =>
    if ax.est.st = .steady ∨ (coast ∧ 2 ≤ ax.est.nfix ∧ ax.est.st ≠ .nofix) then
      let q' := q.getD (ax.target coast (signedOf 48 raw.toNat))
      { p with pos := some (a, some q', raw), t := ax.p2t coast q' }
    else { p with pos := some (a, if ax.est.st = .nofix then none else q, raw), t := never }
  | none => p

/-- R117: the pending apply of channel `c` takes its time from the axis state of this boundary. -/
def reApply (c : Chan) (d : Device) : Device :=
  match (d.chn.at c).cfg.pend with
  | some p =>
    match p.pos with
    | some (a, _, _) => d.cfgUpd c (fun g => { g with pend := some (applyTime (d.axs.at a) g.live.coast p) })
    | none => d
  | none => d

/-- R117: every pending apply against axis `a` takes its new time on a fix of the axis. -/
def reApplies (a : Axis) (d : Device) : Device :=
  ((fins 512).filter (fun c => match (d.chn.at c).cfg.pend with
    | some p => (match p.pos with | some x => x.1 == a | none => false)
    | none => false)).foldl (fun d c => reApply c d) d

/-- R132 to R134: the fix of axis `a` has taken effect at `now`; its dependents are recomputed and tested. With
`drop` the axis has restarted its acquisition (R63, R71): its actions are discarded and take the time NEVER. -/
def recomputeAxis (a : Axis) (drop : Bool) (now : Nat) (d : Device) : Device :=
  let ax := d.axs.at a
  let fails : Chan → List Nat := fun h =>
    (d.provWhere (fun e => e.home == h && onAxis a e && entryFails ax e)).map (fun x => x.2.seq) ++
    ((d.chn.at h).prog.segs.filter (fun g =>
      g.convs.any (fun c => c.ax == a && convFails ax c) || g.epochs.any (fun x => x.1 == a))).map (fun g => g.seq)
  let forced : Chan → List Nat := fun h => if drop then axisSegs a d h else []
  let again : ProvEntry → ProvEntry := fun e => if drop then { e with t := never } else recompute ax e
  let d' := d.mapProv (fun _ l => l.map (fun e => if onAxis a e then again e else e))
  let d' := d.specHomes.foldl (fun d h => d.progUpd h (fun p => { p with segs := p.segs.map (fun g =>
      { g with
        convs := g.convs.map (fun c => if c.ax = a then reconvert ax c else c)
        epochs := g.epochs.map (fun x => if x.1 = a then (a, ax.est.epoch, x.2.2) else x) }) })) (reApplies a d')
  reviseAll 3 fails forced d now d'

/-- R135: what the routine of home `h` wrote at `now` with an epoch older than its axis's is recomputed and tested. -/
def recomputeStale (h : Chan) (now : Nat) (d : Device) : Device :=
  let stale : ProvEntry → Bool := fun e =>
    match e.pos with
    | some p => !e.holder && e.home == h && e.wrote == now && p.epoch != (d.axs.at p.ax).est.epoch
    | none => false
  let axOf : ProvEntry → AxisSt := fun e => match e.pos with | some p => d.axs.at p.ax | none => AxisSt.reset
  let oldC : Conv → Bool := fun c => c.fresh && c.epoch != (d.axs.at c.ax).est.epoch
  let oldE : Axis × BitVec 32 × Bool → Bool := fun x => x.2.2 && x.2.1 != (d.axs.at x.1).est.epoch
  let fails : Chan → List Nat := fun h' =>
    if h' = h then
      (d.provWhere (fun e => stale e && entryFails (axOf e) e)).map (fun x => x.2.seq) ++
      ((d.chn.at h).prog.segs.filter (fun g =>
        g.convs.any (fun c => oldC c && convFails (d.axs.at c.ax) c) || g.epochs.any oldE)).map (fun g => g.seq)
    else []
  let d' := d.mapProv (fun _ l => l.map (fun e => if stale e then recompute (axOf e) e else e))
  let d' := d'.progUpd h (fun p => { p with segs := p.segs.map (fun g =>
      { g with
        convs := g.convs.map (fun c => { if oldC c then reconvert (d.axs.at c.ax) c else c with fresh := false })
        epochs := g.epochs.map (fun x => (x.1, if oldE x then (d.axs.at x.1).est.epoch else x.2.1, false)) }) })
  reviseAll 1 fails (fun _ => []) d now d'

/-- R71, R494: axis `a` has entered NOFIX: the actions stamped against it are discarded, their programs rewound
to the checkpoint before the first of them, with placeholders at NEVER. -/
def discardAxis (a : Axis) (now : Nat) (d : Device) : Device :=
  reviseAll 3 (fun _ => []) (axisSegs a d) d now
    (d.mapProv (fun _ l => l.map (fun e => if onAxis a e then { e with t := never } else e)))

end Sys2Proof.Machine
end

