-- ==== Sys2Proof/Machine/TimeBase.lean ====
section
/-! DEFINITION. The sextant time base, plant time, the time port and the keel counter (chapter 2, R443). -/

namespace Sys2Proof.Machine

open Sys2Proof

/-- R32: ticks per second. -/
def tkPerSec : Int := 8000000000

/-- R32: the plant tick count at machine time `m`, a signed 64-bit value. -/
def plantTicks (d : Device) (m : Nat) : Int := wrapS 64 ((m : Int) + d.stb.ofs)
/-- R32: plant seconds. -/
def plantSec (d : Device) (m : Nat) : Int := d.stb.epoch + Int.fdiv (plantTicks d m) tkPerSec
/-- R32: ticks within the second. -/
def plantRem (d : Device) (m : Nat) : Nat := (Int.fmod (plantTicks d m) tkPerSec).toNat
/-- R33: machine time of a plant stamp, before it is brought into 64 bits. -/
def plantToMachine (d : Device) (sec ns sub : Nat) : Int :=
  ((sec : Int) - d.stb.epoch) * tkPerSec + 8 * (ns : Int) + sub - d.stb.ofs

/-- R27: the RATE clamp. -/
def rateMax : Int := 219902325
def clampRate (r : Int) : Int := max (-rateMax) (min rateMax r)

/-- R44: the code of a servo state. -/
def Servo.code (s : Servo) : Nat :=
  match s with
  | .free => 0 | .coarse => 1 | .acq => 2 | .track => 3 | .locked => 4 | .holdover => 5

/-- R49: a TIME record on source 244. -/
def raiseTime (cause arg now : Nat) (d : Device) : Device := raise 2 244 0x0F cause arg now d

/-- R44: a change of STATE raises a STATE event. The count of consecutive misses outlasts it (DEDUCED, log 74). -/
def setServo (st : Servo) (now : Nat) (d : Device) : Device :=
  if d.stb.st = st then d
  else
    let d := { d with stb := { d.stb with st := st } }
    let d := if st = .holdover then { d with port := { d.port with holdsec := 0, holdAt := now } } else d
    raiseTime 0x01 st.code now { d with port := { d.port with lockCnt := 0, unlockCnt := 0 } }

/-- STB_CTL bits (R50). -/
def Stb.discEn (s : Stb) : Bool := bitOf s.ctl 0
def Stb.ttodEn (s : Stb) : Bool := bitOf s.ctl 2
def Stb.stepEn (s : Stb) : Bool := bitOf s.ctl 3
def Stb.anchorEn (s : Stb) : Bool := bitOf s.ctl 5
def Stb.coarseEn (s : Stb) : Bool := bitOf s.ctl 6

/-- R34: LSTEP saturates to ±(2^31 - 1). -/
def satStep (i : Int) : Int := max (-2147483647) (min 2147483647 i)

/-- R34, R42, R43: E and OFS change; the change is recorded and PLANT_STEP is raised. -/
def plantStep (e ofs : Int) (now : Nat) (d : Device) : Device :=
  let step := (e - d.stb.epoch) * tkPerSec + (ofs - d.stb.ofs)
  let d := { d with stb := { d.stb with epoch := e, ofs := ofs, lstep := satStep step } }
  raiseTime 0x07 (if step < 0 then 1 else 0) now d

/-- R50: RATE_CLAMPED shows whether RATE or integ stands at the clamp. -/
def Stb.showClamp (s : Stb) : Stb :=
  { s with rateClamped := s.integ.natAbs == rateMax.natAbs || s.rate.natAbs == rateMax.natAbs }

/-- R41: RATE and integ take clamped values, and RATE_CLAMP is raised when the clamp acts. -/
def setRate (integ rate : Int) (now : Nat) (d : Device) : Device :=
  let i := clampRate integ
  let r := clampRate rate
  let acts := i != integ || r != rate
  let d := { d with stb := { d.stb with integ := i, rate := r }.showClamp }
  if acts then raiseTime 0x08 0 now d else d

/-- R41: the servo update for phase error `e`. -/
def servoUpdate (e : Int) (now : Nat) (d : Device) : Device :=
  let eu := Int.fdiv (e * 140737) 1024
  let integ := d.stb.integ - Int.fdiv eu (2 ^ fld d.stb.servo 7 4)
  let i := clampRate integ
  let d' := setRate integ (i - Int.fdiv eu (2 ^ fld d.stb.servo 3 0)) now d
  d'

/-- R43: a forward step of OFS when the error is beyond STEPTHR and STEP_EN allows it, otherwise R41. -/
def stepOrSlew (e : Int) (now : Nat) (d : Device) : Device :=
  if e < -(d.stb.stepthr.toNat : Int) ∧ d.stb.stepEn then plantStep d.stb.epoch (d.stb.ofs - e) now d
  else servoUpdate e now d

/-- R40: phase error of an edge stamped `m` that belongs to second `s`. -/
def phaseError (d : Device) (m s : Int) : Int := (m + d.stb.ofs) - (s - d.stb.epoch) * tkPerSec

/-- A byte field of STB_ERRCNT counted up, saturating. -/
def errInc (i : Nat) (d : Device) : Device :=
  let w := d.port.errcnt
  { d with port := { d.port with errcnt := setFld w (8 * i + 7) (8 * i) (satInc 8 (fld w (8 * i + 7) (8 * i))) } }

/-- R36, R37: the machine time, in servo stamps, at which P reaches the next expected second. -/
def nextSecond (d : Device) : Int := (d.port.sec + 1 - d.stb.epoch) * tkPerSec - d.stb.ofs
/-- R36: the acceptance half-window in tk; 0 acts as 1 µs. -/
def ppsWin (d : Device) : Int := 8000 * (max 1 (fld d.stb.servo 31 16) : Nat)
/-- R35: STB_PDLY. -/
def pdly (d : Device) : Int := signedOf 32 d.stb.pdly.toNat

/-- R36: an edge stamped `stamp` is accepted in the present servo state; the window is judged on the stamp less STB_PDLY
(DEDUCED, log 74). -/
def ppsAccepted (d : Device) (stamp : Nat) : Bool :=
  match d.stb.st with
  | .track | .locked =>
    let e := (stamp : Int) - pdly d - nextSecond d
    decide (-(ppsWin d) ≤ e ∧ e ≤ ppsWin d)
  | _ => !d.port.hasPps || due (d.port.pps + 4000000000) stamp

/-- R42: the edge of an ACQ pair stamped `m`, with the second of its valid frame if there is one. -/
def acqEdge (m : Int) (sec : Option Nat) (now : Nat) (d : Device) : Device :=
  match sec with
  | none => { d with port := { d.port with m1 := none } }
  | some s2 =>
    let again := { d with port := { d.port with m1 := some (m, s2) } }
    match d.port.m1 with
    | none => again
    | some (m1, s1) =>
      let dm := m - m1
      if s2 = s1 + 1 ∧ tkPerSec - 1760000 ≤ dm ∧ dm ≤ tkPerSec + 1760000 then
        let i := -(Int.fdiv ((dm - tkPerSec) * 140737) 1024)
        let d := setRate i i now d
        let d := { d with stb := { d.stb with ptValid := true, ptCoarse := false, ctl := setFld d.stb.ctl 4 4 0 }
                          port := { d.port with m1 := none, sec := s2 } }
        setServo .track now (plantStep s2 (-m) now d)
      else again

/-- R40: a valid frame whose second differs from the inferred one raises TTOD_SEQ and is ignored. -/
def seqCheck (sec : Option Nat) (s : Int) (now : Nat) (d : Device) : Device :=
  match sec with
  | some f => if (f : Int) ≠ s then raiseTime 0x06 (f % 256) now (errInc 2 d) else d
  | none => d

/-- R43, R44: TRACK at an accepted edge. -/
def trackEdge (m : Int) (sec : Option Nat) (now : Nat) (d : Device) : Device :=
  let s := d.port.sec + 1
  let e := phaseError d m s
  let d := seqCheck sec s now d
  let d := { d with stb := { d.stb with pherr := satS 32 e }, port := { d.port with sec := s } }
  let d := stepOrSlew e now d
  let n := if e.natAbs ≤ fld d.stb.thr 15 0 then d.port.lockCnt + 1 else 0
  let d := { d with port := { d.port with lockCnt := n } }
  if max 1 (fld d.stb.servo 11 8) ≤ n then setServo .locked now d else d

/-- R41, R44, R46: LOCKED at an accepted edge. -/
def lockedEdge (m : Int) (sec : Option Nat) (now : Nat) (d : Device) : Device :=
  let s := d.port.sec + 1
  let e := phaseError d m s
  let d := seqCheck sec s now d
  let d := { d with stb := { d.stb with pherr := satS 32 e }, port := { d.port with sec := s } }
  let d := servoUpdate e now d
  let n := if fld d.stb.thr 31 16 < e.natAbs then d.port.unlockCnt + 1 else 0
  let d := { d with port := { d.port with unlockCnt := n, ancPend := d.port.ancPend || d.stb.anchorEn } }
  if 2 ≤ n then setServo .track now d else d

/-- R44: the second of an edge in HOLDOVER: the plant time of the edge, rounded to the nearest second. It is the previous
second plus 1 while edges come (DEDUCED, log 74: seconds without an edge are counted too). -/
def nearestSec (d : Device) (m : Int) : Int := d.stb.epoch + Int.fdiv (m + d.stb.ofs + 4000000000) tkPerSec

/-- R40, R44: HOLDOVER at an accepted edge. -/
def holdoverEdge (m : Int) (sec : Option Nat) (now : Nat) (d : Device) : Device :=
  let s := nearestSec d m
  let e := phaseError d m s
  let d := { d with stb := { d.stb with pherr := satS 32 e }, port := { d.port with sec := s } }
  match sec with
  | none => d
  | some f => if (f : Int) = s then setServo .track now (stepOrSlew e now d) else d

/-- R39, R50: a frame whose distance from the next accepted edge can no longer fail is the last valid frame. -/
def showFrame (f : TodFrame) (d : Device) : Device :=
  if f.shown || !f.valid then d
  else { d with
    stb := { d.stb with ttodOk := if f.newest then true else d.stb.ttodOk }
    port := { d.port with todSec := f.sec, todInfo := f.info } }

/-- R39: the frames that end at least 10 ms before the edge, the last valid of which the edge uses; the others are framing
errors, a frame with VALID = 0 too. -/
def takeFrames (stamp : Nat) (now : Nat) (d : Device) : Option Nat × Device :=
  let late := d.port.frames.filter (fun f => !due (f.stop + 80000000) stamp)
  let good := d.port.frames.filter (fun f => due (f.stop + 80000000) stamp)
  let d := good.foldr showFrame d
  let d := late.foldl (fun d _ => raiseTime 0x05 3 now (errInc 1 d)) d
  let d := { d with port := { d.port with frames := [] }
                    stb := if late.isEmpty then d.stb else { d.stb with ttodOk := false } }
  ((good.find? (fun f => f.valid)).map (fun f => f.sec), d)

/-- R39: frames that ended 10 ms ago, with no accepted edge since, become valid. -/
def todTick (now : Nat) (d : Device) : Device :=
  let old : TodFrame → Bool := fun f => due (f.stop + 80000000) now
  let d' := d.port.frames.foldr (fun f d => if old f then showFrame f d else d) d
  { d' with port := { d'.port with
      frames := d.port.frames.map (fun f => { f with shown := f.shown || old f }) } }

/-- R471: a bank of balls has its I/O supply. VIO6 feeds the time, boot and debug ports, VIO7 the host port and EVT_N. -/
def Device.ioOn (k : Fin 8) (d : Device) : Bool := d.pwr.vioIn.getLsbD k.val

/-- R35 to R43: a TPPS edge stamped `stamp`, of a pulse `width` tk long; STB_CTL.PPS_POL tells which edge is active. -/
def tppsEdge (rising : Bool) (stamp width : Nat) (now : Nat) (d : Device) : Device :=
  if rising == bitOf d.stb.ctl 1 || width < 800 || !d.ioOn 6 then d
  else if ppsAccepted d stamp then
    let m : Int := (stamp : Int) - pdly d
    let (sec, d) := takeFrames stamp now d
    let d := { d with port := { d.port with pps := stamp, hasPps := true, missCnt := 0 }
                      stb := { d.stb with ppsOk := true } }
    match d.stb.st with
    | .free | .coarse => d
    | .acq => acqEdge m sec now d
    | .track => trackEdge m sec now d
    | .locked => lockedEdge m sec now d
    | .holdover => holdoverEdge m sec now d
  else raiseTime 0x03 0 now (errInc 3 d)

/-- R37: the acceptance window of the expected edge has ended at `now`. -/
def ppsWindowEnded (now : Nat) (d : Device) : Bool :=
  (d.stb.st == .track || d.stb.st == .locked) && decide (nextSecond d + ppsWin d + pdly d ≤ (now : Int))

/-- R37, R44: one miss. -/
def ppsMiss (now : Nat) (d : Device) : Device :=
  if ppsWindowEnded now d then
    let n := d.port.missCnt + 1
    let d := errInc 3 { d with port := { d.port with missCnt := n, sec := d.port.sec + 1 }
                               stb := { d.stb with ppsOk := false } }
    let d := raiseTime 0x02 (min n 255) now d
    if max 1 (fld d.stb.servo 15 12) ≤ n then
      setServo .holdover now { d with stb := { d.stb with rate := d.stb.integ }.showClamp }
    else d
  else d

/-- R38: one bit of CRC-16/CCITT. -/
def crc16Bit (c : BitVec 16) (b : Bool) : BitVec 16 :=
  let x := (c <<< 1)
  if (c.msb != b) then x ^^^ 0x1021 else x

/-- R38: one byte, most significant bit first. -/
def crc16Byte (c : BitVec 16) (b : Byte) : BitVec 16 :=
  [7, 6, 5, 4, 3, 2, 1, 0].foldl (fun c i => crc16Bit c (b.getLsbD i)) c

/-- R38: CRC-16/CCITT, initial value 0xFFFF. -/
def crc16 (l : List Byte) : BitVec 16 := l.foldl crc16Byte 0xFFFF

/-- Bytes as a big-endian number. -/
def beNat (l : List Byte) : Nat := l.foldl (fun n b => n * 256 + b.toNat) 0

/-- R49: a framing error with its argument. -/
def ttodBad (arg : Nat) (now : Nat) (d : Device) : Device :=
  raiseTime 0x05 arg now (errInc 1 { d with stb := { d.stb with ttodOk := false } })

/-- R38, R39: a complete TTOD frame. Of several checks that fail the first in this order counts (DESIGN CHOICE, log 74:
R39 gives no order). -/
def ttodFrame (b : Tab Byte 12) (stopsOk : Bool) (gap : Nat) (endStamp : Nat) (now : Nat) (d : Device) : Device :=
  let l := b.toList
  let flags := b.at 1
  if !d.stb.ttodEn || !d.ioOn 6 then d
  else
  let d := { d with port := { d.port with frames := d.port.frames.map (fun f => { f with newest := false }) } }
  if b.at 0 ≠ 0xA5 then ttodBad 4 now d
  else if !stopsOk then ttodBad 1 now d
  else if 20 < gap then ttodBad 2 now d
  else if (crc16 (l.take 10)).toNat ≠ beNat (l.drop 10) then
    raiseTime 0x04 0 now (errInc 0 { d with stb := { d.stb with ttodOk := false } })
  else if fld flags 3 0 ≠ 1 then ttodBad 4 now d
  else if d.port.hasPps && !due (d.port.pps + 80000000) endStamp then ttodBad 3 now d
  else
    let f : TodFrame := { sec := beNat ((l.drop 2).take 6), info := w32 (flags.toNat * 65536 + beNat ((l.drop 8).take 2))
                          stop := endStamp, valid := bitOf flags 7, shown := false, newest := true }
    { d with
      stb := { d.stb with ttodOk := d.stb.ttodOk && f.valid }
      port := { d.port with frames := f :: d.port.frames } }

/-- R44: FREE and COARSE are left when DISC_EN and TTOD_EN are both 1. -/
def servoStart (now : Nat) (d : Device) : Device :=
  let s := d.stb
  if (s.st == .free || s.st == .coarse) && s.discEn && s.ttodEn then
    if !s.ptValid || s.ptCoarse then setServo .acq now { d with port := { d.port with m1 := none } }
    else if s.st == .free then
      setServo .track now { d with stb := { s with integ := s.rate }.showClamp
                                   port := { d.port with sec := plantSec d now } }
    else d
  else d

/-- R44: DISC_EN takes a value. -/
def setDiscEn (on : Bool) (now : Nat) (d : Device) : Device :=
  let was := d.stb.discEn
  let d := { d with stb := { d.stb with ctl := setFld d.stb.ctl 0 0 on.toNat } }
  if was && !on then
    let d := { d with stb := { d.stb with rateMan := d.stb.rate } }
    setServo (if d.stb.ptCoarse then .coarse else .free) now d
  else servoStart now d

/-- R50: REALIGN is set. -/
def setRealign (d : Device) : Device := { d with stb := { d.stb with ctl := setFld d.stb.ctl 4 4 1 } }

/-- R9, R44, R50: REALIGN written 1 is set until an alignment completes, and starts ACQ from TRACK, LOCKED or HOLDOVER. -/
def doRealign (now : Nat) (d : Device) : Device :=
  let d := setRealign d
  match d.stb.st with
  | .track | .locked | .holdover => setServo .acq now { d with port := { d.port with m1 := none } }
  | _ => d

/-- A write to STB_CTL (R44, R50). Where one write also clears DISC_EN, the first row of R44 alone applies. -/
def writeStbCtl (v : Word) (now : Nat) (d : Device) : Device :=
  let off := d.stb.discEn && !bitOf v 0
  let keep := setFld (d.stb.ctl &&& 0x11#32) 6 5 (fld v 6 5)
  let c := setFld (setFld keep 3 1 (fld v 3 1)) 31 7 0
  let d := { d with stb := { d.stb with ctl := c } }
  let d := if !bitOf v 4 then d else if off then setRealign d else doRealign now d
  setDiscEn (bitOf v 0) now d

/-- R44: RATE_MAN written; in FREE and COARSE RATE equals it. -/
def writeRateMan (v : Word) (d : Device) : Device :=
  let r := clampRate (signedOf 32 v.toNat)
  let st := d.stb.st
  { d with stb := { d.stb with
      rateMan := r, rate := if st = Servo.free ∨ st = Servo.coarse then r else d.stb.rate }.showClamp }

/-- R34, R48: the coarse start, at machine time 0; the change of plant time is recorded. -/
def coarseStart (now : Nat) (d : Device) : Device :=
  let k := d.keel
  if d.stb.coarseEn && k.ancValid && !k.keelLost then
    let a := k.anc.at k.ancCur
    let dk : Nat := (k.kcnt + 281474976710656 - a.cnt) % 281474976710656
    let ns := rnd ((dk : Int) * (1000000000 - signedOf 16 k.kxcal.toNat)) 32768 + a.sec * 1000000000 + a.ns
    let sec := Int.fdiv ns 1000000000
    let n := (Int.fmod ns 1000000000).toNat
    let ofs := 8 * (n : Int) - now
    let step := (sec - d.stb.epoch) * tkPerSec + (ofs - d.stb.ofs)
    let d := { d with
      stb := { d.stb with epoch := sec, ofs := ofs, lstep := satStep step, ptValid := true, ptCoarse := true }
      keel := { d.keel with cptSec := lowBits 48 sec, cptNs := n } }
    raiseTime 0x09 1 now (setServo .coarse now d)
  else if d.stb.coarseEn && k.keelLost then raiseTime 0x09 0 now d
  else d

/-- R30, R48: the PLL locks. The first lock after a cold reset sets machine time to 0 and ends the PLL phase. A lock, which
needs REFCLK edges, also sets REF_OK (DEDUCED, log 74). A device held in reset does not lock (R433). -/
def pllLocks (c : Nat × Core) : Nat × Core :=
  let d := c.2.dev
  if d.pwr.hold ≠ 0 then c else
  let d := { d with stb := { d.stb with pllLock := true, refOk := true } }
  if d.pwr.phase = .pll then
    (0, { c.2 with dev := coarseStart 0 { d with pwr := { d.pwr with phase := .fuse } } })
  else (c.1, { c.2 with dev := d })

/-- R29: REFCLK is lost. -/
def refLost (now : Nat) (d : Device) : Device :=
  if d.stb.refOk then
    haltAll 2 2 now (raise 2 245 0x0F 0x10 0 now { d with stb := { d.stb with refOk := false } })
  else d

/-- R29, R49: REFCLK returns; the REF fault persists. -/
def refRestored (now : Nat) (d : Device) : Device :=
  if d.stb.refOk then d else raise 2 245 0x0F 0x11 0 now { d with stb := { d.stb with refOk := true } }

/-- R29, R442: the PLL loses lock. -/
def pllUnlock (now : Nat) (d : Device) : Device :=
  if d.stb.pllLock then
    haltAll 2 2 now (raise 2 245 0x0F 0x12 0 now { d with stb := { d.stb with pllLock := false } })
  else d

/-- R28, R50: calibration finds a phase beyond 1/2 tk (8/16 tk). -/
def icalFails (cell : Nat) (worst : Nat) (now : Nat) (d : Device) : Device :=
  if 8 < worst then
    raise 2 245 0x0F 0x13 (cell % 256) now { d with
      stb := { d.stb with icalOk := false }
      port := { d.port with ical := w32 (worst + 256 * cell + 2147483648) } }
  else d

/-- R28, R50: every phase is within 1/2 tk; the largest error stands in cell `cell`. -/
def icalGood (cell worst : Nat) (d : Device) : Device :=
  if worst ≤ 8 then
    { d with stb := { d.stb with icalOk := true }
             port := { d.port with ical := setFld (setFld d.port.ical 7 0 worst) 23 8 cell } }
  else d

/-- R31: reading STB_MT_LO latches the other four registers. -/
def readMtLo (now : Nat) (d : Device) : Device :=
  let s := lowBits 48 (plantSec d now)
  let r := plantRem d now
  { d with
    port := { d.port with
      mtHi := hi32 now, ptNs := w32 (r / 8), ptSecLo := w32 s
      ptSecHi := w32 (s / 4294967296 + 65536 * (r % 8) + (if d.stb.ptValid then 2147483648 else 0)) }
    hps := { d.hps with dout := lo32 now } }

/-- R50: reading STB_OFS_LO latches OFS_HI and both EPOCH registers. -/
def readOfsLo (d : Device) : Device :=
  let o := lowBits 64 d.stb.ofs
  let e := lowBits 48 d.stb.epoch
  { d with port := { d.port with ofsHi := hi32 o, epLo := lo32 e, epHi := hi32 e }
           hps := { d.hps with dout := lo32 o } }

/-- R47: the XKEEL error is written every 64 s while LOCKED. -/
def kxcalUpdate (ppb : BitVec 16) (d : Device) : Device :=
  if d.stb.st = .locked then { d with keel := { d.keel with kxcal := ppb, xcalValid := true } } else d

/-- R45, R443: a keel power-on. -/
def keelPowersOn (d : Device) : Device := { d with keel := { Keel.powerOn with vkeelOk := true } }

/-- R443: no XKEEL edge for 1 ms. -/
def xkeelStops (d : Device) : Device :=
  { d with keel := { d.keel with xkeelRun := false }, port := { d.port with ancPend := false } }

/-- R443: XKEEL edges arrive. -/
def xkeelStarts (d : Device) : Device := { d with keel := { d.keel with xkeelRun := true } }

/-- R45, R443: VKEEL leaves its range: the counter does not run until it is back. -/
def vkeelLost (d : Device) : Device := { d with keel := { d.keel with vkeelOk := false } }

/-- R443: VKEEL is back in its range, without a keel power-on. -/
def vkeelBack (d : Device) : Device := { d with keel := { d.keel with vkeelOk := true } }

/-- R46: an anchor of the present keel count and plant time goes into the older slot, which becomes current. -/
def takeAnchor (now : Nat) (d : Device) : Device :=
  let k := d.keel
  let o : Fin 2 := if k.ancCur = 0 then 1 else 0
  let a : Anchor := ⟨k.kcnt, lowBits 48 (plantSec d now), plantRem d now / 8⟩
  { d with keel := { k with anc := k.anc.put o a, ancCur := o, ancValid := true }
           port := { d.port with ancPend := false } }

/-- R45, R46: an XKEEL edge falls in this base period, or not, as the free value says. -/
def keelTick (now : Nat) (d : Device) : Device :=
  if d.keel.vkeelOk && d.keel.xkeelRun then
    let e := Config.xkeelEdge d.free
    let d := { d with free := d.free + 1 }
    if e then
      let d := { d with keel := { d.keel with kcnt := (d.keel.kcnt + 1) % 281474976710656 } }
      if d.port.ancPend then takeAnchor now d else d
    else d
  else d

/-- R43: STB_HOLDSEC counts the whole seconds spent in HOLDOVER. -/
def holdTick (now : Nat) (d : Device) : Device :=
  if d.stb.st = .holdover ∧ due (d.port.holdAt + 8000000000 * (d.port.holdsec + 1)) now then
    { d with port := { d.port with holdsec := (d.port.holdsec + 1) % 2 ^ 32 } }
  else d

/-! ## The commands -/

def execPllLock (s : State) : Host.Outcome State Fault Refusal :=
  let r := pllLocks (s.mt, s.core)
  .next { s with mt := r.1, core := r.2 }
def execRefLost (s : State) : Host.Outcome State Fault Refusal := s.runDev refLost
def execRefRestored (s : State) : Host.Outcome State Fault Refusal := s.runDev refRestored
def execPllUnlock (s : State) : Host.Outcome State Fault Refusal := s.runDev pllUnlock
def execIcalFail (cell : Fin 288) (worst : Byte) (s : State) : Host.Outcome State Fault Refusal :=
  s.runDev (icalFails cell.val worst.toNat)
def execIcalOk (cell : Fin 288) (worst : Byte) (s : State) : Host.Outcome State Fault Refusal :=
  s.runDev (fun _ => icalGood cell.val worst.toNat)
def execMtLoRead (s : State) : Host.Outcome State Fault Refusal := s.runDev readMtLo
def execOfsLoRead (s : State) : Host.Outcome State Fault Refusal := s.runDev (fun _ => readOfsLo)
def execTppsEdge (rising : Bool) (stamp : DWord) (width : Word) (s : State) : Host.Outcome State Fault Refusal :=
  s.runDev (tppsEdge rising stamp.toNat width.toNat)
def execPpsMissing (s : State) : Host.Outcome State Fault Refusal := s.runDev ppsMiss
def execTtodFrame (bytes : Tab Byte 12) (stopsOk : Bool) (gapBits : BitVec 16) (endStamp : DWord) (s : State) :
    Host.Outcome State Fault Refusal := s.runDev (ttodFrame bytes stopsOk gapBits.toNat endStamp.toNat)
def execDiscEn (on : Bool) (s : State) : Host.Outcome State Fault Refusal := s.runDev (setDiscEn on)
def execRealign (s : State) : Host.Outcome State Fault Refusal := s.runDev doRealign
def execKxcalUpdate (ppb : BitVec 16) (s : State) : Host.Outcome State Fault Refusal :=
  s.runDev (fun _ => kxcalUpdate ppb)
def execKeelPowerOn (s : State) : Host.Outcome State Fault Refusal := s.runDev (fun _ => keelPowersOn)
def execXkeelStopped (s : State) : Host.Outcome State Fault Refusal := s.runDev (fun _ => xkeelStops)
def execXkeelStart (s : State) : Host.Outcome State Fault Refusal := s.runDev (fun _ => xkeelStarts)
def execVkeelLoss (s : State) : Host.Outcome State Fault Refusal := s.runDev (fun _ => vkeelLost)

end Sys2Proof.Machine
end

