-- ==== Sys2Proof/Machine/Axes.lean ====
section
/-! DEFINITION. Axes: fix sources, the fix queue, acceptance, states and timeouts (chapter 3). -/

namespace Sys2Proof.Machine

open Sys2Proof

/-- R80: a record of axis `a`. -/
def raiseAx (a : Axis) (kind cause arg now : Nat) (d : Device) : Device :=
  raise 3 (64 + a.val) kind cause arg now d

/-! ## The fix queue (R60) -/

/-- R60: order of two waiting fixes: arrival, then stamp, then axis number. -/
def FixReq.before (f g : FixReq) : Bool :=
  f.arrive < g.arrive || (f.arrive == g.arrive && (f.t < g.t || (f.t == g.t && f.ax.val < g.ax.val)))

/-- R62: a rejected fix is counted, its cause recorded and FIX-REJECT raised with `arg`. -/
def rejectFix (a : Axis) (cause arg : Nat) (now : Nat) (d : Device) : Device :=
  raiseAx a 0x06 cause arg now
    (d.estUpd a (fun e => { e with rejCnt := satInc 16 e.rejCnt, rejCause := cause }))

/-- R60, R61 check 3: a fix `(z, t)` is delivered to an enabled axis, with a cause already found (0 for none); `edge` for
one that a counting edge made. -/
def deliverFixAs (edge : Bool) (a : Axis) (z : Int) (t arrive pre : Nat) (now : Nat) (d : Device) : Device :=
  if !(d.axs.at a).reg.en then d
  else if 64 ≤ d.dr.q.length then rejectFix a 7 0 now d
  else
    let pre := if pre = 0 ∧ arrive + 4294967296 < t then 4 else pre
    let f : FixReq := ⟨a, z, t, arrive, pre, edge⟩
    { d with dr := { d.dr with q := insertBefore (fun g => FixReq.before f g) f d.dr.q } }

/-- R60: a fix of any other source. -/
def deliverFix (a : Axis) (z : Int) (t arrive pre : Nat) (now : Nat) (d : Device) : Device :=
  deliverFixAs false a z t arrive pre now d

/-! ## Acceptance (R61 to R70) -/

/-- R61: exact `|vm| > VMAX`. -/
def velFails (r : AxRegs) (vm : Vel) : Bool :=
  r.vmax ≠ 0 && decide (r.vmax.toNat * 65536 * vm.den < vm.num.natAbs * 8000000000)

/-- R61: exact `|vm - vm_prev| / dt > AMAX`. -/
def accFails (r : AxRegs) (vm vp : Vel) (dt : Nat) : Bool :=
  r.amax ≠ 0 && decide (r.amax.toNat * 65536 * vm.den * vp.den * dt <
    (vm.num * vp.den - vp.num * vm.den).natAbs * 64000000000000000000)

/-- R61: the cause that rejects a fix, 0 for none, and the velocity vm it gives. -/
def checkFix (ax : AxisSt) (z : Int) (t pre : Nat) : Nat × Option Vel :=
  if pre ≠ 0 then (pre, none)
  else
    match ax.est.last with
    | [] => (0, none)
    | (zf, tf) :: _ =>
      if t < tf + 256 then (3, none)
      else
        let vm : Vel := ⟨wrapM ax.reg.m (z - zf), t - tf⟩
        if velFails ax.reg vm then (1, some vm)
        else match ax.est.vm with
          | some vp => if accFails ax.reg vm vp (t - tf) then (2, some vm) else (0, some vm)
          | none => (0, some vm)

/-- R70: the axis enters NOFIX: estimate and NFIX cleared, dependents discarded (R71). -/
def enterNofix (a : Axis) (now : Nat) (d : Device) : Device :=
  let was := (d.axs.at a).est.st
  let d := d.estUpd a (fun e => { e.clear with st := .nofix })
  if was = .nofix then d else discardAxis a now d

/-- R53: OVERRANGE. -/
def overrangeFix (a : Axis) (now : Nat) (d : Device) : Device :=
  let d := d.estUpd a (fun e => { e with ovr := true })
  raiseAx a 0x04 0x22 0 now (enterNofix a now d)

/-- R70: the state an accepted fix number `n` leads to. -/
def nextAxState (st : AxState) (n : Nat) (ok : Bool) : AxState :=
  match st with
  | .steady => .steady
  | _ => if 4 ≤ n ∧ ok then .steady else .acquiring

/-- R64, R66, R67, R69: the estimate after the accepted fix number `n`. -/
def acceptEst (ax : AxisSt) (n : Nat) (z : Int) (t : Nat) (vm : Option Vel) (now : Nat) : AxEst :=
  let (x, v, a, r, ok) := ax.update n z t
  let e := ax.est
  let (tu, xr) := splitX ax.reg.m x
  { e with
    st := nextAxState e.st n ok, nfix := min n 15, fixlate := false, epoch := e.epoch + 1, tf := t
    x := xr, turns := tu, v := v, a := a
    res := match r with
      | some r => satS 32 (rnd r 36893488147419103232)
      | none => e.res
    consec := 0, last := (z, t) :: e.last.take 1, t1 := if n = 1 then t else e.t1
    vm := if n = 1 then none else vm, origin := now, zprev := z }

/-- R63, R66 to R71: the fix is accepted. With `again` it restarts the acquisition as fix 1. -/
def acceptFix (a : Axis) (z : Int) (t : Nat) (vm : Option Vel) (again : Bool) (now : Nat) (d : Device) : Device :=
  let d := if again then d.estUpd a AxEst.clear else d
  let ax := d.axs.at a
  let n := if ax.est.st = .nofix then 1 else ax.est.nfix + 1
  if overrange ax.reg.m (ax.update n z t).1 then overrangeFix a now d
  else
    let e := acceptEst ax n z t vm now
    let e := if again then { e with st := .acquiring } else e
    recomputeAxis a again now (d.estUpd a (fun _ => e))

/-- R63: the axis as it starts a new acquisition. -/
def AxisSt.restart (ax : AxisSt) : AxisSt := { ax with est := ax.est.clear }

/-- R61 to R63: the unit checks a fix and takes or rejects it. -/
def processFix (f : FixReq) (now : Nat) (d : Device) : Device :=
  let ax := d.axs.at f.ax
  if !ax.reg.en then d
  else
    let z := reduceM ax.reg.m f.z
    let (cause, vm) := checkFix ax z f.t f.pre
    if cause = 0 then acceptFix f.ax z f.t vm false now d
    else if cause = 1 ∨ cause = 2 then
      let c := satInc 4 ax.est.consec
      let d := rejectFix f.ax cause c now (d.estUpd f.ax (fun e => { e with consec := c }))
      let lim := fld ax.reg.lim 3 0
      if lim ≠ 0 ∧ lim ≤ c then
        -- R70: where the fix is out of range as well, the row of OVERRANGE stands first
        if overrange ax.reg.m (ax.restart.update 1 z f.t).1 then overrangeFix f.ax now d
        else acceptFix f.ax z f.t none true now (raiseAx f.ax 0x04 0x20 lim now d)
      else d
    else rejectFix f.ax cause 0 now d

/-- R60: the unit takes one fix per base period, the first that has arrived. -/
def takeFix (now : Nat) (d : Device) : Device :=
  if d.dr.taken then d
  else
    match d.dr.q with
    | [] => d
    | f :: q => if due f.arrive now then processFix f now { d with dr := ⟨q, true⟩ } else d

/-! ## Enable, clear and timeout -/

/-- R51: a refused enable or locked write sets CFGIGN. -/
def axCfgign (a : Axis) (d : Device) : Device := d.estUpd a (fun e => { e with cfgign := true })

/-- R52: EN may go to 1. -/
def axEnOk (r : AxRegs) : Bool := !(r.modulo && r.m == 0)

/-- R55, R57: the count that AXS_ZPOS stands for. -/
def zposCount (r : AxRegs) : Int := reduceM r.m (signedOf 32 r.zpos.toNat * 65536)

/-- R96: the logical filtered level of an input. -/
def inLevel (d : Device) (c : Nat) : Bool :=
  let h := d.chn.at (Fin.ofNat 512 c)
  h.pin.inp != h.cfg.inv

/-- R55, R69, R72: EN goes from 0 to 1. FIXLATE is cleared with the estimate (DEDUCED, log 75). -/
def axisEn1 (a : Axis) (now : Nat) (d : Device) : Device :=
  let r := (d.axs.at a).reg
  if r.en then d
  else if !axEnOk r then axCfgign a d
  else d.axUpd a (fun x => { x with
    reg := { x.reg with en := true }
    est := { x.est.clear with st := .nofix, epoch := 0, fixlate := false, origin := now }
    quad := { QuadDec.reset with
      count := zposCount r, count0 := zposCount r, a := inLevel d r.srcidx, b := inLevel d (r.srcidx + 1), enAt := now } })

/-- R70, R72: EN goes from 1 to 0. -/
def axisEn0 (a : Axis) (now : Nat) (d : Device) : Device :=
  if (d.axs.at a).reg.en then
    let d := enterNofix a now (d.axUpd a (fun x => { x with reg := { x.reg with en := false } }))
    { d with dr := { d.dr with q := d.dr.q.filter (fun f => f.ax != a) } }
  else d

/-- R72: the register writes to AXS_CTL of this boundary take effect, after its fix. -/
def axisPending (now : Nat) (d : Device) : Device :=
  (fins 64).foldl (fun d a =>
    let r := (d.axs.at a).reg
    if r.enPend = none ∧ r.clrPend = false then d
    else
      let d := d.axUpd a (fun x => { x with reg := { x.reg with enPend := none, clrPend := false } })
      let d := if r.clrPend then enterNofix a now d else d
      match r.enPend with
      | some true => axisEn1 a now d
      | some false => axisEn0 a now d
      | none => d) d

/-- R64: the fix timeout of an axis falls due. -/
def timeoutDue (ax : AxisSt) (now : Nat) : Bool :=
  let tmo := fld ax.reg.lim 31 16
  ax.reg.en && tmo ≠ 0 && !ax.est.fixlate && due (ax.est.origin + 8000 * tmo) now

/-- R64: FIXLATE is set, TIMEOUT raised, and NOFIX entered with TMO_DROP. -/
def fixTimeout (a : Axis) (now : Nat) (d : Device) : Device :=
  let ax := d.axs.at a
  if timeoutDue ax now then
    let d := d.estUpd a (fun e => { e with fixlate := true })
    if ax.reg.tmoDrop && ax.est.st != .nofix then raiseAx a 0x04 0x21 1 now (enterNofix a now d)
    else raiseAx a 0x04 0x21 0 now d
  else d

/-! ## Quadrature (R55 to R57) -/

/-- R55: a new base period begins for the decoder. -/
def QuadDec.start (q : QuadDec) (per : Nat) : QuadDec :=
  if q.per = some per then q
  else { q with per := some per, perA := false, perB := false, count0 := q.count, fix0 := q.lastFix, edge0 := q.lastEdge }

/-- R55: the direction of a transition, before DIR: up when A leads B. -/
def QuadDec.up (q : QuadDec) (isA lvl : Bool) : Bool := if isA then lvl != q.b else q.a == lvl

/-- R56: the stamp lies at least FIXINT base periods after the previous fix. -/
def fixSpaced (r : AxRegs) (q : QuadDec) (t : Nat) : Bool :=
  match q.lastFix with
  | none => true
  | some f => f + 32 * fld r.quad 15 0 ≤ t

/-- R55, R56: a transition of A (`isA`) or B of axis `a` to logical level `lvl`, stamped `t`. -/
def quadTransition (a : Axis) (isA lvl : Bool) (t : Nat) (now : Nat) (d : Device) : Device :=
  let ax := d.axs.at a
  let r := ax.reg
  let q := ax.quad.start (t / 32)
  if (if isA then q.a else q.b) = lvl then d
  else
    let q1 := { q with
      a := if isA then lvl else q.a, b := if isA then q.b else lvl
      perA := q.perA || isA, perB := q.perB || !isA }
    if q1.perA && q1.perB then
      -- R55: a quadrature error leaves the count as it was before the base period
      let new := !(q.perA && q.perB)
      let d := d.axUpd a (fun x => { x with
        est := { x.est with qerr := true }
        quad := { q1 with count := q.count0, lastFix := q.fix0, lastEdge := q.edge0 } })
      let d := { d with dr := { d.dr with q := d.dr.q.filter (fun f => !(f.ax == a && f.edge && f.t / 32 == t / 32)) } }
      if new then raiseAx a 0x04 0x23 0 now d else d
    else
      let up := q.up isA lvl != r.dir
      let c := if up then q.count + 65536 else q.count - 65536
      let fix := fixSpaced r q t
      let d := d.axUpd a (fun x => { x with quad := { q1 with
        count := if r.m = 0 then fitS 48 c else reduceM r.m c
        lastEdge := some t, lastFix := if fix then some t else q.lastFix } })
      if fix then deliverFixAs true a (max q.count c) t (max (ceil32 t) now) 0 now d else d

/-- R55: the axes, enabled with SRC QUAD, that take channel `c` as their input number `role`. -/
def quadAxes (d : Device) (c role : Nat) : List Axis :=
  (fins 64).filter (fun a =>
    let r := (d.axs.at a).reg
    r.en && r.src == 1 && r.srcidx + role == c && (role != 2 || r.zmode != 0))

/-- R96, R55: a filtered transition of a channel in QUAD_FEED reaches the decoders. `lvl` is the ball level. -/
def quadEdge (c : Chan) (lvl : Bool) (t : Nat) (now : Nat) (d : Device) : Device :=
  let h := d.chn.at c
  if h.cfg.en && h.cfg.mode == 13 then
    let l := lvl != h.cfg.inv
    let d := d.pinUpd c (fun p => { p with inp := lvl })
    let d := (quadAxes d c.val 0).foldl (fun d a => quadTransition a true l t now d) d
    (quadAxes d c.val 1).foldl (fun d a => quadTransition a false l t now d) d
  else d

/-- R56: the time at which the standstill interval of an axis expires. -/
def stillAt (ax : AxisSt) : Option Nat :=
  let still := fld ax.reg.quad 31 16
  if ax.reg.en && ax.reg.src == 1 && still ≠ 0 then
    let from' := match ax.quad.lastFix, ax.quad.lastEdge with
      | some f, some e => max f e
      | some f, none => f
      | none, some e => e
      | none, none => ax.quad.enAt
    some (ceil32 (from' + 8000 * still))
  else none

/-- R56: a standstill fix at count + 0.5, stamped with the boundary at which STILL expired. Where STILL was lowered or set
again after its new interval had passed, that boundary lies in the past, and the fixes missed follow one at each boundary
(DEDUCED, log 75). -/
def standstill (a : Axis) (now : Nat) (d : Device) : Device :=
  let ax := d.axs.at a
  match stillAt ax with
  | some t =>
    if due t now then
      deliverFix a (ax.quad.count + 32768) t now 0 now
        (d.axUpd a (fun x => { x with quad := { x.quad with lastFix := some t } }))
    else d
  | none => d

/-- R57: a rising Z edge sets the count to ZPOS under REF_ONCE (the first after EN) and REF_ALL; a quadrature error of the
same base period leaves it there. -/
def zEdge (c : Chan) (d : Device) : Device :=
  (quadAxes d c.val 2).foldl (fun d a =>
    d.axUpd a (fun x =>
      let z := x.reg.zmode
      if z = 3 ∨ (z = 2 ∧ x.quad.refDone = false) then
        { x with quad := { x.quad with count := zposCount x.reg, count0 := zposCount x.reg, refDone := true } }
      else x)) d

/-! ## Other sources -/

/-- R58: Gray code to binary. -/
def grayDecode (w : Word) : Word :=
  let a := w ^^^ (w >>> 16)
  let a := a ^^^ (a >>> 8)
  let a := a ^^^ (a >>> 4)
  let a := a ^^^ (a >>> 2)
  a ^^^ (a >>> 1)

/-- R58: the position, in 2^-16 counts, of a raw serial word. BITS of 0 and of 33 to 63 act as 32, a linear axis with 32 bits
reads the word as signed, and the previous accepted z is the one at delivery, kept across NOFIX and 0 before any
(DEDUCED, log 75). -/
def serialPos (ax : AxisSt) (raw : Word) : Int :=
  let n0 := fld ax.reg.ser 5 0
  let n := if n0 = 0 ∨ 32 < n0 then 32 else n0
  let low : Word := w32 (raw.toNat % 2 ^ n)
  let v := if bitOf ax.reg.ser 8 then grayDecode low else low
  let r : Int := if ax.reg.dir then -(v.toNat : Int) else v.toNat
  if ax.reg.modulo then r * 65536
  else if n = 32 then wrapS 32 r * 65536
  else
    let p : Int := ((2 ^ n * 65536 : Nat) : Int)
    r * 65536 + Int.fdiv (2 * (ax.est.zprev - r * 65536) + p) (2 * p) * p

/-- R54, R274: a POST of clove engine `n` is delivered to every enabled axis that names it. -/
def postFix (n : CloveNo) (raw : Word) (t : Nat) (now : Nat) (d : Device) : Device :=
  ((fins 64).filter (fun a =>
    let r := (d.axs.at a).reg
    r.en && r.src == 2 && r.srcidx == n.val)).foldl
    (fun d a => deliverFix a (serialPos (d.axs.at a) raw) t now 0 now d) d

/-- R54, R302: a feedback frame is delivered to every enabled axis that names its index. -/
def linkFix (idx : Nat) (z : Int) (t : Nat) (now : Nat) (d : Device) : Device :=
  ((fins 64).filter (fun a =>
    let r := (d.axs.at a).reg
    r.en && r.src == 3 && r.srcidx == idx)).foldl (fun d a => deliverFix a z t now 0 now d) d

/-- R59, R61: a write to AXS_VM_GO. A plant stamp that R33 converts to a time outside 64 bits wraps (DEDUCED, log 75). -/
def vmGo (a : Axis) (tscale : Bool) (now : Nat) (d : Device) : Device :=
  let r := (d.axs.at a).reg
  if !r.en then d
  else
    let z := signedOf 48 (r.vmPosLo.toNat + 4294967296 * fld r.vmPosHi 15 0)
    if r.src ≠ 4 then deliverFix a z now now 6 now d
    else if tscale then deliverFix a z (join64 r.vmTLo r.vmTHi) now 0 now d
    else if !d.stb.ptValid then deliverFix a z now now 5 now d
    else
      let sec := r.vmTLo.toNat + 4294967296 * fld r.vmTHi 15 0
      let t := lowBits 64 (plantToMachine d sec (fld r.vmNs 29 0) (fld r.vmTHi 18 16))
      deliverFix a z t now 0 now d

/-! ## The commands -/

def execAxisEnable (ax : Axis) (s : State) : Host.Outcome State Fault Refusal :=
  s.runDev (fun now d => axisEn1 ax now (takeFix now d))
def execAxisDisable (ax : Axis) (s : State) : Host.Outcome State Fault Refusal :=
  s.runDev (fun now d => axisEn0 ax now (takeFix now d))
def execClr (ax : Axis) (s : State) : Host.Outcome State Fault Refusal :=
  s.runDev (fun now d => enterNofix ax now (takeFix now d))
def execStandstillFix (ax : Axis) (s : State) : Host.Outcome State Fault Refusal := s.runDev (standstill ax)
def execVmGo (ax : Axis) (tscale : Bool) (s : State) : Host.Outcome State Fault Refusal := s.runDev (vmGo ax tscale)
def execFixTakesEffect (s : State) : Host.Outcome State Fault Refusal := s.runDev takeFix
def execFixTimeout (ax : Axis) (s : State) : Host.Outcome State Fault Refusal := s.runDev (fixTimeout ax)

end Sys2Proof.Machine
end

