-- ==== Sys2Proof/Machine/Capture.lean ====
section
/-! DEFINITION. Capture: the FIFO, the capture modes and register-mark windows (R96, R103 to R107). -/

namespace Sys2Proof.Machine

open Sys2Proof

/-! ## The FIFO (R103, R105, R106) -/

/-- R103: a measurement saturates at 0xFFFF_FFFF. -/
def capVal (v : Option Nat) : Nat × Bool :=
  match v with
  | some v => if v < 4294967296 then (v, false) else (4294967295, true)
  | none => (4294967295, true)

/-- R105: a capture entry is written, or dropped with COVF. `val` is none for the first entry after enable. -/
def capWrite (c : Chan) (stamp : Nat) (val : Option Nat) (edge miss multi : Bool) (now : Nat) (d : Device) : Device :=
  let h := d.chn.at c
  if 16 ≤ h.pin.cap.length then
    let d := d.chnUpd c (fun h => { h with stat := { h.stat with covf := true }, pin := { h.pin with lostDue := true } })
    if bitOf h.cfg.even 1 then raiseChn 4 c 0x04 0x33 0 now d else d
  else
    let (v, sat) := capVal val
    d.pinUpd c (fun p => { p with
      cap := p.cap ++ [⟨stamp, v, edge, p.lostDue, miss, multi, sat⟩], lostDue := false })

/-- R121: the attribute word of a capture entry with `left` entries remaining. -/
def CapEntry.attr (e : CapEntry) (left : Nat) : Word :=
  w32 (e.edge.toNat + 2 * e.lost.toNat + 4 * e.miss.toNat + 8 * e.multi.toNat + 16 * e.sat.toNat +
    65536 * (left % 32) + 2147483648)

/-- R106, R121: what a host read of CHN_CAP_ATTR latches; with CAPOWN = 1 the head is consumed. -/
def capRead (h : Channel) : Channel :=
  match h.pin.cap with
  | [] => { h with pin := { h.pin with attrL := 0, stampL := 0, valL := 0 } }
  | e :: l =>
    let own := h.cfg.live.capown
    let l' := if own then l else e :: l
    { h with pin := { h.pin with
        attrL := e.attr l'.length, stampL := e.stamp, valL := e.val, cap := l'
        capHeld := if own then h.pin.capHeld - 1 else h.pin.capHeld } }

/-- R106: a host read of CHN_CAP_ATTR. -/
def capAttrRead (c : Chan) (d : Device) : Device :=
  let d := d.chnUpd c capRead
  { d with hps := { d.hps with dout := (d.chn.at c).pin.attrL } }

/-! ## Modes (R104) -/

/-- R104: an edge to level `l` is a selected (active) edge under EDGE. -/
def edgeSelected (edge : Nat) (l : Bool) : Bool :=
  match edge with
  | 0 => l
  | 1 => !l
  | 2 => true
  | _ => false

/-- CAP_EDGE: an entry with the time since the previous selected edge. -/
def capEdge (c : Chan) (l : Bool) (t : Nat) (now : Nat) (d : Device) : Device :=
  let p := (d.chn.at c).pin.prevSel
  capWrite c t (p.map (fun a => t - a)) l false false now (d.pinUpd c (fun x => { x with prevSel := some t }))

/-- CAP_PERIOD: an entry at each active edge but the first. -/
def capPeriod (c : Chan) (l : Bool) (t : Nat) (now : Nat) (d : Device) : Device :=
  let p := (d.chn.at c).pin.prevSel
  let d := d.pinUpd c (fun x => { x with prevSel := some t })
  match p with
  | some a => capWrite c t (some (t - a)) l false false now d
  | none => d

/-- CAP_WIDTH: an entry at the edge that ends an active-level pulse whose start was seen. -/
def capWidth (c : Chan) (act l : Bool) (t : Nat) (now : Nat) (d : Device) : Device :=
  if l = act then d.pinUpd c (fun x => { x with actAt := some t })
  else
    match (d.chn.at c).pin.actAt with
    | some a => capWrite c t (some (t - a)) l false false now (d.pinUpd c (fun x => { x with actAt := none }))
    | none => d

/-- R104: `⌊active × 2^32 / period⌋`; over a period of no ticks the manual states no value (log entry 5). -/
def dutyVal (on per : Nat) : Nat := if per = 0 then lowBits 32 (Config.outside 32 on) else on * 4294967296 / per

/-- CAP_DUTY: an entry at each active edge that ends a period whose start was seen. -/
def capDuty (c : Chan) (act l : Bool) (t : Nat) (now : Nat) (d : Device) : Device :=
  let p := (d.chn.at c).pin
  let on := p.actSum + (match p.actAt with | some a => t - a | none => 0)
  if l = act then
    let d := d.pinUpd c (fun x => { x with prevSel := some t, actAt := some t, actSum := 0 })
    match p.prevSel with
    | some a => capWrite c t (some (dutyVal on (t - a))) l false false now d
    | none => d
  else d.pinUpd c (fun x => { x with actAt := none, actSum := on })

/-! ## Windows (R107) -/

/-- An open or waiting window: its entry. -/
def CommEntry.isWin (e : CommEntry) : Bool := e.ty == .capwin

/-- R107: of two windows `f` is the later: a later T, or the same T and committed later. -/
def laterWin (i : Nat) (e : CommEntry) (j : Nat) (f : CommEntry) : Bool :=
  f.isWin && (e.t < f.t || (e.t == f.t && i < j))

/-- R107: the close tick C of the window at place `i` of the committed queue. -/
def closeTick (q : List CommEntry) (i : Nat) (e : CommEntry) : Nat :=
  ((q.zipIdx).filter (fun x => laterWin i e x.2 x.1)).foldl (fun m x => min m x.1.t) (e.t + e.w)

/-- R107: a selected edge falls into the window [T, C) that holds its stamp. -/
def markEdge (t : Nat) (l : Bool) (q : List CommEntry) : List CommEntry :=
  (q.zipIdx).map (fun x =>
    let e := x.1
    if e.isWin && e.t ≤ t && t < closeTick q x.2 e then
      { e with first := match e.first with
                 | none => some (t, l)
                 | some f => some f
               nEdge := e.nEdge + 1 }
    else e)

/-- R107: the place and close tick of the first window whose close tick has come. -/
def dueWindow (q : List CommEntry) (now : Nat) : Option (Nat × CommEntry × Nat) :=
  leastBy (fun x => x.2.2)
    (((q.zipIdx).map (fun x => (x.2, x.1, closeTick q x.2 x.1))).filter
      (fun x => x.2.1.isWin && decide (ceil32 x.2.2 ≤ now)))

/-- The list without its entry at place `i`. -/
def dropAt {α : Type} (l : List α) (i : Nat) : List α := l.take i ++ l.drop (i + 1)

/-- R104, R107: a window whose close tick has come writes its entry and retires (R92). -/
def windowClose (c : Chan) (now : Nat) (d : Device) : Device :=
  let h := d.chn.at c
  match dueWindow h.comm now with
  | none => d
  | some (i, e, k) =>
    let d := d.chnUpd c (fun h => { h with comm := dropAt h.comm i })
    match e.first with
    | some (t, l) => capWrite c t (some (t - e.t)) l false (decide (1 < e.nEdge)) now d
    | none => capWrite c k (some (k - e.t)) false true false now d

/-! ## Input edges (R96) -/

/-- R104: an edge to logical level `l`, stamped `t`, reaches the capture logic of an enabled channel. -/
def captureEdge (c : Chan) (l : Bool) (t : Nat) (now : Nat) (d : Device) : Device :=
  let h := d.chn.at c
  if !h.cfg.en then d
  else
    let ed := h.cfg.live.edge
    let act := ed != 1
    match h.cfg.mode.toNat with
    | 8 => if edgeSelected ed l then capEdge c l t now d else d
    | 9 => if edgeSelected ed l then capPeriod c l t now d else d
    | 10 => capWidth c act l t now d
    | 11 => capDuty c act l t now d
    | 12 => if edgeSelected ed l then d.chnUpd c (fun h => { h with comm := markEdge t l h.comm }) else d
    | 14 => capEdge c l t now d
    | _ => d

/-- R57, R104: a rising Z edge, stamped `t`: the decoder's count, and a capture entry while ZMODE ≠ 0. -/
def zReference (c : Chan) (t : Nat) (now : Nat) (d : Device) : Device :=
  let h := d.chn.at c
  if h.cfg.en && h.cfg.mode == 13 && !(quadAxes d c.val 2).isEmpty then capEdge c true t now (zEdge c d) else d

/-- R96: CHN_PIN.FILT. -/
def ChnCfg.filt (g : ChnCfg) : Nat := fld g.pin 11 8

/-- R96: the stamp of a crossing at ball time `t`. -/
def inStamp (g : ChnCfg) (t : Nat) : Nat := lowBits 64 ((t : Int) - g.skew)

/-- R96: a crossing to `level` at ball time `t` has passed the filter. -/
def passEdge (c : Chan) (level : Bool) (t : Nat) (now : Nat) (d : Device) : Device :=
  let g := (d.chn.at c).cfg
  let d := d.pinUpd c (fun p => { p with inp := level, cand := none })
  if g.en && g.mode == 13 then
    let d := quadEdge c level (inStamp g t) now d
    if level != g.inv then zReference c (inStamp g t) now d else d
  else captureEdge c (level != g.inv) (inStamp g t) now d

/-- R96: at ball time `t` the crossing that waits has been stable for FILT base periods and passes the filter. -/
def filterPass (c : Chan) (t : Nat) (now : Nat) (d : Device) : Device :=
  let h := d.chn.at c
  match h.pin.cand with
  | some a => if a + 32 * h.cfg.filt ≤ t then passEdge c (!h.pin.inp) a now d else d
  | none => d

/-- R96: the ball of a pin channel crosses to `level` at ball time `t`. With FILT = 0 the crossing counts at once; a return
to the filtered level before FILT base periods have passed makes it none. -/
def ballEdge (c : Chan) (level : Bool) (t : Nat) (now : Nat) (d : Device) : Device :=
  if isLink c then d
  else
    let d := (filterPass c t now d).pinUpd c (fun p => { p with
      raw := level
      seen := if p.drive = .undriven ∧ p.raw ≠ level then p.seen ++ [(t, level)] else p.seen })
    let h := d.chn.at c
    if h.pin.inp = level then d.pinUpd c (fun p => { p with cand := none })
    else if h.pin.cand.isSome then d
    else if h.cfg.filt = 0 then passEdge c level t now d
    else d.pinUpd c (fun p => { p with cand := some t })

/-- R55, R56: a crossing of a channel in QUAD_FEED. -/
def quadBall (c : Chan) (level : Bool) (t : Nat) (now : Nat) (d : Device) : Device :=
  if (d.chn.at c).cfg.en && (d.chn.at c).cfg.mode == 13 then ballEdge c level t now d else d

/-- R57: a rising Z edge at the ball of a channel in QUAD_FEED that an axis takes as its Z. -/
def zBall (c : Chan) (t : Nat) (now : Nat) (d : Device) : Device :=
  let g := (d.chn.at c).cfg
  if g.en && g.mode == 13 && !(quadAxes d c.val 2).isEmpty then ballEdge c (!g.inv) t now d else d

/-! ## The ball as clove lines see it (R261) -/

/-- R261: the level that the last crossing left. -/
def PinCell.lastSeen (p : PinCell) : Bool := match p.seen.getLast? with | some x => x.2 | none => p.line

/-- R261: a level that the pin cell itself put on the ball in the base period that begins at `now` is a crossing too. -/
def PinCell.watch (now : Nat) (p : PinCell) : PinCell :=
  if p.ball = p.lastSeen then p
  else
    let t := match p.lastAt with
      | some a => if (now : Int) ≤ a ∧ a < (now : Int) + 32 then a.toNat else now
      | none => now
    { p with seen := p.seen ++ [(t, p.ball)] }

/-- R96, R261: the first crossing that waits shows on the lines 3 + FILT base periods after it; one undone within FILT base
periods never shows. -/
def PinCell.showNext (filt now : Nat) (p : PinCell) : PinCell :=
  match p.seen with
  | a :: b :: l => if b.1 < a.1 + 32 * filt then { p with seen := l }
      else if a.1 + 32 * (3 + filt) ≤ now then { p with seen := b :: l, line := a.2 } else p
  | [a] => if a.1 + 32 * (3 + filt) ≤ now then { p with seen := [], line := a.2 } else p
  | [] => p

/-- R96, R261: filters and lines of channel `c` at boundary `now`. -/
def filterStep (c : Chan) (now : Nat) (d : Device) : Device :=
  let d := filterPass c now now d
  if (d.chn.at c).pin.seen.isEmpty then d
  else d.pinUpd c (fun p => (nats p.seen.length).foldl (fun p _ => p.showNext (d.chn.at c).cfg.filt now) p)

/-! ## The commands -/

def execQuadEdge (ch : Chan) (level : Bool) (stamp : DWord) (s : State) : Host.Outcome State Fault Refusal :=
  s.runDev (quadBall ch level stamp.toNat)
def execZReference (ch : Chan) (stamp : DWord) (s : State) : Host.Outcome State Fault Refusal :=
  s.runDev (zBall ch stamp.toNat)
def execInputEdge (ch : Chan) (level : Bool) (stamp : DWord) (s : State) : Host.Outcome State Fault Refusal :=
  s.runDev (ballEdge ch level stamp.toNat)
def execWindowClose (ch : Chan) (s : State) : Host.Outcome State Fault Refusal := s.runDev (windowClose ch)
def execCapAttrRead (ch : Chan) (s : State) : Host.Outcome State Fault Refusal := s.runDev (fun _ => capAttrRead ch)

end Sys2Proof.Machine
end

