-- ==== Sys2Proof/Machine/Channels.lean ====
section
/-! DEFINITION. Channels: enable and disable (R82, R85, R150, R152), trains (R97 to R100), staged
configuration and applies (R114 to R118). -/

namespace Sys2Proof.Machine

open Sys2Proof

/-! ## The committed queue: new entries (R87, R93, R95, R98) -/

/-- R94, R98: NARROW is set and, with its bit in CHN_EVEN, raised. -/
def setNarrow (c : Chan) (now : Nat) (d : Device) : Device :=
  let d' := d.statUpd c (fun s => { s with narrow := true })
  if bitOf (d.chn.at c).cfg.even 0 then raiseChn 4 c 0x04 0x32 0 now d' else d'

/-- R93, R95: an edge of time `t`; one that reaches the pin cell after the start of its base period goes to
phase 0 of the next base period. On a link channel CHN_PIN is ignored (R108). -/
def mkEdge (c : Chan) (g : ChnCfg) (t : Nat) (lvl : Bool) (now : Nat) : PinEdge :=
  let ball : Int := if isLink c then t else t - g.skew
  ⟨if !isLink c && Int.fdiv ball 32 * 32 < (now : Int) then now + 32 else ball, t, lvl⟩

/-- R87: the edges of an action of width `w`; none of a window, one of a level. -/
def actionEdges (c : Chan) (g : ChnCfg) (ty : ActTy) (lvl : Bool) (t w : Nat) (now : Nat) : List PinEdge :=
  match ty with
  | .level => [mkEdge c g t lvl now]
  | .pulse | .trippulse => [mkEdge c g t lvl now, mkEdge c g (addT t w) (!lvl) now]
  | .capwin => []

/-- R87: a width below 64 tk on a pulse is raised to 64 tk. -/
def ActTy.isPulse (t : ActTy) : Bool := t == .pulse || t == .trippulse

/-- R89: an entry joins the committed queue; a link channel hands its edges over (R119 step 5 does). -/
def pushEntry (c : Chan) (e : CommEntry) (d : Device) : Device :=
  d.chnUpd c (fun h => { h with comm := h.comm ++ [e] })

/-- An action is committed: its entry is made, its width raised (R87), and it joins the queue. -/
def commitEntry (c : Chan) (src : Origin) (ty : ActTy) (lvl : Bool) (t w : Nat) (lk : Option LkNo) (now : Nat)
    (d : Device) : Device :=
  let raised := ty.isPulse && w < 64
  let w' := if raised then 64 else w
  let d := if raised then setNarrow c now d else d
  pushEntry c
    { src := src, ty := ty, lvl := lvl, t := t, w := w', lk := lk, tested := false, leadAt := none
      edges := actionEdges c (d.chn.at c).cfg ty lvl t w' now, until? := none, first := none, nEdge := 0
      retireAt := none } d

/-- R293: the channel may take new actions: a pin channel, or a slot of a link that is UP. -/
def linkUp (c : Chan) (d : Device) : Bool := !isLink c || (d.glk.at (linkOf c)).st == .up

/-! ## Trains (R97 to R100) -/

/-- CHN_TRAIN fields (R121). -/
def StSet.runBit (s : StSet) : Bool := bitOf s.train 0
def StSet.lvl (s : StSet) : Bool := bitOf s.train 1
def StSet.ref (s : StSet) : Chan := Fin.ofNat 512 (fld s.train 12 4)
def StSet.count (s : StSet) : Nat := fld s.train 31 16
/-- R101: the lookout that train pulses are armed against. -/
def StSet.armLk (s : StSet) : Option LkNo := if bitOf s.trip 8 then some (Fin.ofNat 32 (fld s.trip 4 0)) else none
/-- CHN_LEAD.LEAD. -/
def StSet.leadVal (s : StSet) : Nat := fld s.lead 10 0

/-- R98: the width of a train pulse. -/
def trainWidth (w per : Nat) : Nat :=
  if w = 0 ∨ per ≤ w then w else if w < 64 then 64 else if per < w + 64 then per - 64 else w

/-- R97, R98, R101: the pulse of a period of start `s` and length `per` is committed. The start is kept for the
lookout ramp and clear-on-period (R314). -/
def commitPeriod (c : Chan) (s per w : Nat) (lvl : Bool) (lk : Option LkNo) (now : Nat) (d : Device) : Device :=
  let d := d.chnUpd c (fun h => { h with train := { h.train with starts := h.train.starts ++ [s], ends := s + per } })
  let w' := trainWidth w per
  let d := if w' ≠ w then setNarrow c now d else d
  if w' = 0 ∨ !linkUp c d ∨ 4 ≤ (d.chn.at c).comm.length then d
  else
    let g := (d.chn.at c).cfg
    let whole := decide (per ≤ w')
    pushEntry c
      { src := .train, ty := .pulse, lvl := lvl, t := s, w := w', lk := lk, tested := false, leadAt := none
        edges := if whole then [mkEdge c g s lvl now] else actionEdges c g .pulse lvl s w' now
        until? := if whole then some (addT s per) else none, first := none, nEdge := 0, retireAt := none } d

/-- R82: MODE is PHASE. -/
def ChnCfg.isPhase (g : ChnCfg) : Bool := g.mode == 5

/-- The channels in PHASE mode whose trains run on channel `r`. -/
def Device.phasesOf (d : Device) (r : Chan) : List Chan :=
  (fins 512).filter (fun c =>
    let h := d.chn.at c
    h.cfg.isPhase && h.train.run && h.cfg.live.ref == r)

/-- R100: period (`s`, `per`) of REF fixes the same period of each of its phase channels. -/
def fixPhases (r : Chan) (s per : Nat) (d : Device) : Device :=
  (d.phasesOf r).foldl (fun d c =>
    d.chnUpd c (fun h =>
      let l := h.cfg.live
      { h with train := { h.train with
          fixed := h.train.fixed ++ [⟨s + l.phs.toNat, per, l.wid.toNat, l.lvl, l.armLk⟩], k := h.train.k + 1 } })) d

/-- R99, R100: a train stops; the periods already committed or fixed complete. -/
def endTrain (c : Chan) (d : Device) : Device :=
  d.chnUpd c (fun h => { h with
    train := { h.train with run := false }
    cfg := { h.cfg with live := { h.cfg.live with train := setFld h.cfg.live.train 0 0 0 } } })

/-- R99: BURST has committed period COUNT - 1. -/
def burstDone (c : Chan) (now : Nat) (d : Device) : Device :=
  let d := (endTrain c d).statUpd c (fun s => { s with done := true })
  match d.homeOf c with
  | some h => if (d.chn.at h).cfg.bound then request h (d.waitDeadline now h) false d else d
  | none => d

/-- R97: whether the next period of a running train, not of a phase channel, commits at `now`. -/
def periodDue (c : Chan) (now : Nat) (d : Device) : Bool :=
  let h := d.chn.at c
  h.train.run && h.cfg.en && !h.cfg.isPhase && decide (commitAt h.train.next (d.lead c) ≤ (now : Int))

/-- R97, R99, R100: the train generator commits its next period. -/
def trainCommit (c : Chan) (now : Nat) (d : Device) : Device :=
  if periodDue c now d then
    let h := d.chn.at c
    let l := h.cfg.live
    let s := h.train.next
    let per := l.per.toNat
    let w := if h.cfg.mode = 4 then per / 2 else l.wid.toNat
    let d := commitPeriod c s per w l.lvl l.armLk now d
    let d := fixPhases c s per d
    let d := d.chnUpd c (fun h => { h with train := { h.train with k := h.train.k + 1, next := (s + per) % two64 } })
    if h.cfg.mode = 3 ∧ l.count ≤ h.train.k + 1 then burstDone c now d else d
  else d

/-- R100: a phase channel's fixed period commits at its own commit instant. -/
def phaseCommit (c : Chan) (now : Nat) (d : Device) : Device :=
  match (d.chn.at c).train.fixed with
  | f :: l =>
    if commitAt f.s (d.lead c) ≤ (now : Int) then
      commitPeriod c f.s f.per f.wid f.lvl f.lk now
        (d.chnUpd c (fun h => { h with train := { h.train with fixed := l } }))
    else d
  | [] => d

/-- R100: when REF stops, its phase channels stop at the same period index. -/
def phaseStops (c : Chan) (d : Device) : Device :=
  let h := d.chn.at c
  if h.cfg.isPhase && h.train.run && h.train.k ≠ 0 && !(d.chn.at h.cfg.live.ref).train.run then endTrain c d else d

/-- R97, R119 step 3: the period commits of one channel at a boundary. -/
def trainStep (c : Chan) (now : Nat) (d : Device) : Device := phaseCommit c now (trainCommit c now d)

/-- R116: a train starts with period start `s0`. A PHASE train takes its periods from REF (R100). -/
def startTrain (s0 : Nat) (h : Channel) : Channel :=
  { h with train := { h.train with run := true, k := 0, next := s0 % two64 } }

/-! ## Enable and disable (R82, R85, R150, R152) -/

/-- R150: another enabled channel is already this member of the same home. -/
def memberTaken (c : Chan) (d : Device) : Bool :=
  let g := (d.chn.at c).cfg
  (fins 512).any (fun o =>
    let x := (d.chn.at o).cfg
    o != c && x.en && x.member && x.home == g.home && x.midx == g.midx)

/-- R82, R150, R437: EN 0 → 1 is refused; before READY too (DEDUCED, log 76). -/
def enableRefused (c : Chan) (d : Device) : Bool :=
  let g := (d.chn.at c).cfg
  d.pwr.phase != .ready || !modeValid c g.mode ||
    (g.member && (g.bound || g.midx == 0 || !(d.chn.at g.home).cfg.bound || memberTaken c d))

/-- R152: the program of a home channel starts at boundary `now`. -/
def programStart (c : Chan) (now : Nat) (d : Device) : Device :=
  let d := d.progUpd c (fun p => { p with
    ctx := { Context.clear with pc := BitVec.ofNat 15 (fld (d.chn.at c).cfg.prog 14 0) }
    running := true, wait := .runnable, segs := [], settled := [], dsig := 0 })
  request c (now + 32 * d.lead c) false d

/-- R85, R104, R108, R147, R178: the channel's own state as EN goes from 0 to 1 at boundary `now`. -/
def enableChannel (c : Chan) (up : Bool) (lead now : Nat) (h : Channel) : Channel :=
  let m := h.cfg.mode
  let pin := if isOutMode m && !isLink c then { h.pin with drive := safeDrive h.cfg h.pin } else h.pin
  let pin := if isInMode m || m == 14 then { pin with prevSel := none, actAt := none, actSum := 0 } else pin
  let h := { h with
    cfg := { h.cfg with en := true }
    stat := { h.stat with
      code := if up then .ok else .linklost, driven := h.stat.driven || (isOutMode m && !isLink c)
      run := 0, frozen := false, safe := false, safeDue := none }
    pin := pin
    prog := { h.prog with faultValid := false } }
  if isTrainMode m && h.cfg.live.runBit then startTrain (now + 32 * lead) h else h

/-- R82, R85, R150, R152: EN goes from 0 to 1 at boundary `now`, or the enable is refused with CFGIGN. -/
def chanEnable (c : Chan) (now : Nat) (d : Device) : Device :=
  if (d.chn.at c).cfg.en then d
  else if enableRefused c d then
    d.statUpd c (fun s => { s with cfgign := true })
  else
    let d := d.chnUpd c (enableChannel c (linkUp c d) (d.lead c) now)
    if (d.chn.at c).cfg.bound then programStart c now d else d

/-- R85: the channel's own state as EN goes from 1 to 0. -/
def disableChannel (h : Channel) : Channel :=
  ballSafe (stopTrain { h with
    prov := [], comm := []
    cfg := { h.cfg with en := false, pend := none }
    stat := { h.stat with safeDue := none } })

/-- R85, R152, R493: EN goes from 1 to 0. -/
def chanDisable (c : Chan) (d : Device) : Device :=
  if (d.chn.at c).cfg.en then
    let d := if (d.chn.at c).cfg.bound then stopProgram c d else d
    let d := linkSafe c (d.chnUpd c disableChannel)
    dropReq c d
  else d

/-- R85: an EN write takes effect at the first boundary after it was serviced. -/
def enablePending (c : Chan) (now : Nat) (d : Device) : Device :=
  let l := (d.chn.at c).cfg.enPend
  if l.isEmpty then d
  else
    (l.filter (fun x => due x.2 now)).foldl (fun d x => if x.1 then chanEnable c now d else chanDisable c d)
      (d.cfgUpd c (fun g => { g with enPend := l.filter (fun x => !due x.2 now) }))

/-! ## Checks of a staged set (R115) -/

/-- R115: the first failing check of shadow set `s` on channel `c`, 0 for none. `refSet` gives the values in
effect at the same instant on any channel. -/
def firstFailing (c : Chan) (s : StSet) (refSet : Chan → StSet) (d : Device) : Nat :=
  let m := (d.chn.at c).cfg.mode.toNat
  let le := effLead c s.leadVal
  let r := refSet s.ref
  let rm := (d.chn.at s.ref).cfg.mode.toNat
  if s.leadVal < 16 ∨ 1024 < s.leadVal then 1
  else if s.late = 3 then 2
  else if (m = 2 ∨ m = 3 ∨ m = 4) ∧ (s.per.toNat < 128 ∨ 3 * s.per.toNat < 32 * le) then 3
  else if m = 3 ∧ s.count < 1 then 4
  else if m = 5 ∧ (s.ref = c ∨ ¬(rm = 2 ∨ rm = 3 ∨ rm = 4) ∨ r.per.toNat ≤ s.phs.toNat ∨
      effLead s.ref r.leadVal < le ∨ 3 * r.per.toNat < 32 * le) then 5
  else if isLink c ∧ s.armLk.isSome then 6
  else if s.edge = 3 ∨ (s.edge = 2 ∧ (m = 9 ∨ m = 10 ∨ m = 11)) then 7
  else 0

/-- R114, R116, R118: the shadow set becomes the live set; a train starts with `s0` or stops. -/
def latchSet (s0 : Nat) (h : Channel) : Channel :=
  let was := h.train.run
  let h := { h with cfg := { h.cfg with live := h.cfg.shadow } }
  if !isTrainMode h.cfg.mode then h
  else if h.cfg.live.runBit && !was && h.cfg.en then startTrain s0 h
  else if was && !h.cfg.live.runBit then { h with train := { h.train with run := false } }
  else h

/-- R115: a refused apply. -/
def applyFails (c : Chan) (n : Nat) (now : Nat) (d : Device) : Device :=
  raiseChn 4 c 0x04 0x31 n now (d.statUpd c (fun s => { s with cfgerr := true }))

/-! ## Per-channel applies (R114, R116, R117) -/

/-- R117: the time of an ATMODE POS apply, from the state of its axis at this boundary; at its commit instant
the time is fixed. A fix of this boundary has given its time already (step 3 of R144). -/
def convertApply (c : Chan) (now : Nat) (d : Device) : Device :=
  match (d.chn.at c).cfg.pend with
  | some p =>
    match p.pos with
    | some _ =>
      if p.t ≠ never ∧ commitAt p.t (d.lead c) ≤ (now : Int) then
        d.cfgUpd c (fun g => { g with pend := some { p with atmode := 1, pos := none } })
      else reApply c d
    | none => d
  | none => d

/-- R116: an apply of channel `c` starts at boundary `now`; `v` is its time or position. -/
def startApply (c : Chan) (atmode : BitVec 2) (a : Axis) (v : Nat) (now : Nat) (d : Device) : Device :=
  let g := (d.chn.at c).cfg
  if g.pend.isSome || g.gpend || atmode == 3 then d.statUpd c (fun s => { s with stgref := true })
  else
    let p : PendApply :=
      { atmode := atmode.toNat, pos := if atmode = 2 then some (a, none, BitVec.ofNat 48 v) else none
        t := if atmode = 2 then never else v % two64, b := now }
    convertApply c now (d.cfgUpd c (fun g => { g with pend := some p }))

/-- R114: a pending per-channel apply is dropped. -/
def cancelApply (c : Chan) (d : Device) : Device := d.cfgUpd c (fun g => { g with pend := none })

/-- R114, R116: a host write of CHN_APPLY.GO, with CANCEL if `first`. -/
def hostApply (c : Chan) (atmode : BitVec 2) (a : Axis) (first : Bool) (now : Nat) (d : Device) : Device :=
  if (d.chn.at c).cfg.gpend then d.statUpd c (fun s => { s with stgref := true })
  else
    let d := if first then cancelApply c d else d
    let g := (d.chn.at c).cfg
    if g.pend.isSome || atmode == 3 then d.statUpd c (fun s => { s with stgref := true })
    else
      let d := d.cfgUpd c (fun g => { g with atmode := atmode, axis := BitVec.ofNat 6 a.val })
      startApply c atmode a (join64 g.atLo g.atHi) now d

/-- R116: the start and commit instant of the first period not yet committed, that of REF for a phase
channel (R100). -/
def nextPeriod (c : Chan) (ref : Chan) (d : Device) : Option (Nat × Int) :=
  let h := d.chn.at c
  let x := if h.cfg.isPhase then ref else c
  let t := (d.chn.at x).train
  if t.run && !(d.chn.at x).cfg.isPhase then some (t.next, commitAt t.next (d.lead x)) else none

/-- R116: the pending apply takes effect at a period: the period commits at `now` and its start is not before T. -/
def periodReady (p : PendApply) (x : Option (Nat × Int)) (now : Nat) : Bool :=
  match x with
  | some (s, i) => decide (i ≤ (now : Int)) && (p.atmode == 0 || decide (p.t ≤ s))
  | none => false

/-- R116, R117: the period start S0 with which a pending apply takes effect at boundary `now`, if it does (0
where no train starts). -/
def applyReady (c : Chan) (p : PendApply) (now : Nat) (d : Device) : Option Nat :=
  let h := d.chn.at c
  let sh := h.cfg.shadow
  let train := isTrainMode h.cfg.mode
  let least := p.b + 32 * effLead c sh.leadVal
  if p.atmode ≠ 0 ∧ p.t = never then none
  else if train ∧ h.train.run then
    if periodReady p (nextPeriod c h.cfg.live.ref d) now then some 0 else none
  else if train ∧ sh.runBit ∧ h.cfg.en then
    if p.atmode = 0 then (if p.b ≤ now then some least else none)
    else
      match (if h.cfg.isPhase then nextPeriod c sh.ref d else none) with
      | some x => if periodReady p (some x) now then some 0 else none
      | none =>
        let s0 := max p.t least
        if commitAt s0 (effLead c sh.leadVal) ≤ (now : Int) then some s0 else none
  else if p.atmode = 0 then (if p.b ≤ now then some 0 else none)
  else if max p.t p.b ≤ now then some 0 else none

/-- R115 to R117: the pending per-channel apply of `c` takes effect at `now`, or is refused, if it is due. -/
def applyLatch (c : Chan) (now : Nat) (d : Device) : Device :=
  let d := convertApply c now d
  match (d.chn.at c).cfg.pend with
  | some p =>
    match applyReady c p now d with
    | some s0 =>
      let d := cancelApply c d
      let n := firstFailing c (d.chn.at c).cfg.shadow (fun r => (d.chn.at r).cfg.live) d
      if n = 0 then d.chnUpd c (latchSet s0) else applyFails c n now d
    | none => d
  | none => d

/-! ## Group applies (R118) -/

/-- R118: the channels of a mask. -/
def maskChans (m : Tab Word 16) : List Chan :=
  (fins 512).filter (fun c => bitOf (m.at (Fin.ofNat 16 (c.val / 32))) (c.val % 32))

/-- R118: the pending group apply is dropped. -/
def gapplyCancel (d : Device) : Device :=
  match d.sys.gp with
  | some g =>
    let d := (maskChans g.mask).foldl (fun d c => d.cfgUpd c (fun x => { x with gpend := false })) d
    { d with sys := { d.sys with gp := none } }
  | none => d

/-- R118: SYS_GAPPLY.GO, with CANCEL if `first`. -/
def gapplyGo (atTime first : Bool) (now : Nat) (d : Device) : Device :=
  let d := { d with sys := { d.sys with gatmode := atTime } }
  let d := if first then gapplyCancel d else d
  match d.sys.gp with
  | some _ => { d with sys := { d.sys with gref := true } }
  | none =>
    let l := maskChans d.sys.gmask
    let g : GroupApply :=
      { mask := d.sys.gmask, atTime := atTime, t := join64 d.sys.gatLo d.sys.gatHi, goAt := now
        busy := l.find? (fun c => (d.chn.at c).cfg.pend.isSome) }
    let d := l.foldl (fun d c => d.cfgUpd c (fun x => { x with gpend := true })) d
    { d with sys := { d.sys with gp := some g } }

/-- R118: the boundary G of a pending group apply has come. -/
def groupDue (g : GroupApply) (now : Nat) : Bool := g.goAt != now && due g.goAt now && (!g.atTime || g.t ≤ now)

/-- R118: at G every member is checked; all latch together, or none does. -/
def gapplyLatch (now : Nat) (d : Device) : Device :=
  match d.sys.gp with
  | some g =>
    if groupDue g now then
      let l := maskChans g.mask
      let refSet : Chan → StSet := fun r =>
        let x := (d.chn.at r).cfg
        if l.contains r then x.shadow else x.live
      let bad := (l.map (fun c => (c, firstFailing c (d.chn.at c).cfg.shadow refSet d))).filter (fun x => x.2 ≠ 0)
      let all := bad.map (fun x => x.1.val) ++ (match g.busy with | some c => [c.val] | none => [])
      let d := gapplyCancel d
      match leastBy id all with
      | some n =>
        let d := bad.foldl (fun d x => applyFails x.1 x.2 now d) d
        { d with sys := { d.sys with gerr := true, gerrch := n } }
      | none =>
        l.foldl (fun d c =>
          d.chnUpd c (latchSet (now + 32 * effLead c (d.chn.at c).cfg.shadow.leadVal))) d
    else d
  | none => d

/-! ## The commands -/

def execChannelEnable (ch : Chan) (s : State) : Host.Outcome State Fault Refusal := s.runDev (chanEnable ch)
def execChannelDisable (ch : Chan) (s : State) : Host.Outcome State Fault Refusal := s.runDev (fun _ => chanDisable ch)
def execApplyGo (ch : Chan) (atmode : BitVec 2) (axis : Axis) (first : Bool) (s : State) :
    Host.Outcome State Fault Refusal := s.runDev (hostApply ch atmode axis first)
def execApplyCancel (ch : Chan) (s : State) : Host.Outcome State Fault Refusal := s.runDev (fun _ => cancelApply ch)
def execApplyLatch (ch : Chan) (s : State) : Host.Outcome State Fault Refusal := s.runDev (applyLatch ch)
def execGapplyGo (atTime first : Bool) (s : State) : Host.Outcome State Fault Refusal := s.runDev (gapplyGo atTime first)
def execGapplyCancel (s : State) : Host.Outcome State Fault Refusal := s.runDev (fun _ => gapplyCancel)
def execGapplyLatch (s : State) : Host.Outcome State Fault Refusal := s.runDev gapplyLatch
def execTrainPeriodCommit (ch : Chan) (s : State) : Host.Outcome State Fault Refusal :=
  s.runDev (fun now d => phaseStops ch (trainStep ch now d))

end Sys2Proof.Machine
end

