-- ==== Sys2Proof/Machine/Almanac.lean ====
section
/-! DEFINITION. The almanac: entries, locks, search and table switches (chapter 8). -/

namespace Sys2Proof.Machine

open Sys2Proof

/-! ## Entries and extents (R217 to R220) -/

/-- R217: word `w` of entry `i`. -/
def Ram.almWord (r : Ram) (i w : Nat) : Word := w32 (r.almRead 4 (16 * i + 4 * w))

/-- R217: the 48-bit key of entry `i`. -/
def Ram.almKey (r : Ram) (i : Nat) : Nat := r.almRead 6 (16 * i)

/-- R217: the table that owns entry `i`. -/
def Ram.almTid (r : Ram) (i : Nat) : Nat := r.almRead 1 (16 * i + 6)

/-- R219: two extents (base, length) share an entry. -/
def overlaps (b1 l1 b2 l2 : Nat) : Bool := decide (max b1 b2 < min (b1 + l1) (b2 + l2))

/-- R220: the shadow extent of the table is locked. -/
def ATable.shadowLocked (t : ATable) : Bool := t.st == .check || t.st == .pend

/-- R220: an extent touches the draining extent of the table. -/
def ATable.drains (t : ATable) (b l : Nat) : Bool :=
  match t.drain with
  | some (db, dl, _) => overlaps b l db dl
  | none => false

/-- R220: entry `i` is locked. -/
def entryLocked (i : Nat) (d : Device) : Bool :=
  d.alm.toList.any (fun t =>
    (t.defd && overlaps i 1 t.lbase t.llen) || (t.shadowLocked && overlaps i 1 t.sbase t.slen) || t.drains i 1)

/-! ## Search (R222, R223) -/

/-- The lowest index from `j` on, below `j + k`, whose entry meets `p`. -/
def findIdx (p : Nat → Bool) (j : Nat) : Nat → Option Nat
  | 0 => none
  | k + 1 => if p j then some j else findIdx p (j + 1) k

/-- R222, R223: the search result: index and whether it wrapped. `key` is the search key, reduced already. -/
def almSearch (r : Ram) (t : TabView) (key : Int) : Option (Nat × Bool) :=
  let k : Nat → Int := fun j =>
    if t.time then (r.almKey (t.base + j) : Int) else signedOf 48 (r.almKey (t.base + j))
  match findIdx (fun j => decide (key ≤ k j)) 0 t.len with
  | some j => some (j, false)
  | none => if t.time || t.len == 0 then none else some (0, true)

/-- R222, R223: the index that follows index `j` in search order. -/
def almNext (t : TabView) (j : Nat) : Option (Nat × Bool) :=
  if j + 1 < t.len then some (j + 1, false) else if t.time then none else some (0, true)

/-! ## Switches (R226 to R230) -/

/-- R226, R231: a refused switch of table `n`; EIDX names the index at which check 4, 5 or 6 failed. -/
def refuseSwitch (n : TableNo) (code idx now : Nat) (d : Device) : Device :=
  raise 2 250 0x04 code n.val now
    (d.tabUpd n (fun t => { t with st := .idle, err := true, ecode := code, eidx := if 4 ≤ code then idx else t.eidx }))

/-- R226: check 3. -/
def extentFails (n : TableNo) (d : Device) : Bool :=
  let t := d.alm.at n
  decide (16384 < t.sbase + t.slen) ||
  (t.defd && overlaps t.sbase t.slen t.lbase t.llen) ||
  (fins 64).any (fun m =>
    let o := d.alm.at m
    m != n && ((o.defd && overlaps t.sbase t.slen o.lbase o.llen) ||
      (o.shadowLocked && overlaps t.sbase t.slen o.sbase o.slen) || o.drains t.sbase t.slen))

/-- R226: checks 4 to 6 of index `j`; 0 when they hold. -/
def entryCheck (n : TableNo) (j : Nat) (c : Core) : Nat :=
  let t := c.dev.alm.at n
  let e := t.sbase + j
  let sgn : Nat → Int := fun k => if t.time then (k : Int) else signedOf 48 k
  let k := sgn (c.ram.almKey e)
  let m := (c.dev.axs.at t.ax).reg.m
  if c.ram.almTid e ≠ n.val then 4
  else if 0 < j ∧ k < sgn (c.ram.almKey (e - 1)) then 5
  else if !t.time && (c.dev.axs.at t.ax).reg.modulo && (decide (k < 0) || decide ((m : Int) ≤ k)) then 6
  else 0

/-- R226: the first failing check of a switch in CHECK, and the index at which it fails; 0 when all hold. -/
def checkSwitch (n : TableNo) (c : Core) : Nat × Nat :=
  let t := c.dev.alm.at n
  if !t.defd then (1, 0)
  else if t.atmode = 3 ∨ (t.atmode = 2 ∧ (c.dev.axs.at t.swax).reg.en = false) then (2, 0)
  else if extentFails n c.dev then (3, 0)
  else
    match findIdx (fun j => entryCheck n j c != 0) 0 t.slen with
    | some j => (entryCheck n j c, j)
    | none => (0, 0)

/-- R227, R228: the switch boundary S of a pending switch, NEVER while its time is. -/
def switchAt (n : TableNo) (d : Device) : Nat :=
  let t := d.alm.at n
  let tm :=
    if t.atmode = 2 then (match t.q with | some q => (d.axs.at t.swax).p2t false q | none => never)
    else join64 t.atLo t.atHi
  if t.atmode = 0 then t.passAt + 32
  else if tm = never then never
  else
    let s := commitAt tm (min 1024 t.lead.toNat)
    if s ≤ (t.passAt : Int) then t.passAt + 32 else s.toNat

/-- R226, R228: MEM_ASW.GO in IDLE starts CHECK; the extended target of ATMODE POS is fixed now. -/
def switchGo (n : TableNo) (atmode : BitVec 2) (swax : Axis) (lead : BitVec 11) (d : Device) : Device :=
  let t := d.alm.at n
  if t.st ≠ .idle then d.tabUpd n (fun t => { t with ref := true })
  else
    let pos := signedOf 48 (join64 t.atLo t.atHi)
    let q := if atmode = 2 then some ((d.axs.at swax).target false pos) else none
    d.tabUpd n (fun t => { t with atmode := atmode, swax := swax, lead := lead, st := .check, q := q })

/-- R226, R227: CHECK of table `n` ends. -/
def checkComplete (n : TableNo) (now : Nat) (c : Core) : Core :=
  if (c.dev.alm.at n).st ≠ .check then c
  else
    let (code, idx) := checkSwitch n c
    if code ≠ 0 then c.mapDev (refuseSwitch n code idx now)
    else c.mapDev (fun d => d.tabUpd n (fun t => { t with st := .pend, passAt := now }))

/-- R229: the switch of table `n` takes place at S. -/
def tableSwitch (n : TableNo) (now : Nat) (d : Device) : Device :=
  if (d.alm.at n).st ≠ .pend then d
  else if switchAt n d ≤ now then
    d.tabUpd n (fun t => { t with
      lbase := t.sbase, llen := t.slen, sbase := t.lbase, slen := t.llen, gen := t.gen + 1, swt := now
      st := .drain, drain := some (t.lbase, t.llen, now) })
  else d

/-- R227, R232: what MEM_ASWT reads: S while the switch is pending, the boundary of the last switch otherwise. -/
def switchShown (n : TableNo) (d : Device) : Nat :=
  if (d.alm.at n).st = .pend then switchAt n d else (d.alm.at n).swt

/-- R229: a service whose view boundary lies before `u` still runs. -/
def oldService (u : Nat) (d : Device) : Bool :=
  (fins 512).any (fun c => match (d.chn.at c).prog.svc with | some s => decide (s.view.at' < u) | none => false)

/-- R229: the drain of table `n` ends. -/
def drainEnd (n : TableNo) (d : Device) : Device :=
  match (d.alm.at n).drain with
  | some (_, _, u) => if oldService u d then d else d.tabUpd n (fun t => { t with st := .idle, drain := none })
  | none => d

/-- R230: CANCEL in CHECK or PEND. -/
def switchCancel (n : TableNo) (d : Device) : Device :=
  if (d.alm.at n).shadowLocked then d.tabUpd n (fun t => { t with st := .idle }) else d

/-- R230: DEF is written 0. -/
def tableUndefine (n : TableNo) (d : Device) : Device :=
  let t := d.alm.at n
  if t.st ≠ .idle then d.tabUpd n (fun t => { t with ref := true })
  else if t.defd then d.tabUpd n (fun t => { t with undef := true })
  else d

/-- R230: the undefinition takes effect at the next boundary `u`, and the live extent drains. -/
def undefineAt (n : TableNo) (u : Nat) (d : Device) : Device :=
  if (d.alm.at n).undef then
    d.tabUpd n (fun t => { t with
      undef := false, defd := false, llen := 0, st := .drain, drain := some (t.lbase, t.llen, u) })
  else d

/-- R230: DEF is written 1: a table with an empty live extent. -/
def tableDefine (n : TableNo) (d : Device) : Device :=
  let t := d.alm.at n
  if t.st ≠ .idle then d.tabUpd n (fun t => { t with ref := true })
  else if t.defd then d
  else d.tabUpd n (fun t => { t with defd := true, llen := 0 })

/-- R229, R230: the almanac at boundary `now`, after the commit stage: switches and ended drains. -/
def almanacStep (now : Nat) (d : Device) : Device :=
  forAll (fun n d => drainEnd n (tableSwitch n now d)) d

/-! ## The commands -/

def execSwitchGo (n : TableNo) (atmode : BitVec 2) (swaxis : Axis) (lead : BitVec 11) (s : State) :
    Host.Outcome State Fault Refusal := s.runDev (fun _ => switchGo n atmode swaxis lead)
def execCheckComplete (n : TableNo) (s : State) : Host.Outcome State Fault Refusal := s.run (checkComplete n)
def execTableSwitch (n : TableNo) (s : State) : Host.Outcome State Fault Refusal := s.runDev (tableSwitch n)
def execDrainEnd (n : TableNo) (s : State) : Host.Outcome State Fault Refusal := s.runDev (fun _ => drainEnd n)
def execSwitchCancel (n : TableNo) (s : State) : Host.Outcome State Fault Refusal :=
  s.runDev (fun _ => switchCancel n)
def execTableUndefine (n : TableNo) (s : State) : Host.Outcome State Fault Refusal :=
  s.runDev (fun _ => tableUndefine n)
def execTableDefine (n : TableNo) (s : State) : Host.Outcome State Fault Refusal :=
  s.runDev (fun _ => tableDefine n)

end Sys2Proof.Machine
end

