-- ==== Sys2Proof/Machine/BankOps.lean ====
section
/-! DEFINITION. Accesses to the data banks through ports A and B, and their meetings (R24, R358 to R363). -/

namespace Sys2Proof.Machine

open Sys2Proof

/-- R363: the bank that holds a byte address is on. -/
def Device.bankOn (d : Device) (a : Nat) : Bool := (d.mem.bank.at (bankOf a)).st == .on

/-- R358: the byte address of the 64-bit word that holds a byte. -/
def wordOf (a : Nat) : Nat := a / 8 * 8

/-- R362: a meeting of port A and port B on the word at `w`, of two writes or of a read and a write. -/
def meet (both : Bool) (w now : Nat) (d : Device) : Device :=
  if both then
    raise 2 246 0x10 0x01 (bankOf w).val now
      { d with mem := { d.mem with ww := satInc 16 d.mem.ww, collAddr := w } }
  else { d with mem := { d.mem with rw' := satInc 16 d.mem.rw' } }

/-- R361, R362: an access of one port to the word at `w` is noted, and its meetings with the other port. -/
def notePort (isA wr : Bool) (w now : Nat) (d : Device) : Device :=
  let other := if isA then d.mem.portB else d.mem.portA
  let d := { d with mem :=
    if isA then { d.mem with portA := (w, wr) :: d.mem.portA } else { d.mem with portB := (w, wr) :: d.mem.portB } }
  let d := if wr && other.contains (w, true) then meet true w now d else d
  if (wr && other.contains (w, false)) || (!wr && other.contains (w, true)) then meet false w now d else d

/-- The low `n` bytes of `v` at `a`, but for the bytes that `skip` names. -/
def writeBytes (skip : Nat → Bool) : Nat → Nat → Nat → Ram → Ram
  | 0, _, _, r => r
  | n + 1, a, v, r => writeBytes skip n (a + 1) (v / 256) (if skip a then r else r.bankWrite 1 a (v % 256))

/-- R361: port B writes the byte at `a` in this base period. -/
def MemBlk.heldB (m : MemBlk) (a : Nat) : Bool := m.bytesB.any (fun x => x.1 == a)

/-- R360: a master of a later class than `cls` writes the byte at `a` through port B in this base period, so its
data stands: it is granted after. -/
def MemBlk.laterB (m : MemBlk) (cls a : Nat) : Bool := m.bytesB.any (fun x => x.1 == a && decide (cls < x.2))

/-- R359, R361: a write of `n` bytes at `a` through port A: bytes that port B writes in the same base period
hold port B's data. -/
def storeA (n a v now : Nat) (c : Core) : Core :=
  { ram := writeBytes c.dev.mem.heldB n a v c.ram, dev := notePort true true (wordOf a) now c.dev }

/-- R360, R361: a write of `n` bytes at `a` through port B by a master of class `cls`. -/
def storeB (cls n a v now : Nat) (c : Core) : Core :=
  let d := notePort false true (wordOf a) now c.dev
  { ram := writeBytes (c.dev.mem.laterB cls) n a v c.ram
    dev := { d with mem := { d.mem with bytesB := (nats n).map (fun i => (a + i, cls)) ++ d.mem.bytesB } } }

/-- R359, R362: a read through port A is noted. -/
def loadA (a now : Nat) (d : Device) : Device := notePort true false (wordOf a) now d

/-- R360, R362: a read through port B is noted. -/
def loadB (a now : Nat) (d : Device) : Device := notePort false false (wordOf a) now d

/-- The base period ends: the ports' accesses of it are forgotten. -/
def endPorts (d : Device) : Device := { d with mem := { d.mem with portA := [], portB := [], bytesB := [] } }

end Sys2Proof.Machine
end

