-- ==== Sys2Proof/Machine/March.lean ====
section
/-! DEFINITION. The March tests of the mace on one row of cells (R368 to R370): what a run finds is computed from the
faults of the cells. -/

namespace Sys2Proof.Machine

open Sys2Proof

/-- R368: one access of an element: a write of the background D or its complement, or a read compared with it. -/
inductive MarchOp where
  | w0 | w1 | r0 | r1
  deriving DecidableEq, Repr

/-- R368: an element: whether it steps through descending index, and its accesses to each word. -/
structure MarchElem where
  down : Bool
  ops  : List MarchOp
  deriving DecidableEq, Repr

/-- R368: March C- (ALG 0) and March SS (ALG 1). An element that may go either way goes up (log 50). -/
def marchElems (ss : Bool) : List MarchElem :=
  if ss then
    [⟨false, [.w0]⟩, ⟨false, [.r0, .r0, .w0, .r0, .w1]⟩, ⟨false, [.r1, .r1, .w1, .r1, .w0]⟩,
     ⟨true, [.r0, .r0, .w0, .r0, .w1]⟩, ⟨true, [.r1, .r1, .w1, .r1, .w0]⟩, ⟨false, [.r0]⟩]
  else
    [⟨false, [.w0]⟩, ⟨false, [.r0, .w1]⟩, ⟨false, [.r1, .w0]⟩, ⟨true, [.r0, .w1]⟩, ⟨true, [.r1, .w0]⟩, ⟨false, [.r0]⟩]

/-- R369: the background D that BG selects. -/
def background (bg : Nat) : DWord :=
  match bg with
  | 0 => 0x0000_0000_0000_0000
  | 1 => 0x5555_5555_5555_5555
  | 2 => 0x3333_3333_3333_3333
  | _ => 0x0F0F_0F0F_0F0F_0F0F

/-- What one fault makes of a read of word `k` at access `o` of element `e`. -/
def CellFault.read (e o : Nat) (k : Fin 64) (v : DWord) (f : CellFault) : DWord :=
  match f with
  | .stuck k' b x => if k' ≠ k then v else if x then v ||| (1#64 <<< b.val) else v &&& ~~~(1#64 <<< b.val)
  | .misread e' o' k' m => if e' = e ∧ o' = o ∧ k' = k then v ^^^ m else v

/-- What a read of a word that was written `v` returns, of cells with these faults. -/
def readCell (fs : List CellFault) (e o : Nat) (k : Fin 64) (v : DWord) : DWord := fs.foldl (CellFault.read e o k) v

/-- R368, R370: one access; the first element with a mismatch is kept. -/
def MarchOp.run (fs : List CellFault) (D : DWord) (k : Fin 64) (e o : Nat) (x : DWord × Option Nat) (op : MarchOp) :
    DWord × Option Nat :=
  match op with
  | .w0 => (D, x.2)
  | .w1 => (~~~D, x.2)
  | .r0 => (x.1, if readCell fs e o k x.1 = D then x.2 else x.2.or (some e))
  | .r1 => (x.1, if readCell fs e o k x.1 = ~~~D then x.2 else x.2.or (some e))

/-- R368: the elements over word `k`, which held `v`: what it was written last, and the first element that finds
a mismatch. No element reads a word another element has not finished, so the words are run one by one. -/
def marchWord (ss : Bool) (D : DWord) (fs : List CellFault) (k : Fin 64) (v : DWord) : DWord × Option Nat :=
  (marchElems ss).zipIdx.foldl
    (fun x el => el.1.ops.zipIdx.foldl (fun x op => op.1.run fs D k el.2 op.2 x) x) (v, none)

/-- R370: the first element that finds a row failing, over the words that a fault names: a word of sound cells
reads what was written to it. -/
def marchRow (ss : Bool) (D : DWord) (fs : List CellFault) : Option Nat :=
  let ks := (fs.map (fun f => match f with | .stuck k _ _ => k | .misread _ _ k _ => k)).dedup
  (ks.filterMap (fun k => (marchWord ss D fs k 0).2)).min?

/-- R368: the test that MEM_MCTL selects. -/
def mctlAlg (w : Word) : Bool := bitOf w 2
def mctlBack (w : Word) : DWord := background (fld w 5 4)

/-- R372: the cells of a row after the test. -/
def marchCells (ss : Bool) (D : DWord) (fs : List CellFault) (cells : Tab DWord 64) : Tab DWord 64 :=
  cells.mapIdx (fun i v => (marchWord ss D fs (Fin.ofNat 64 i) v).1)

/-- R370: the failing rows among rows with faults, in the order a whole-bank run finds them: by element, and
within an element in the order it steps. -/
def marchBank (ss : Bool) (D : DWord) (rows : List (Fin 256 × List CellFault)) : List (Fin 256) :=
  let found := rows.filterMap (fun r => (marchRow ss D r.2).map (fun e => (r.1, e)))
  (marchElems ss).zipIdx.flatMap (fun el =>
    let l := (found.filter (fun r => r.2 == el.2)).map (fun r => r.1)
    if el.1.down then l.reverse else l)

/-- The rows of bank `b` that have faults, ascending, each with its faults. -/
def rowsOf (b : BankNo) (l : List RowFault) : List (Fin 256 × List CellFault) :=
  let l := l.filter (fun f => f.bank == b)
  ((fins 256).filter (fun r => l.any (fun f => f.row == r))).map (fun r =>
    (r, (l.filter (fun f => f.row == r)).map (fun f => f.fault)))

/-- R371: spare `k` of bank `b` fails its own test. -/
def spareFails (ss : Bool) (D : DWord) (l : List SpareFault) (b : BankNo) (k : Nat) : Bool :=
  (marchRow ss D ((l.filter (fun f => f.bank == b && f.spare.val == k)).map (fun f => f.fault))).isSome

end Sys2Proof.Machine
end

