-- ==== Sys2Proof/Machine/Banks.lean ====
section
/-! DEFINITION. Bank power states, the mace test engine and row repair (R363 to R379, chapter 14). -/

namespace Sys2Proof.Machine

open Sys2Proof

/-! ## Bank states -/

/-- STATE as a number (R363). -/
def BankSt.num (s : BankSt) : Nat :=
  match s with
  | .on => 0 | .retention => 1 | .off => 2 | .waking => 3 | .powering => 4 | .offline => 5

/-- R379: a record of source 247. -/
def raiseMem (kind cause arg now : Nat) (d : Device) : Device := raise 2 247 kind cause arg now d

/-- R391, R392: the enabled ring holds words of bank `bk`. -/
def ringUses (bk : BankNo) (e : Evc) : Bool :=
  e.en && (!e.layout || bk.val / 2 == fld e.rbase 6 4)

/-- R364: the state a bank is requested to be in. -/
def Bank.target (b : Bank) : BankSt :=
  if b.offline then .offline
  else if b.req = 0 then .on
  else if b.req = 1 then .retention
  else .off

/-- R364: a MEM_BCTL write is refused. -/
def bctlRefused (bk : BankNo) (v : Word) (d : Device) : Bool :=
  let req := fld v 1 0
  let off := bitOf v 5
  req == 3 || (off && req != 0) || ((req != 0 || off) && ringUses bk d.evc)

/-- R364: a write of MEM_BCTL. A write that changes neither REQ nor OFFLINE requests nothing. -/
def bctlWrite (bk : BankNo) (v : Word) (now : Nat) (d : Device) : Device :=
  let b := d.mem.bank.at bk
  if fld v 1 0 = b.req.toNat ∧ bitOf v 5 = b.offline then
    d.bankUpd bk (fun b => { b with autowake := bitOf v 4 })
  else if bctlRefused bk v d then d.bankUpd bk (fun b => { b with ref := true })
  else d.bankUpd bk (fun b => { b with
    req := BitVec.ofNat 2 (fld v 1 0), autowake := bitOf v 4, offline := bitOf v 5, pend := true, pendAt := now })

/-- R364, R379: a bank reaches the requested state. -/
def bankReach (bk : BankNo) (st : BankSt) (now : Nat) (d : Device) : Device :=
  let p := (d.mem.bank.at bk).pend
  let d := d.bankUpd bk (fun b => { b with st := st, pend := false })
  if p then raiseMem 0x0C 0x10 (bk.val + 16 * st.num) now d else d

/-- R363: reaching OFF loses the contents of a bank. -/
def loseIfOff (bk : BankNo) (st : BankSt) (r : Ram) : Ram := if st = .off then r.loseBank bk else r

/-- R366: an access that waits on a bank in RETENTION with BANK_AUTOWAKE starts its wake. -/
def bankWake (bk : BankNo) (d : Device) : Device :=
  let b := d.mem.bank.at bk
  if b.st = .retention ∧ b.autowake then d.bankUpd bk (fun b => { b with st := .waking, req := 0 }) else d

/-- R363: a WAKING or POWERING bank reaches the requested state; after POWERING its contents are undefined. -/
def bankPowered (bk : BankNo) (now : Nat) (c : Core) : Core :=
  let b := c.dev.mem.bank.at bk
  match b.st with
  | .waking => { ram := loseIfOff bk b.target c.ram, dev := bankReach bk b.target now c.dev }
  | .powering => { ram := c.ram.loseBank bk, dev := bankReach bk b.target now c.dev }
  | _ => c

/-! ## The mace (R368 to R375) -/

def mctlMode (w : Word) : Bool := bitOf w 3
def mctlLive (w : Word) : Bool := bitOf w 6
def maceNames (w : Word) (b : Nat) : Bool := bitOf w (16 + b)

/-- The banks that a value of MCTL names, ascending. -/
def maceBanks (w : Word) : List BankNo := (fins 16).filter (fun b => maceNames w b.val)

/-- R375, R379: the DONE record of a run over these banks: the number of banks with failing rows. -/
def doneRecord (l : List BankNo) (now : Nat) (d : Device) : Device :=
  raiseMem 0x0E 0x01 (l.filter (fun b => (d.mem.bank.at b).nfail ≠ 0)).length now d

/-- R375: the run under way ends. -/
def maceDone (now : Nat) (d : Device) : Device :=
  doneRecord (maceBanks d.mem.run) now
    { d with mem := { d.mem with mst := .idle, tpause := false, destr := false, borrow := false, stop := false } }

/-- R375, R445: the thermal governor defers the mace. -/
def maceDeferred (d : Device) : Bool := decide (1 ≤ d.thm.stage)

/-- R375: between two windows of a preserving run, the mace pauses while the governor defers it, and goes on
when it no longer does. -/
def macePause (d : Device) : Device :=
  if d.mem.mst = .idle ∨ d.mem.destr ∨ d.mem.borrow then d
  else { d with mem := { d.mem with mst := if maceDeferred d then .paused else .run, tpause := maceDeferred d } }

/-- R375: the run stands at the first window of the first of these banks that is ON; a bank that is not ON
is skipped; with no bank left the run ends. -/
def maceSeek (now : Nat) : List BankNo → Device → Device
  | [], d => maceDone now d
  | b :: l, d =>
    if (d.mem.bank.at b).st = .on then { d with mem := { d.mem with mbank := b.val, mrow := 0 } }
    else maceSeek now l (d.bankUpd b (fun x => { x with skip := true }))

/-- The named banks after bank `b`. -/
def banksAfter (b : Nat) (d : Device) : List BankNo := (maceBanks d.mem.run).filter (fun x => decide (b < x.val))

/-- R380: the last result of a bank is cleared by a GO that names it. -/
def Bank.clearRes (b : Bank) : Bank := { b with frow := 0, nfail := 0, skip := false, intr := false, valid := false }

/-- R371, R379: why MCTL.GO is refused: 1 not IDLE, 2 a bank not OFFLINE, 3 an empty mask; 0 when it is not. -/
def goRefused (d : Device) : Nat :=
  if d.mem.mst ≠ .idle then 1
  else if (maceBanks d.mem.mctl).isEmpty then 3
  else if mctlMode d.mem.mctl && (maceBanks d.mem.mctl).any (fun b => (d.mem.bank.at b).st != .offline) then 2
  else 0

/-- R371, R372: MCTL.GO, after the fields of its write are in place. -/
def maceGo (now : Nat) (c : Core) : Core :=
  let d := c.dev
  let why := goRefused d
  if why ≠ 0 then { c with dev := raiseMem 0x0E 0x05 why now { d with mem := { d.mem with merr := true } } }
  else
    let l := maceBanks d.mem.mctl
    let destr := mctlMode d.mem.mctl
    let d := l.foldl (fun d b => d.bankUpd b Bank.clearRes) d
    let d := { d with mem := { d.mem with mst := .run, destr := destr, run := d.mem.mctl } }
    if destr then { ram := l.foldl (fun r b => r.loseBank b) c.ram, dev := d }
    else { c with dev := macePause (maceSeek now l d) }

/-- R375: MCTL.ABORT ends a preserving run at its next window boundary and a destructive run at its next access. -/
def maceAbort (now : Nat) (d : Device) : Device :=
  if d.mem.mst = .idle then d
  else if d.mem.borrow then { d with mem := { d.mem with stop := true } }
  else maceDone now d

/-- R380: a write of MEM_MCTL. -/
def mctlWrite (v : Word) (now : Nat) (c : Core) : Core :=
  let c := c.mapDev (fun d => { d with mem := { d.mem with mctl := v &&& 0xFFFF_007C } })
  let c := if bitOf v 1 then c.mapDev (maceAbort now) else c
  if bitOf v 0 then maceGo now c else c

/-- R370: a run finds row `r` of a bank failing; the first is recorded and raises ROWFAIL. -/
def rowFail (b : BankNo) (r : Nat) (now : Nat) (d : Device) : Device :=
  let x := d.mem.bank.at b
  let d := d.bankUpd b (fun x => { x with frow := if x.nfail = 0 then r else x.frow, nfail := satInc 8 x.nfail })
  if x.nfail = 0 then raiseMem 0x0E 0x02 b.val now d else d

/-! ## Repair (R376 to R378) -/

/-- R376: the lowest spare that is free and has not failed. -/
def freeSpare (b : Bank) : Option (Fin 2) :=
  (fins 2).find? (fun k => !(b.spares.at k).valid && !(b.spares.at k).bad)

/-- R376: a spare that stands in for a failing row has failed itself. -/
def failMapped (r : Fin 256) (b : Bank) : Bank :=
  { b with spares := b.spares.map (fun s => if s.valid && s.row == r then { s with valid := false, bad := true } else s) }

/-- R376, R377: row `r` is mapped to the spare. -/
def mapRow (k : Fin 2) (r : Fin 256) (b : Bank) : Bank :=
  { b with spares := b.spares.upd k (fun s => { s with row := r, valid := true, fused := false }) }

/-- R376: the failing rows of a bank are mapped in ascending row order; true when one has no spare. -/
def mapRows : List (Fin 256) → Bank → Bank × Bool
  | [], b => (b, false)
  | r :: l, b =>
    let b := failMapped r b
    match freeSpare b with
    | some k => mapRows l (mapRow k r b)
    | none => let (b, _) := mapRows l b; (b, true)

/-- R376: UNREP and its record. -/
def repairBank (b : BankNo) (rows : List (Fin 256)) (now : Nat) (d : Device) : Device :=
  let (x, un) := mapRows rows (d.mem.bank.at b)
  let d := d.bankUpd b (fun _ => { x with unrep := un })
  if un then raiseMem 0x0E 0x04 b.val now d else d

/-- R376, R378: step 1: the fused mappings of bank `b` apply to spares that are not in use, for rows that no other
spare stands in for. -/
def applyFused (f : Fuses) (b : BankNo) (x : Bank) : Bank :=
  (f.repair.at b).foldl (fun x m =>
    if (x.spares.at m.1).valid || x.spares.toList.any (fun s => s.valid && s.row == m.2) then x
    else { x with spares := x.spares.upd m.1 (fun s => { s with row := m.2, valid := true, fused := true }) }) x

/-- R376: the rows whose spare has failed its own test count as failing. -/
def spareRows (x : Bank) : List (Fin 256) := (x.spares.toList.filter (fun s => s.valid && s.bad)).map (fun s => s.row)

/-- R371, R376: a destructive run over bank `b` with algorithm `ss` and background `D`: the tests of the rows
and of the free spares, the failing rows in the order found, and the mappings of steps 1 to 3. -/
def destrBank (ss : Bool) (D : DWord) (faults : List RowFault) (bad : List SpareFault) (now : Nat) (b : BankNo)
    (d : Device) : Device :=
  let rows := marchBank ss D (rowsOf b faults)
  let d := d.bankUpd b (fun x => { x with
    spares := x.spares.mapIdx (fun i s => if s.valid then s else { s with bad := spareFails ss D bad b i }) })
  let d := rows.foldl (fun d r => rowFail b r.val now d) d
  let d := d.bankUpd b (fun x => { applyFused d.fuses b x with valid := true })
  let un := spareRows (d.mem.bank.at b)
  repairBank b ((fins 256).filter (fun r => rows.contains r || un.contains r)) now d

/-- R376: step 1: the fused mappings of bank `b` apply, and soft ones are lost (R378). -/
def fusedSpares (f : Fuses) (b : BankNo) : Tab Spare 2 :=
  (f.repair.at b).foldl (fun t x => t.put x.1 ⟨x.2, true, true, false⟩) (Tab.all Spare.none)

/-- R376: the start-up run of March C- with D = SOLID and its mappings; the contents of every bank are undefined
after it, and it ends as every run does (R375). -/
def startUpRepair (faults : List RowFault) (bad : List SpareFault) (now : Nat) (c : Core) : Core :=
  { ram := c.ram.loseBanks
    dev := doneRecord (fins 16) now (forAll (fun b d => destrBank false (background 0) faults bad now b
      (d.bankUpd b (fun x => { x.clearRes with spares := fusedSpares d.fuses b }))) c.dev) }

/-- R371: a destructive run that the host started ends. A bank whose run a state change ended takes no part. -/
def destrEnd (faults : List RowFault) (bad : List SpareFault) (now : Nat) (d : Device) : Device :=
  if d.mem.mst = .run ∧ d.mem.destr then
    let w := d.mem.run
    let l := (maceBanks w).filter (fun b => !(d.mem.bank.at b).intr)
    maceDone now (l.foldl (fun d b => destrBank (mctlAlg w) (mctlBack w) faults bad now b d) d)
  else d

/-- R377: a row found failing before release, with LIVEREP: the free spare, if there is one, passes its test and
takes the row (true), or fails it and is marked. -/
def liveRepair (b : BankNo) (r : Fin 256) (spareFails : Bool) (d : Device) : Device × Bool :=
  match freeSpare (d.mem.bank.at b) with
  | none => (d, false)
  | some k =>
    if spareFails then
      (d.bankUpd b (fun x => { x with spares := x.spares.upd k (fun s => { s with bad := true }) }), false)
    else (d.bankUpd b (fun x => mapRow k r (failMapped r x)), true)

/-- R358: the byte address of word `k` of a row. -/
def rowWord (b : BankNo) (r : Nat) (k : Fin 64) : Nat := 0x2000 * r + 8 * b.val + 128 * k.val

/-- R374: a word of the window that mismatches at restore is left undefined. -/
def loseWord (b : BankNo) (r : Nat) (k : Fin 64) (c : Core) : Core :=
  { ram := c.ram.bankWrite 8 (rowWord b r k) (join64 c.dev.freeWord c.dev.freeHigh), dev := c.dev.freeTaken }

/-- R374: LOSS. -/
def lossRaise (b : BankNo) (r : Nat) (now : Nat) (d : Device) : Device :=
  let d := d.bankUpd b (fun x => { x with loss := true })
  raiseMem 0x0E 0x03 b.val now { d with mem := { d.mem with lrow := r } }

/-- R372: the mace moves to the next window. -/
def maceNext (now : Nat) (d : Device) : Device :=
  let b := d.mem.mbank
  if d.mem.mrow < 255 then { d with mem := { d.mem with mrow := d.mem.mrow + 1 } }
  else maceSeek now (banksAfter b d) (d.bankUpd (Fin.ofNat 16 b) (fun x => { x with valid := true }))

/-- The 64 words at the addresses of a row. -/
def rowWords (b : BankNo) (r : Nat) (m : Ram) : Tab DWord 64 :=
  Vector.ofFn (fun k => BitVec.ofNat 64 (m.bankRead 8 (rowWord b r k)))

/-- R372: steps 1 and 2: the words are copied to the save buffer, which serves them from here on. A window is not
begun while the mace is paused, or while a change of the bank waits (R375). -/
def windowBorrow (c : Core) : Core :=
  let m := c.dev.mem
  let b : BankNo := Fin.ofNat 16 m.mbank
  if m.mst ≠ .run || m.destr || m.borrow || (m.bank.at b).pend then c
  else { c with dev := { c.dev with mem := { m with borrow := true, cells := rowWords b m.mrow c.ram } } }

/-- R372, R374: the words of the save buffer that do not read back as they were restored, in ascending order. -/
def badWords (fs : List CellFault) (cells : Tab DWord 64) : List (Fin 64) :=
  (fins 64).filter (fun k => readCell fs 6 0 k (cells.at k) != cells.at k)

/-- R372 to R377: steps 3 to 5: the March test of the row's cells, the restore into them or into a spare, the
read-back and the release; then the next window, or the end of an aborted run. -/
def windowFinish (row spare : List CellFault) (now : Nat) (c : Core) : Core :=
  let m := c.dev.mem
  if !m.borrow then c
  else
    let b : BankNo := Fin.ofNat 16 m.mbank
    let ss := mctlAlg m.run
    let D := mctlBack m.run
    let fails := (marchRow ss D row).isSome
    let d := if fails then rowFail b m.mrow now c.dev else c.dev
    let (d, moved) := if fails && mctlLive m.run then liveRepair b (Fin.ofNat 256 m.mrow) (marchRow ss D spare).isSome d else (d, false)
    let saved := rowWords b m.mrow c.ram
    let tested := marchCells ss D row m.cells
    let lost := badWords (if moved then spare else row) saved
    let c := lost.foldl (fun c k => loseWord b m.mrow k c) { c with dev := d }
    let d := lost.foldl (fun d _ => lossRaise b m.mrow now d) c.dev
    let d := { d with mem := { d.mem with borrow := false, cells := if moved then tested else saved } }
    { c with dev := if m.stop then maceDone now d else macePause (maceNext now d) }

/-- R372: one part of the mace's work on a window. -/
def maceWindow (p : WindowPart) (now : Nat) (c : Core) : Core :=
  match p with
  | .borrow => windowBorrow c
  | .finish row spare => windowFinish row spare now c

/-- R375: a state change of the bank under test ends the mace's work on it. -/
def maceInterrupt (bk : BankNo) (now : Nat) (d : Device) : Device :=
  if d.mem.mst = .idle then d
  else if d.mem.destr then
    if maceNames d.mem.run bk.val then d.bankUpd bk (fun x => { x with intr := true }) else d
  else if d.mem.mbank = bk.val then
    macePause (maceSeek now (banksAfter bk.val d) (d.bankUpd bk (fun x => { x with intr := true })))
  else d

/-- R364, R375: the requested change takes effect at a boundary after the boundary of service, and waits for the
release of a window of the bank. -/
def bankChange (bk : BankNo) (now : Nat) (c : Core) : Core :=
  let b := c.dev.mem.bank.at bk
  if !b.pend || now ≤ b.pendAt || (c.dev.mem.borrow && c.dev.mem.mbank == bk.val) then c
  else
    let t := b.target
    let go : Core → Core := fun c =>
      { ram := loseIfOff bk t c.ram, dev := bankReach bk t now (maceInterrupt bk now c.dev) }
    match b.st with
    | .waking => c
    | .powering => c
    | .off => if t = .off then go c else c.mapDev (fun d => d.bankUpd bk (fun x => { x with st := .powering }))
    | .retention =>
      if t = .on ∨ t = .offline then c.mapDev (fun d => d.bankUpd bk (fun x => { x with st := .waking })) else go c
    | .on => if t = .on then c.mapDev (bankReach bk t now) else go c
    | .offline => if t = .offline then c.mapDev (bankReach bk t now) else go c

/-! ## The commands -/

def execBankStateRequest (bk : BankNo) (v : Word) (s : State) : Host.Outcome State Fault Refusal :=
  s.runDev (bctlWrite bk v)
def execBankStateChange (bk : BankNo) (s : State) : Host.Outcome State Fault Refusal := s.run (bankChange bk)
def execBankPowerComplete (bk : BankNo) (s : State) : Host.Outcome State Fault Refusal := s.run (bankPowered bk)
def execMaceGo (v : Word) (s : State) : Host.Outcome State Fault Refusal := s.run (mctlWrite (v ||| 1))
def execMaceAbort (s : State) : Host.Outcome State Fault Refusal := s.runDev maceAbort
def execMaceWindow (part : WindowPart) (s : State) : Host.Outcome State Fault Refusal := s.run (maceWindow part)
def execDestructiveRun (faults : List RowFault) (spareFaults : List SpareFault) (s : State) :
    Host.Outcome State Fault Refusal := s.runDev (destrEnd faults spareFaults)

end Sys2Proof.Machine
end

