-- ==== Sys2Proof/Machine/Commit.lean ====
section
/-! DEFINITION. The commit stage (R15, R90, R91, R119, R127, R139 to R143), edge placement (R92 to R95),
armed pulses (R101, R102) and the snapshot (R145, R478). -/

namespace Sys2Proof.Machine

open Sys2Proof

/-! ## Program action commits -/

/-- R15, R139: the commit instant of a provisional entry on channel `c` has come. NEVER never comes. -/
def entryDue (c : Chan) (now : Nat) (d : Device) (e : ProvEntry) : Bool :=
  e.t ≠ never && decide (commitAt e.t (d.lead c) ≤ (now : Int))

/-- R90: of two entries `f` commits before `e`: earlier commit instant, then earlier T, then program order. -/
def commitsBefore (f e : ProvEntry) : Bool :=
  f.t < e.t || (f.t == e.t && (f.seq < e.seq || (f.seq == e.seq && f.ord < e.ord)))

/-- R90: the first of the due entries in commit order. -/
def firstDue : List ProvEntry → Option ProvEntry
  | [] => none
  | e :: l =>
    match firstDue l with
    | none => some e
    | some f => if commitsBefore f e then some f else some e

/-- An entry leaves its provisional queue. -/
def dropProv (c : Chan) (e : ProvEntry) (d : Device) : Device :=
  d.chnUpd c (fun h => { h with prov := dropFirst (fun x => x == e) h.prov })

/-- R139: an entry is late at `now`: a placeholder, or an action whose commit instant has passed. -/
def isLate (c : Chan) (now : Nat) (d : Device) (e : ProvEntry) : Bool :=
  e.holder || decide (commitAt e.t (d.lead c) < (now : Int))

/-- R140: the LATE record of policy `pol` with argument `arg`, LATECNT and a margin of 0. -/
def lateRecord (c : Chan) (pol arg : Nat) (now : Nat) (d : Device) : Device :=
  raiseChn 4 c 0x02 (pol + 1) arg now
    (d.statUpd c (fun s => { s with latecnt := satInc 32 s.latecnt, margin := 0 }))

/-- R143, R112: the code with which an action that meets no other condition commits. -/
def commitCode (e : ProvEntry) : Code :=
  match e.pos with
  | some p => if p.coast then .acquire else if e.rerun then .revised else .ok
  | none => if e.rerun then .revised else .ok

/-- R101: the lookout a program action is armed against. -/
def ProvEntry.arm (e : ProvEntry) : Option LkNo := if e.ty = .trippulse then some e.lk else none

/-- R15, R125, R147: the action commits; its settled bit is set, and RUN and FROZEN clear. -/
def commitAction (c : Chan) (e : ProvEntry) (now : Nat) (d : Device) : Device :=
  let d := settle e.home e.seq e.ord (dropProv c e d)
  let d := d.statUpd e.home (fun s => { s with run := 0, frozen := false })
  commitEntry c .program e.ty e.lvl e.t e.w e.arm now d

/-- R91, R139, R140: an entry that is late, or meets a full committed queue, falls to the late policy. -/
def latePolicy (c : Chan) (e : ProvEntry) (late full : Bool) (now : Nat) (d : Device) : Device :=
  let pol := (d.chn.at c).cfg.live.late
  let gone : Device → Device := fun d => settle e.home e.seq e.ord (dropProv c e d)
  match pol with
  | 2 => latePolicyHalt 4 c (if late then 0 else 1) now d
  | 1 =>
    let d := setCode c .late (lateRecord c 1 (if full then 1 else 0) now d)
    if full then gone d else commitAction c e now d
  | _ => gone (setCode c .late (lateRecord c 0 (if late then 0 else 1) now d))

/-- R15, R91, R127, R139 to R143: what happens to an entry at its commit instant. -/
def commitOne (c : Chan) (e : ProvEntry) (now : Nat) (d : Device) : Device :=
  if !e.marks.isEmpty then settle e.home e.seq e.ord (dropProv c e d)
  else if !linkUp c d then setCode c .linklost (settle e.home e.seq e.ord (dropProv c e d))
  else
    let late := isLate c now d e
    let full := decide (4 ≤ (d.chn.at c).comm.length)
    if late || full then latePolicy c e late full now d
    else setCode c (commitCode e) (commitAction c e now d)

/-- The first entry of channel `c` due at `now` meets its commit instant. -/
def commitNext (c : Chan) (now : Nat) (d : Device) : Device :=
  match firstDue ((d.chn.at c).prov.filter (entryDue c now d)) with
  | some e => commitOne c e now d
  | none => d

/-- R119 step 4: the due entries of channel `c`, at most the eight its queue holds, in order. -/
def commitAll (c : Chan) (now : Nat) (d : Device) : Device := (nats 8).foldl (fun d _ => commitNext c now d) d

/-! ## Retirement (R92) -/

/-- R92: the entry retires at or before `now`. -/
def retireDue (now : Nat) (e : CommEntry) : Bool :=
  match e.retireAt with
  | some t => due t now
  | none => false

/-- R92: the first entry due to retire retires. -/
def retireOne (c : Chan) (now : Nat) (d : Device) : Device :=
  d.chnUpd c (fun h => { h with comm := dropFirst (retireDue now) h.comm })

/-- R92: every entry due to retire retires, and windows whose close tick has come close. -/
def retireAll (c : Chan) (now : Nat) (d : Device) : Device :=
  let d := (nats 4).foldl (fun d _ => windowClose c now d) d
  d.chnUpd c (fun h => { h with comm := h.comm.filter (fun e => !retireDue now e) })

/-! ## Armed pulses (R101, R102, R318) -/

/-- R101, R102, R318: a pulse of `c` is suppressed or terminated by lookout `k`. -/
def tripRecord (c : Chan) (k : LkNo) (cause : Nat) (now : Nat) (d : Device) : Device :=
  let ev := bitOf (d.chn.at c).cfg.even 2
  let d := setCode c .trip (d.statUpd c (fun s => { s with tripcnt := satInc 32 s.tripcnt }))
  if ev then raiseChn 4 c 0x05 cause k.val now d else d

/-- R101: the entry's leading edge at the ball lies in the base period that begins at `now`, and its latch has
not yet been sampled. -/
def testDue (now : Nat) (e : CommEntry) : Bool :=
  match e.lk, e.edges with
  | some _, p :: _ => !e.tested && e.leadAt == none && decide (p.ball < (now : Int) + 32)
  | _, _ => false

/-- R101: the armed pulses of `c` that begin in this base period: suppressed if the latch is tripped. -/
def testPulses (c : Chan) (now : Nat) (d : Device) : Device :=
  ((d.chn.at c).comm.filter (testDue now)).foldl (fun d e =>
    match e.lk with
    | some k =>
      if (d.lko.at k).latch then
        tripRecord c k 0x02 now (d.chnUpd c (fun h => { h with comm := dropFirst (fun x => x == e) h.comm }))
      else d.chnUpd c (fun h => { h with comm := h.comm.map (fun x => if x = e then { x with tested := true } else x) })
    | none => d) d

/-- R102: the ball time of the scheduled end of a pulse: its trailing edge, or the end of a period it fills. -/
def CommEntry.endAt (e : CommEntry) (skew : Int) : Option Int :=
  match e.edges with
  | p :: _ => some p.ball
  | [] => e.until?.map (fun u => (u : Int) - skew)

/-- R102: the terminating edge of an active armed pulse of channel `c` on a filtered trip at `now`. -/
def terminateEntry (skew : Int) (now : Nat) (e : CommEntry) : Option CommEntry :=
  match e.leadAt, e.lk, e.endAt skew with
  | some l, some _, some x =>
    let n : Int := max ((now : Int) + 64) (l + 64)
    if l < (now : Int) ∧ (now : Int) < x ∧ n < x then
      some { e with edges := [⟨n, lowBits 64 (n + skew), !e.lvl⟩], lk := none, until? := none, retireAt := none }
    else none
  | _, _, _ => none

/-- R102: filtered trips terminate the active armed pulses of channel `c`. -/
def terminatePulses (c : Chan) (now : Nat) (d : Device) : Device :=
  (d.chn.at c).comm.foldl (fun d e =>
    match e.lk with
    | some k =>
      if (d.lko.at k).fout then
        match terminateEntry (d.chn.at c).cfg.skew now e with
        | some e' =>
          tripRecord c k 0x01 now
            (d.chnUpd c (fun h => { h with comm := h.comm.map (fun x => if x = e then e' else x) }))
        | none => d
      else d
    | none => d) d

/-! ## Placement (R93, R94, R108) -/

/-- The earliest ball time among the edges to place. -/
def nextBall (q : List CommEntry) : Option Int :=
  (q.flatMap (fun e => e.edges.map (fun p => p.ball))).foldl (fun m b =>
    match m with
    | none => some b
    | some x => some (min x b)) none

/-- R94: of the edges on one tick, the one of the action committed later sets the level. -/
def lastOn (b : Int) (q : List CommEntry) : Option PinEdge :=
  (q.flatMap (fun e => e.edges.filter (fun p => p.ball == b))).getLast?

/-- R92: an entry whose edges on tick `b` have been placed, at ball time `p`. -/
def placedEntry (b p : Int) (e : CommEntry) : CommEntry :=
  if e.edges.any (fun x => x.ball == b) then
    let rest := e.edges.filter (fun x => x.ball != b)
    { e with
      edges := rest, leadAt := some (e.leadAt.getD p)
      retireAt := if rest.isEmpty then
          some (match e.until? with
            | some u => ceil32 u
            | none => lowBits 64 (Int.fdiv p 32 * 32 + 32))
        else none }
  else e

/-- R94: the ball time at which an edge due at `b` is placed, when it makes a transition. -/
def spacedBall (last : Option Int) (b : Int) : Int :=
  match last with
  | some l => if b < l + 64 then l + 64 else b
  | none => b

/-- R93, R94: the pin cell places its next edge, if it falls in the base period that begins at `now`. -/
def placeNext (c : Chan) (now : Nat) (d : Device) : Device :=
  let h := d.chn.at c
  match nextBall h.comm with
  | none => d
  | some b =>
    match lastOn b h.comm with
    | none => d
    | some e =>
      let drv := ballFor h.cfg.inv e.lvl
      let move := drv != h.pin.drive
      let p := if move then spacedBall h.pin.lastAt b else b
      if p < (now : Int) + 32 then
        let d := if p ≠ b then setNarrow c now d else d
        d.chnUpd c (fun h => { h with
          comm := h.comm.map (placedEntry b p)
          pin := if move then { h.pin with drive := drv, lastAt := some p, edgeT := lowBits 64 (p + (e.t - b)) } else h.pin })
      else d

/-- R93: the edges of one base period, at most the eight of four entries. -/
def placeAll (c : Chan) (now : Nat) (d : Device) : Device := (nats 8).foldl (fun d _ => placeNext c now d) d

/-- R108: the edges handed over join those whose time has not passed, in time order. -/
def mergeSlot (l : List PinEdge) (q : List (Nat × Bool)) : List (Nat × Bool) :=
  l.foldl (fun q p => insertBefore (fun x => decide (p.t < x.1)) (p.t, p.lvl) q) q

/-- R92, R98: an entry whose edges have been handed to the link scheduler retires at the next boundary, or at the end of the
period it fills. -/
def handed (now : Nat) (e : CommEntry) : CommEntry :=
  if e.edges.isEmpty then e
  else { e with edges := [], retireAt := some (match e.until? with
    | some u => ceil32 u
    | none => addT now 32) }

/-- R119 step 5, R108, R297: a link channel hands the edges of its committed entries to the link scheduler. -/
def handOver (c : Chan) (now : Nat) (d : Device) : Device :=
  let l := (d.chn.at c).comm.flatMap (fun e => e.edges)
  if l.isEmpty then d
  else
    let d := d.glwUpd (linkOf c) (fun w => { w with
      edges := w.edges ++ l.map (fun p => { slot := slotOf c, lvl := p.lvl, t := p.t }) })
    d.chnUpd c (fun h => { h with
      comm := h.comm.map (handed now)
      pin := { h.pin with slotEdges := mergeSlot l h.pin.slotEdges } })

/-- R108, R121: the first edge of a link slot whose time has passed by the end of the base period. -/
def slotPass (c : Chan) (now : Nat) (d : Device) : Device :=
  d.pinUpd c (fun p =>
    match p.slotEdges with
    | (t, l) :: q =>
      if t < now + 32 then
        { p with slotEdges := q, slotLvl := l, edgeT := if l = p.slotLvl then p.edgeT else t }
      else p
    | [] => p)

/-- R93, R108: the edge of a channel that falls in the base period beginning at `now`. -/
def edgePlaced (c : Chan) (now : Nat) (d : Device) : Device :=
  if isLink c then slotPass c now (handOver c now d) else placeNext c now (testPulses c now d)

/-! ## Status and snapshot (R121, R145, R178, R478) -/

/-- R113: CHN_STAT.CODE. -/
def Code.num (k : Code) : Nat :=
  match k with
  | .ok => 0 | .late => 1 | .revised => 2 | .nofix => 3 | .acquire => 4 | .qfull => 5 | .trip => 6
  | .linklost => 7 | .bankasleep => 8 | .progfault => 9 | .halted => 10

/-- R121: CHN_STAT.LEVEL: the logical level at the pin or slot. -/
def chanLevel (c : Chan) (h : Channel) : Bool := if isLink c then h.pin.slotLvl else h.pin.ball != h.cfg.inv

/-- R89, R113, R124: the wait in which the program of a home channel stands, as a code. -/
def waitCode (p : Prog) : Option Code :=
  match p.wait with
  | .hold _ _ => some .nofix
  | .qspace _ | .segSpace | .effSpace | .ckptSpace => some .qfull
  | _ => none

/-- R124, R158: a service of home `c` is requested and cannot begin for want of a segment or a checkpoint. -/
def noRoom (c : Chan) (d : Device) : Bool :=
  let p := (d.chn.at c).prog
  p.running && p.svc.isNone && d.hlm.q.any (fun r => r.ch == c) && (decide (4 ≤ p.segs.length) || decide (1024 ≤ d.ckptUsed))

/-- R89, R113, R124: the code that the wait of a program shows; QFULL also until an instruction that waited for queue space
executes again, and while a requested service cannot begin. -/
def progCode (c : Chan) (d : Device) : Option Code :=
  let p := (d.chn.at c).prog
  match waitCode p with
  | some k => some k
  | none => if p.again || noRoom c d then some .qfull else none

/-- R113: CODE as read: NOFIX and QFULL show while the program of the channel stands in such a wait, but not over a code
that persists (R112). -/
def shownCode (c : Chan) (d : Device) : Code :=
  let k := (d.chn.at c).stat.code
  match progCode c d with
  | some w => if k.sticky || (k == .linklost && !linkUp c d) then k else w
  | none => k

/-- R121: CHN_STAT. -/
def chnStatWord (c : Chan) (d : Device) : Word :=
  let h := d.chn.at c
  let s := h.stat
  w32 ((shownCode c d).num + 16 * (chanLevel c h).toNat + 32 * s.driven.toNat + 64 * s.done.toNat +
    256 * s.narrow.toNat + 512 * s.covf.toNat + 1024 * s.cfgerr.toNat + 2048 * s.cfgign.toNat +
    4096 * s.stgref.toNat + 65536 * (h.comm.length % 8) + 1048576 * (h.pin.cap.length % 32))

/-- R178: CHN_PSTAT.WKIND. -/
def wkind (p : Prog) : Nat :=
  match p.wait with
  | .runnable => 14
  | .stopped => 15
  | .wait k _ _ _ _ => k.val
  | .hold _ _ => 8
  | .qspace _ | .segSpace | .effSpace | .ckptSpace => 9
  | .applyPend _ => 10
  | .micro k _ => k.toNat

/-- R178: CHN_PSTAT; on a member channel, and where no program is bound, it reads as its reset value. -/
def pstatWord (c : Chan) (d : Device) : Word :=
  let h := d.chn.at c
  if h.cfg.bound && !h.cfg.member then
    let p := h.prog
    let k := if p.wait = .runnable ∧ noRoom c d then 9 else wkind p
    w32 (p.released.pc.toNat + 65536 * k + 1048576 * p.running.toNat + 2097152 * p.long.toNat +
      16777216 * (p.dsig.toNat % 256))
  else 0x000F_0000

/-- R121: CHN_NEXT: T of the earliest committed edge whose time has not come; all ones if none. -/
def nextEdgeT (h : Channel) : Nat :=
  (h.comm.flatMap (fun e => e.edges.map (fun p => p.t)) ++ h.pin.slotEdges.map (fun x => x.1)).foldl min never

/-- R17: a staged set as it is in effect on channel `c`: its lead is the effective one. -/
def inEffect (c : Chan) (s : StSet) : StSet := { s with lead := setFld s.lead 10 0 (effLead c s.leadVal) }

/-- R9, R17, R145: what a snapshot keeps of a channel. -/
def chSnap (c : Chan) (d : Device) : ChSnap :=
  let h := d.chn.at c
  { stat := chnStatWord c d, pstat := pstatWord c d, edge := h.pin.edgeT, next := nextEdgeT h, live := inEffect c h.cfg.live
    rel := h.prog.released }

/-- R70: AXS_STAT.STATE. -/
def AxState.num (s : AxState) : Nat := match s with | .nofix => 0 | .acquiring => 1 | .steady => 2

/-- R81: AXS_STAT. -/
def axsStatWord (e : AxEst) : Word :=
  w32 (e.st.num + 16 * (e.nfix % 16) + 256 * e.fixlate.toNat + 512 * e.ovr.toNat + 1024 * e.qerr.toNat +
    2048 * e.cfgign.toNat)

/-- R9, R145: what a snapshot keeps of an axis. -/
def axSnap (x : AxisSt) : AxSnap :=
  let e := x.est
  { stat := axsStatWord e, epoch := e.epoch, tf := e.tf, x := e.x, turns := e.turns, v := e.v, a := e.a, res := e.res }

/-- R478: the copy is taken, SYS_SNAPT takes the boundary and SYS_SNAPCNT counts it. -/
def takeSnapshot (now : Nat) (d : Device) : Device :=
  { d with sys := { d.sys with
      snapcnt := (d.sys.snapcnt + 1) % 4294967296, snapt := now, snapReq := false
      snap := some { chn := Vector.ofFn (fun c => chSnap c d)
                     axs := Vector.ofFn (fun a => axSnap (d.axs.at a)) } } }

/-! ## The commands -/

def execActionCommit (ch : Chan) (s : State) : Host.Outcome State Fault Refusal := s.runDev (commitNext ch)
def execEdgePlaced (ch : Chan) (s : State) : Host.Outcome State Fault Refusal := s.runDev (edgePlaced ch)
def execEntryRetire (ch : Chan) (s : State) : Host.Outcome State Fault Refusal := s.runDev (retireOne ch)
/-- R144, R145, R478: the snapshot asked for is copied in step 6 of the boundary. -/
def execSnapshot (s : State) : Host.Outcome State Fault Refusal :=
  s.runDev (fun _ d => { d with sys := { d.sys with snapReq := true } })

end Sys2Proof.Machine
end

