-- ==== Sys2Proof/Machine/Clove.lean ====
section
/-! DEFINITION. Clove engines (chapter 10): lines, outputs, the table, stepping, swaps and data exchange. -/

namespace Sys2Proof.Machine

open Sys2Proof

/-- R276: a record of clove engine `n`. -/
def raiseClv (n : CloveNo) (kind cause arg now : Nat) (d : Device) : Device :=
  raise 4 (224 + n.val / 2) kind cause (arg % 128 * 2 + n.val % 2) now d

/-- R277: the bits of CLV_STAT[27:21], as bits 0 to 6: WREF, RXOVF, TXOVF, QDROP, LATEO, NOSTAMP, TXEMPTY. -/
def cloveFlag (n : CloveNo) (b : Nat) (d : Device) : Device :=
  d.clvUpd n (fun c => { c with flagsW := c.flagsW ||| BitVec.ofNat 7 (2 ^ b) })

/-! ## Configuration fields (R277) -/

def Clove.sin (c : Clove) : Nat := fld c.cfg 2 0
def Clove.sout (c : Clove) : Nat := fld c.cfg 6 4
def Clove.nbits (c : Clove) : Nat := let k := fld c.cfg 13 8; if k = 0 then 32 else k
def Clove.rxreq (c : Clove) : Bool := bitOf c.cfg 16
def Clove.txreq (c : Clove) : Bool := bitOf c.cfg 17
def Clove.evLateo (c : Clove) : Bool := bitOf c.cfg 20
def Clove.evSwap (c : Clove) : Bool := bitOf c.cfg 21

/-- R266: the initial output byte of a bank. -/
def Clove.initOf (c : Clove) (b : Bool) : Byte := BitVec.ofNat 8 (if b then fld c.init 15 8 else fld c.init 7 0)

/-- R262: the channel that output `k` drives. -/
def Clove.mapped (c : Clove) (k : Fin 8) : Option Chan :=
  let m := c.omap.at k
  if bitOf m 8 then some (Fin.ofNat 512 (fld m 7 0)) else none

/-! ## Lines (R261) -/

/-- R261: the value of line `k` of engine `n` at boundary `now`. -/
def lineValue (n : CloveNo) (k : Nat) (now : Nat) (d : Device) : Bool :=
  let c := d.clv.at n
  let l := c.line.at (Fin.ofNat 8 k)
  let i := fld l 15 8
  match fld l 2 0 with
  | 0 => false
  | 1 => let h := d.chn.at (Fin.ofNat 512 i); h.pin.line != h.cfg.inv
  | 2 => bitOf c.flag (i % 8)
  | 3 => bitOf (d.evc.src.at (Fin.ofNat 256 i)).rcnt 0
  | 4 => decide (c.ent + 32 * fld (c.timE.at (Fin.ofNat 2 i)) 23 0 ≤ now)
  | 5 => decide (c.nbits ≤ c.scnt)
  | 6 => bitOf c.out (i % 8)
  | _ => !c.tx.isEmpty

/-! ## Outputs (R262 to R264) -/

/-- R264: an output action of this channel is dropped. -/
def outputDropped (c : Chan) (d : Device) : Bool :=
  let h := d.chn.at c
  !h.cfg.en || h.cfg.mode != 1 || isLink c || h.stat.safe || decide (4 ≤ h.comm.length)

/-- R263: the edge of an output action: one with T before `now + 32` goes to phase 0 of that base period. -/
def cloveEdge (c : Chan) (g : ChnCfg) (t : Nat) (lvl : Bool) (now : Nat) : PinEdge :=
  if t < now + 32 then ⟨now + 32, t, lvl⟩ else mkEdge c g t lvl now

/-- R263: output `k` of engine `n`, driving channel `c`, changes to `lvl` at time `t`: its action is made. -/
def outputAction (n : CloveNo) (k : Fin 8) (c : Chan) (lvl : Bool) (t now : Nat) (d : Device) : Device :=
  let d :=
    if t < now + 32 then
      let d := cloveFlag n 4 d
      if (d.clv.at n).evLateo then raiseClv n 0x04 0x13 k.val now d else d
    else d
  { d with turn := { d.turn with outs := d.turn.outs ++ [⟨n, k, c, lvl, t⟩] } }

/-- R263, R264: an output action enters the committed queue of its channel, after the program commits of the boundary. -/
def placeOutput (o : CloveOut) (now : Nat) (d : Device) : Device :=
  let n := o.n
  let k := o.k
  let c := o.ch
  let lvl := o.lvl
  let t := o.t
  if outputDropped c d then raiseClv n 0x04 0x11 k.val now (cloveFlag n 3 d)
  else
    pushEntry c
      { src := .clove, ty := .level, lvl := lvl, t := t, w := 0, lk := none, tested := false, leadAt := none
        edges := [cloveEdge c (d.chn.at c).cfg t lvl now], until? := none, first := none, nEdge := 0, retireAt := none } d

/-- R119, R263: the output actions of this boundary enter their queues. -/
def placeOutputs (now : Nat) (d : Device) : Device :=
  d.turn.outs.foldl (fun d o => placeOutput o now d) { d with turn := { d.turn with outs := [] } }

/-- R263: the outputs of engine `n` go from `old` to `new` with actions at time `t`. -/
def setOutputs (n : CloveNo) (old new : Byte) (t now : Nat) (d : Device) : Device :=
  let d := d.clvUpd n (fun c => { c with out := new })
  (fins 8).foldl (fun d k =>
    if bitOf old k.val != bitOf new k.val then
      match (d.clv.at n).mapped k with
      | some c => outputAction n k c (bitOf new k.val) t now d
      | none => d
    else d) d

/-- R269: a change of outputs creates an action. -/
def createsAction (c : Clove) (new : Byte) : Bool :=
  (fins 8).any (fun k => bitOf c.out k.val != bitOf new k.val && (c.mapped k).isSome)

/-! ## The table (R266 to R268) -/

/-- R266: word `w` of the bank of engine `n`. -/
def Ram.clvWord (r : Ram) (n : CloveNo) (b : Bool) (w : Nat) : Word :=
  w32 (r.lutRead 4 (n.val * 0x800 + b.toNat * 0x400 + 4 * (w % 256)))

/-- R267: SAFE, NSEL and SEL of a lead word. -/
def leadSafe (w : Word) : Bool := bitOf w 31
def leadNsel (w : Word) : Nat := fld w 30 29
def leadSel (w : Word) : Nat := fld w 28 26

/-- R268: the transition index, from the lines selected. -/
def transIndex (nsel sel : Nat) (line : Nat → Bool) : Nat :=
  let b : Nat → Nat := fun i => if i < nsel then (line ((sel + i) % 8)).toNat else 0
  b 0 + 2 * b 1 + 4 * b 2

/-- R275: the transition word of a state faults; `partner` is the lead word of the even partner of NEXT. -/
def wordFaults (st : Nat) (lead w partner : Word) : Bool :=
  fld w 15 14 == 3 || fld w 18 16 == 7 || (leadNsel lead == 3 && st % 2 == 1) ||
  (fld w 0 0 == 1 && leadNsel partner == 3)

/-! ## Actions of a transition (R265, R269, R274) -/

/-- R274: POST: the pair joins the RX FIFO and is delivered as a fix, and SR, SCNT and the latch's mark clear. -/
def clovePost (n : CloveNo) (now : Nat) (d : Device) : Device :=
  let c := d.clv.at n
  let stamp := if c.stmpV then c.stmp else now
  let d := if c.stmpV then d else cloveFlag n 5 d
  let d := if 4 ≤ c.rx.length then raiseClv n 0x04 0x12 0 now (cloveFlag n 1 d)
    else d.clvUpd n (fun c => { c with rx := c.rx ++ [(c.sr, stamp)] })
  let d := if c.rx.isEmpty then { d with turn := { d.turn with post := d.turn.post ||| w32 (2 ^ n.val) } } else d
  let d := postFix n c.sr stamp now d
  d.clvUpd n (fun c => { c with sr := 0, scnt := 0, stmpV := false })

/-- R269: LOAD. -/
def cloveLoad (n : CloveNo) (d : Device) : Device :=
  match (d.clv.at n).tx with
  | w :: l => d.clvUpd n (fun c => { c with sr := w, scnt := 0, tx := l })
  | [] => cloveFlag n 6 (d.clvUpd n (fun c => { c with sr := 0, scnt := 0 }))

/-- R269: the ACT of a transition; `stamp` is what STAMP latches. -/
def cloveAct (n : CloveNo) (act arg stamp now : Nat) (d : Device) : Device :=
  match act with
  | 1 => d.clvUpd n (fun c => { c with stmp := stamp, stmpV := true })
  | 2 => clovePost n now d
  | 3 => cloveLoad n d
  | 4 => d.clvUpd n (fun c => { c with flag := setFld c.flag (arg % 8) (arg % 8) (arg / 8 % 2) })
  | 5 => raiseClv n 0x01 0x01 arg now d
  | 6 => d.clvUpd n (fun c => { c with sr := 0, scnt := 0 })
  | _ => d

/-- R265: the shift of a transition, on SR and SCNT. -/
def cloveShift (sh : Nat) (inp : Bool) (c : Clove) : Clove :=
  if sh = 0 then c
  else { c with sr := (c.sr <<< 1) ||| (if sh = 1 ∧ inp then 1 else 0), scnt := min 63 (c.scnt + 1) }

/-! ## Swaps (R271, R272) -/

/-- R271, R272: the banks are swapped at `now`; `forced` is the argument of SWAPPED. -/
def cloveSwap (n : CloveNo) (forced : Bool) (now : Nat) (d : Device) : Device :=
  let c := d.clv.at n
  let b := !c.bank
  let d := d.clvUpd n (fun c => { c with bank := b, pend := false, st := 0, ent := now })
  let d := setOutputs n c.out (c.initOf b) (now + 32) now d
  if c.evSwap then raiseClv n 0x01 0x02 forced.toNat now d else d

/-- R272: FORCE_SWAP; on a stopped engine, which does not act (R270), it is an ignored write and sets WREF (R277, log 42). -/
def forceSwap (n : CloveNo) (now : Nat) (d : Device) : Device :=
  if (d.clv.at n).run then
    cloveSwap n true now (d.clvUpd n (fun c => { c with shifted := c.scnt, sr := 0, scnt := 0, forced := true }))
  else cloveFlag n 0 d

/-! ## Stepping (R270, R275) -/

/-- R275: a faulting word stops the engine. -/
def badWord (n : CloveNo) (now : Nat) (d : Device) : Device :=
  raiseClv n 0x04 0x10 (d.clv.at n).st.toNat now (d.clvUpd n (fun c => { c with run := false, fault := true }))

/-- R263, R265, R269, R270 steps 4 and 5: the transition word `w` is performed. -/
def cloveTransition (n : CloveNo) (w : Word) (now : Nat) (d : Device) : Device :=
  let c := d.clv.at n
  let sh := fld w 15 14
  let inp := lineValue n c.sin now d
  let new : Byte := BitVec.ofNat 8 (fld w 13 6)
  let new := if sh = 2 then setFld new c.sout c.sout c.sr.msb.toNat else new
  let t := if bitOf w 23 then (c.ent + (c.tofs.at (Fin.ofNat 4 (fld w 25 24))).toNat) % two64 else now + 32
  let stamp := if createsAction c new then t else now + 32
  let d := d.clvUpd n (cloveShift sh inp)
  let d := setOutputs n c.out new t now d
  let d := cloveAct n (fld w 18 16) (fld w 22 19) stamp now d
  let nx : BitVec 6 := BitVec.ofNat 6 (fld w 5 0)
  d.clvUpd n (fun c' => { c' with st := nx, ent := if nx = c.st then c.ent else now })

/-- R271: the pending swap occurs at step 6. -/
def swapTest (n : CloveNo) (r : Ram) (now : Nat) (d : Device) : Device :=
  let c := d.clv.at n
  if c.pend && (c.st == 0 || leadSafe (r.clvWord n c.bank (4 * c.st.toNat))) then cloveSwap n false now d else d

/-- R270: engine `n` acts at boundary `now`, once. -/
def cloveStep (n : CloveNo) (r : Ram) (now : Nat) (d : Device) : Device :=
  let c := d.clv.at n
  if !c.run || bitOf d.turn.clv n.val then d
  else
  let d : Device := { d with turn := { d.turn with clv := d.turn.clv ||| w32 (2 ^ n.val) } }
  if c.forced then d.clvUpd n (fun c => { c with forced := false })
  else
    let st := c.st.toNat
    let lead := r.clvWord n c.bank (4 * st)
    let j := transIndex (leadNsel lead) (leadSel lead) (fun k => lineValue n k now d)
    let w := r.clvWord n c.bank (4 * st + j)
    let partner := r.clvWord n c.bank (4 * (fld w 5 0 - 1))
    if wordFaults st lead w partner then badWord n now d
    else swapTest n r now (cloveTransition n w now d)

/-- R277: a write of CLV_TIM takes effect at the boundary after it. -/
def timersTake (n : CloveNo) (d : Device) : Device := d.clvUpd n (fun c => { c with timE := c.tim })

/-! ## Enable, disable and data exchange (R273, R274) -/

/-- R273: EN goes from 0 to 1. -/
def cloveEnable (n : CloveNo) (now : Nat) (d : Device) : Device :=
  let c := d.clv.at n
  if c.en then d
  else
    let d := d.clvUpd n (fun c => { c with
      en := true, run := true, fault := false, st := 0, ent := now, sr := 0, scnt := 0, stmpV := false
      tx := [], rx := [], forced := false })
    setOutputs n 0 (c.initOf c.bank) (now + 32) now d

/-- R273: EN goes from 1 to 0. -/
def cloveDisable (n : CloveNo) (d : Device) : Device :=
  d.clvUpd n (fun c => { c with en := false, run := false, pend := false, forced := false })

/-- R274: the word and stamp that the port of R349 pops. -/
def rxPop (n : CloveNo) (d : Device) : (Word × Nat) × Device :=
  match (d.clv.at n).rx with
  | x :: l => (x, d.clvUpd n (fun c => { c with rx := l }))
  | [] => ((0, 0), d)

/-- R274: a host read of CLV_RXD. A word posted at this boundary is not yet there (R270); what a read of an empty FIFO returns
is not stated. -/
def rxdRead (n : CloveNo) (d : Device) : Device :=
  let c := d.clv.at n
  let d := match (if bitOf d.turn.post n.val then [] else c.rx) with
    | (w, t) :: l => d.clvUpd n (fun c => { c with rxd := w, rxt := t, rx := if c.rxreq then (w, t) :: l else l })
    | [] => (d.clvUpd n (fun c => { c with rxd := d.freeWord, rxt := d.freeHigh.toNat })).freeTaken
  { d with hps := { d.hps with dout := (d.clv.at n).rxd } }

/-- R274, R349: a word is pushed into the TX FIFO, or refused with TXOVF. -/
def txPush (n : CloveNo) (v : Word) (d : Device) : Device :=
  if 4 ≤ (d.clv.at n).tx.length then cloveFlag n 2 d else d.clvUpd n (fun c => { c with tx := c.tx ++ [v] })

/-- R274, R277: a host write of CLV_TXD; a refused one sets WREF too. -/
def txdWrite (n : CloveNo) (v : Word) (d : Device) : Device :=
  if 4 ≤ (d.clv.at n).tx.length then cloveFlag n 0 (txPush n v d) else txPush n v d

/-- R277: CLV_FSET and CLV_FCLR. -/
def flagsSet (n : CloveNo) (m : Byte) (d : Device) : Device := d.clvUpd n (fun c => { c with flag := c.flag ||| m })
def flagsClear (n : CloveNo) (m : Byte) (d : Device) : Device := d.clvUpd n (fun c => { c with flag := c.flag &&& ~~~ m })

/-! ## The commands -/

def execCloveStep (n : CloveNo) (s : State) : Host.Outcome State Fault Refusal :=
  s.run (fun now c => { c with dev := cloveStep n c.ram now c.dev })
/-- R261: a TIMER line is read from the clock, so its expiry changes no other state. -/
def execCloveTimer (_ : CloveNo) (_ : Fin 2) (s : State) : Host.Outcome State Fault Refusal := s.runDev (fun _ d => d)
def execCloveEnable (n : CloveNo) (s : State) : Host.Outcome State Fault Refusal := s.runDev (cloveEnable n)
def execCloveDisable (n : CloveNo) (s : State) : Host.Outcome State Fault Refusal := s.runDev (fun _ => cloveDisable n)
def execSwap (n : CloveNo) (s : State) : Host.Outcome State Fault Refusal :=
  s.runDev (fun _ d => d.clvUpd n (fun c => { c with pend := true }))
def execForceSwap (n : CloveNo) (s : State) : Host.Outcome State Fault Refusal := s.runDev (forceSwap n)
def execCloveCancel (n : CloveNo) (s : State) : Host.Outcome State Fault Refusal :=
  s.runDev (fun _ d => d.clvUpd n (fun c => { c with pend := false }))
def execRxdRead (n : CloveNo) (s : State) : Host.Outcome State Fault Refusal := s.runDev (fun _ => rxdRead n)
def execTxdWrite (n : CloveNo) (v : Word) (s : State) : Host.Outcome State Fault Refusal := s.runDev (fun _ => txdWrite n v)
def execFlagSet (n : CloveNo) (mask : Byte) (s : State) : Host.Outcome State Fault Refusal :=
  s.runDev (fun _ => flagsSet n mask)
def execFlagClear (n : CloveNo) (mask : Byte) (s : State) : Host.Outcome State Fault Refusal :=
  s.runDev (fun _ => flagsClear n mask)

end Sys2Proof.Machine
end

