-- ==== Sys2Proof/Machine/Crypto.lean ====
section
/-! DEFINITION. The published algorithms the manual names: AES-128 (FIPS 197), AES-CMAC (SP 800-38B), AES-128-GCM
(SP 800-38D), SHA-256 (FIPS 180-4) and ECDSA P-256 verification (FIPS 186-4), for R256, R257, R410, R426. Octet
strings are lists of bytes. -/

namespace Sys2Proof.Machine

open Sys2Proof

/-! ## Octet strings -/

/-- The value of an octet string, first octet most significant. -/
def octNat (l : List Byte) : Nat := l.foldl (fun a b => 256 * a + b.toNat) 0

/-- `n` octets of a number, most significant first, put before `acc`. -/
def beBytesOnto : Nat → Nat → List Byte → List Byte
  | 0, _, acc => acc
  | n + 1, v, acc => beBytesOnto n (v / 256) (BitVec.ofNat 8 v :: acc)

/-- `n` octets of a number, most significant first. -/
def beBytes (n v : Nat) : List Byte := beBytesOnto n v []

/-- Octet-wise exclusive or. -/
def xorBytes (a b : List Byte) : List Byte := List.zipWith (· ^^^ ·) a b

/-- Octets `[lo, lo + n)`. -/
def octets (l : List Byte) (lo n : Nat) : List Byte := (l.drop lo).take n

/-- The blocks of `n` octets of a string, the last one perhaps shorter; at most `fuel` blocks. -/
def blocksOf (n : Nat) : Nat → List Byte → List (List Byte)
  | 0, _ => []
  | _ + 1, [] => []
  | f + 1, l => l.take n :: blocksOf n f (l.drop n)

/-- A string brought to `n` octets with zeros. -/
def padTo (n : Nat) (l : List Byte) : List Byte := l ++ List.replicate (n - l.length) 0

/-! ## AES-128 (FIPS 197) -/

/-- Multiplication by x in GF(2^8). -/
def xtime (b : Byte) : Byte := (b <<< 1) ^^^ (if b.msb then 0x1B else 0)

/-- Multiplication in GF(2^8), over the low `n` bits of `b`. -/
def gmulGo : Nat → Byte → Byte → Byte
  | 0, _, _ => 0
  | n + 1, a, b => (if bitOf b 0 then a else 0) ^^^ gmulGo n (xtime a) (b >>> 1)

def gmul (a b : Byte) : Byte := gmulGo 8 a b

/-- `a ^ 254`, the inverse in GF(2^8) (0 of 0). -/
def ginv (a : Byte) : Byte :=
  let a2 := gmul a a
  let a4 := gmul a2 a2
  let a8 := gmul a4 a4
  let a16 := gmul a8 a8
  let a32 := gmul a16 a16
  let a64 := gmul a32 a32
  let a128 := gmul a64 a64
  gmul a128 (gmul a64 (gmul a32 (gmul a16 (gmul a8 (gmul a4 a2)))))

/-- SubBytes of one octet. -/
def sbox (a : Byte) : Byte :=
  let b := ginv a
  b ^^^ b.rotateLeft 1 ^^^ b.rotateLeft 2 ^^^ b.rotateLeft 3 ^^^ b.rotateLeft 4 ^^^ 0x63

/-- ShiftRows of a state held column by column. -/
def shiftRows (s : List Byte) : List Byte := (nats 16).map (fun i => s.getD ((i + 4 * (i % 4)) % 16) 0)

/-- MixColumns of one column. -/
def mixColumn (c : List Byte) : List Byte :=
  (nats 4).map (fun i =>
    gmul 2 (c.getD i 0) ^^^ gmul 3 (c.getD ((i + 1) % 4) 0) ^^^ c.getD ((i + 2) % 4) 0 ^^^ c.getD ((i + 3) % 4) 0)

def mixColumns (s : List Byte) : List Byte := (blocksOf 4 4 s).flatMap mixColumn

/-- The next round key. -/
def nextKey (rcon : Byte) (k : List Byte) : List Byte :=
  let t := [sbox (k.getD 13 0) ^^^ rcon, sbox (k.getD 14 0), sbox (k.getD 15 0), sbox (k.getD 12 0)]
  let w0 := xorBytes (k.take 4) t
  let w1 := xorBytes (octets k 4 4) w0
  let w2 := xorBytes (octets k 8 4) w1
  w0 ++ w1 ++ w2 ++ xorBytes (octets k 12 4) w2

/-- Rounds of AES with `n` rounds left. -/
def aesRounds : Nat → Byte → List Byte → List Byte → List Byte
  | 0, _, _, s => s
  | 1, rcon, k, s => xorBytes (shiftRows (s.map sbox)) (nextKey rcon k)
  | n + 1, rcon, k, s =>
    let k' := nextKey rcon k
    aesRounds n (xtime rcon) k' (xorBytes (mixColumns (shiftRows (s.map sbox))) k')

/-- AES-128 encryption of one block. -/
def aes (key block : List Byte) : List Byte := aesRounds 10 1 key (xorBytes block key)

/-! ## AES-CMAC (SP 800-38B) -/

/-- Doubling in the CMAC field. -/
def cmacDouble (b : List Byte) : List Byte :=
  let v := octNat b
  beBytes 16 (((2 * v) % 2 ^ 128) ^^^ (if 2 ^ 127 ≤ v then 0x87 else 0))

/-- The CBC chain over the blocks before the last, and the last block under its subkey. -/
def cmacChain (key k1 k2 : List Byte) : List (List Byte) → List Byte → List Byte
  | [], x => aes key (xorBytes x (xorBytes (padTo 16 [0x80]) k2))
  | [b], x =>
    if b.length = 16 then aes key (xorBytes x (xorBytes b k1))
    else aes key (xorBytes x (xorBytes (padTo 16 (b ++ [0x80])) k2))
  | b :: l, x => cmacChain key k1 k2 l (aes key (xorBytes x b))

/-- AES-CMAC with a 128-bit tag. -/
def cmac (key msg : List Byte) : List Byte :=
  let k1 := cmacDouble (aes key (List.replicate 16 0))
  cmacChain key k1 (cmacDouble k1) (blocksOf 16 (msg.length + 1) msg) (List.replicate 16 0)

/-! ## AES-128-GCM (SP 800-38D) -/

/-- Multiplication in the GCM field, bit 127 the coefficient of 1. -/
def ghashMul : Nat → Nat → Nat → Nat → Nat
  | 0, _, _, z => z
  | n + 1, x, v, z =>
    let z := if x.testBit n then z ^^^ v else z
    ghashMul n x (if v % 2 = 1 then (v / 2) ^^^ (0xE1 * 2 ^ 120) else v / 2) z

/-- GHASH over a string of whole blocks. -/
def ghash (h : Nat) (l : List Byte) : Nat :=
  (blocksOf 16 (l.length + 1) l).foldl (fun y b => ghashMul 128 (y ^^^ octNat b) h 0) 0

/-- The counter-mode key stream xored onto a string, from counter `c` on. -/
def gcmStream (key iv : List Byte) : List (List Byte) → Nat → List Byte
  | [], _ => []
  | b :: l, c => xorBytes b (aes key (iv ++ beBytes 4 c)) ++ gcmStream key iv l (c + 1)

/-- A string filled up to whole blocks. -/
def padBlocks (l : List Byte) : List Byte := padTo ((l.length + 15) / 16 * 16) l

/-- The GCM tag of a ciphertext with its additional data, for a 96-bit IV. -/
def gcmTag (key iv aad cipher : List Byte) : List Byte :=
  let h := octNat (aes key (List.replicate 16 0))
  let s := ghash h (padBlocks aad ++ padBlocks cipher ++ beBytes 8 (8 * aad.length) ++ beBytes 8 (8 * cipher.length))
  xorBytes (beBytes 16 s) (aes key (iv ++ beBytes 4 1))

/-- GCM encryption and decryption are one operation. -/
def gcmCrypt (key iv text : List Byte) : List Byte := gcmStream key iv (blocksOf 16 (text.length + 1) text) 2

/-! ## SHA-256 (FIPS 180-4) -/

def shaK : List Word :=
  [0x428a2f98, 0x71374491, 0xb5c0fbcf, 0xe9b5dba5, 0x3956c25b, 0x59f111f1, 0x923f82a4, 0xab1c5ed5] ++
  [0xd807aa98, 0x12835b01, 0x243185be, 0x550c7dc3, 0x72be5d74, 0x80deb1fe, 0x9bdc06a7, 0xc19bf174] ++
  [0xe49b69c1, 0xefbe4786, 0x0fc19dc6, 0x240ca1cc, 0x2de92c6f, 0x4a7484aa, 0x5cb0a9dc, 0x76f988da] ++
  [0x983e5152, 0xa831c66d, 0xb00327c8, 0xbf597fc7, 0xc6e00bf3, 0xd5a79147, 0x06ca6351, 0x14292967] ++
  [0x27b70a85, 0x2e1b2138, 0x4d2c6dfc, 0x53380d13, 0x650a7354, 0x766a0abb, 0x81c2c92e, 0x92722c85] ++
  [0xa2bfe8a1, 0xa81a664b, 0xc24b8b70, 0xc76c51a3, 0xd192e819, 0xd6990624, 0xf40e3585, 0x106aa070] ++
  [0x19a4c116, 0x1e376c08, 0x2748774c, 0x34b0bcb5, 0x391c0cb3, 0x4ed8aa4a, 0x5b9cca4f, 0x682e6ff3] ++
  [0x748f82ee, 0x78a5636f, 0x84c87814, 0x8cc70208, 0x90befffa, 0xa4506ceb, 0xbef9a3f7, 0xc67178f2]

def rotr (w : Word) (n : Nat) : Word := w.rotateRight n

/-- The message schedule: `n` further words, the schedule held newest first. -/
def shaSched : Nat → List Word → List Word
  | 0, w => w
  | n + 1, w =>
    let a := w.getD 14 0
    let b := w.getD 1 0
    shaSched n ((w.getD 15 0 + (rotr a 7 ^^^ rotr a 18 ^^^ (a >>> 3)) + w.getD 6 0 +
      (rotr b 17 ^^^ rotr b 19 ^^^ (b >>> 10))) :: w)

/-- The eight working variables. -/
structure ShaSt where
  a : Word
  b : Word
  c : Word
  d : Word
  e : Word
  f : Word
  g : Word
  h : Word
  deriving DecidableEq, Repr

def ShaSt.round (s : ShaSt) (k w : Word) : ShaSt :=
  let t1 := s.h + (rotr s.e 6 ^^^ rotr s.e 11 ^^^ rotr s.e 25) + ((s.e &&& s.f) ^^^ (~~~ s.e &&& s.g)) + k + w
  let t2 := (rotr s.a 2 ^^^ rotr s.a 13 ^^^ rotr s.a 22) + ((s.a &&& s.b) ^^^ (s.a &&& s.c) ^^^ (s.b &&& s.c))
  ⟨t1 + t2, s.a, s.b, s.c, s.d + t1, s.e, s.f, s.g⟩

def ShaSt.plus (s t : ShaSt) : ShaSt :=
  ⟨s.a + t.a, s.b + t.b, s.c + t.c, s.d + t.d, s.e + t.e, s.f + t.f, s.g + t.g, s.h + t.h⟩

/-- One block of 64 octets. -/
def shaBlock (s : ShaSt) (b : List Byte) : ShaSt :=
  let w := (shaSched 48 ((blocksOf 4 16 b).map (fun x => w32 (octNat x))).reverse).reverse
  s.plus ((List.zip shaK w).foldl (fun s kw => s.round kw.1 kw.2) s)

def shaInit : ShaSt :=
  ⟨0x6a09e667, 0xbb67ae85, 0x3c6ef372, 0xa54ff53a, 0x510e527f, 0x9b05688c, 0x1f83d9ab, 0x5be0cd19⟩

/-- SHA-256 of a string, 32 octets. -/
def sha256 (l : List Byte) : List Byte :=
  let n := l.length
  let m := padTo ((n + 9 + 63) / 64 * 64 - 8) (l ++ [0x80]) ++ beBytes 8 (8 * n)
  let s := (blocksOf 64 (m.length + 1) m).foldl shaBlock shaInit
  [s.a, s.b, s.c, s.d, s.e, s.f, s.g, s.h].flatMap (fun w => beBytes 4 w.toNat)

/-! ## ECDSA P-256 (FIPS 186-4) -/

def p256 : Nat := 0xffffffff00000001000000000000000000000000ffffffffffffffffffffffff
def p256n : Nat := 0xffffffff00000000ffffffffffffffffbce6faada7179e84f3b9cac2fc632551
def p256b : Nat := 0x5ac635d8aa3a93e7b3ebbd55769886bc651d06b0cc53b0f63bce3c3e27d2604b
def p256g : Nat × Nat :=
  (0x6b17d1f2e12c4247f8bce6e563a440f277037d812deb33a0f4a13945d898c296,
   0x4fe342e2fe1a7f9b8ee7eb4a7c0f9e162bce33576b315ececbb6406837bf51f5)

/-- `b ^ e` modulo `m`, over the low `n` bits of `e`. -/
def powMod (m : Nat) : Nat → Nat → Nat → Nat
  | 0, _, _ => 1 % m
  | n + 1, b, e => (if e % 2 = 1 then b else 1) * powMod m n (b * b % m) (e / 2) % m

/-- The inverse modulo a prime. -/
def invMod (m a : Nat) : Nat := powMod m 256 (a % m) (m - 2)

/-- The sum of two points of the curve (`none` is the point at infinity). -/
def ecAdd (p q : Option (Nat × Nat)) : Option (Nat × Nat) :=
  match p, q with
  | none, _ => q
  | _, none => p
  | some (x1, y1), some (x2, y2) =>
    if x1 = x2 ∧ (y1 + y2) % p256 = 0 then none
    else
      let l := if x1 = x2 then 3 * (x1 * x1 + p256 - 1) * invMod p256 (2 * y1) % p256
        else (y2 + p256 - y1) * invMod p256 (x2 + p256 - x1) % p256
      let x := (l * l + 2 * p256 - x1 - x2) % p256
      some (x, (l * (x1 + p256 - x) + p256 - y1) % p256)

/-- `k` times a point, over the low `n` bits of `k`. -/
def ecMul : Nat → Nat → Option (Nat × Nat) → Option (Nat × Nat)
  | 0, _, _ => none
  | n + 1, k, p => ecAdd (if k % 2 = 1 then p else none) (ecMul n (k / 2) (ecAdd p p))

/-- The point lies on the curve. -/
def onCurve (x y : Nat) : Bool :=
  x < p256 && y < p256 && y * y % p256 == (x * x * x + (p256 - 3) * x + p256b) % p256

/-- The signature (r, s) over a message verifies under the public key. -/
def ecdsaVerify (qx qy : Nat) (msg : List Byte) (r s : Nat) : Bool :=
  let e := octNat (sha256 msg)
  let w := invMod p256n s
  onCurve qx qy && 1 ≤ r && r < p256n && 1 ≤ s && s < p256n &&
    match ecAdd (ecMul 256 (e * w % p256n) (some p256g)) (ecMul 256 (r * w % p256n) (some (qx, qy))) with
    | none => false
    | some (x, _) => x % p256n == r

end Sys2Proof.Machine
end

