-- ==== Sys2Proof/Machine/Operands.lean ====
section
/-! DEFINITION. What a routine of an MCIS instruction works on: instruction fields and register operands
(R157, R161, R179, R183), its environment, and the results it can stage (R175, R180, R250). -/

namespace Sys2Proof.Machine

open Sys2Proof

/-! ## Context registers (R157) -/

def Context.gr (c : Context) (i : Nat) : Word := c.g.at (Fin.ofNat 16 i)
def Context.tr (c : Context) (i : Nat) : DWord := c.t.at (Fin.ofNat 4 i)
def Context.pr (c : Context) (i : Nat) : BitVec 48 := c.p.at (Fin.ofNat 4 i)
def Context.setG (c : Context) (i : Nat) (v : Word) : Context := { c with g := c.g.put (Fin.ofNat 16 i) v }
def Context.setT (c : Context) (i : Nat) (v : DWord) : Context := { c with t := c.t.put (Fin.ofNat 4 i) v }
def Context.setP (c : Context) (i : Nat) (v : BitVec 48) : Context := { c with p := c.p.put (Fin.ofNat 4 i) v }

/-- R156: the PC moves to word `n`, which may lie beyond 0x7FFF. -/
def Context.goTo (c : Context) (n : Nat) : Context := { c with pc := BitVec.ofNat 15 n, past := decide (32768 ≤ n) }

/-- R194: the state word: PC in [14:0], Z N C V in [19:16], Z highest. -/
def Context.stateWord (c : Context) : Word :=
  w32 (c.pc.toNat + 65536 * c.v.toNat + 131072 * c.c.toNat + 262144 * c.n.toNat + 524288 * c.z.toNat)

/-! ## Instruction fields (R161) -/

def opOf (w : Word) : Nat := fld w 31 24
def fD (w : Word) : Nat := fld w 23 20
def fA (w : Word) : Nat := fld w 19 16
def fB (w : Word) : Nat := fld w 15 12
def fFn (w : Word) : Nat := fld w 11 0
def fImm (w : Word) : Nat := fld w 15 0
/-- R183: imm16 sign-extended, and zero-extended. -/
def sImm (w : Word) : Word := w32i (signedOf 16 (fImm w))
def zImm (w : Word) : Word := w32 (fImm w)
/-- R161: off20, a signed word offset. -/
def fOff20 (w : Word) : Int := signedOf 20 (fld w 19 0)
/-- R161 format A: the member index. -/
def fMember (w : Word) : Nat := fld w 23 21

/-- R182: the opcodes that an extension word follows. -/
def romX (op : Nat) : Bool := op == 0x0F || op == 0x21 || op == 0x31 || op == 0x90

/-- R182: the format of a ROM entry: 0 R, 1 I, 2 M, 3 B, 4 A, 5 W. -/
def romFmt (op : Nat) : Nat :=
  if op ≤ 0x0E then 0 else if op ≤ 0x1F then 1
  else if op = 0x21 ∨ op = 0x24 ∨ op = 0x31 ∨ (0x33 ≤ op ∧ op ≤ 0x37) ∨ (0x43 ≤ op ∧ op ≤ 0x45) ∨ op = 0x88 ∨
      op = 0x89 ∨ op = 0x90 ∨ op = 0x92 ∨ op = 0x93 then 1
  else if 0x40 ≤ op ∧ op ≤ 0x42 then 3
  else if (0x50 ≤ op ∧ op ≤ 0x55) ∨ op = 0x8A then 2
  else if 0x60 ≤ op ∧ op ≤ 0x64 then 4
  else if op = 0x80 then 5
  else 0

/-- R182: the opcode has a ROM routine. -/
def romValid (op : Nat) : Bool :=
  (0x01 ≤ op && op ≤ 0x0F) || (0x11 ≤ op && op ≤ 0x1E) || (0x20 ≤ op && op ≤ 0x26) || (0x30 ≤ op && op ≤ 0x37) ||
  (0x40 ≤ op && op ≤ 0x45) || (0x50 ≤ op && op ≤ 0x58) || (0x60 ≤ op && op ≤ 0x64) || op == 0x70 || op == 0x71 ||
  op == 0x78 || op == 0x79 || op == 0x80 || (0x88 ≤ op && op ≤ 0x8A) || (0x90 ≤ op && op ≤ 0x93)

/-! ## The environment of a routine -/

/-- What the routine of one instruction sees. -/
structure Env where
  now  : Nat
  home : Chan
  d    : Device
  ram  : Ram
  svc  : Service
  word : Word
  ext  : Word
  /-- R161: an extension word follows. -/
  x    : Bool
  deriving DecidableEq, Repr

/-- R238: the context with every write of the routines before this one. -/
def Env.ctx (e : Env) : Context := e.svc.ctx
/-- R160: the program of the home channel. -/
def Env.prog (e : Env) : Prog := (e.d.chn.at e.home).prog
/-- The word after the instruction and its extension. -/
def Env.next (e : Env) : Nat := e.ctx.pc.toNat + (if e.x then 2 else 1)

/-- R250: the writes of a routine that goes on to the next instruction with context `c`. -/
def Env.go (e : Env) (c : Context) : Staged :=
  { ctx := c.goTo e.next, newSeg := none, emit := false, act := none, held := [], convs := [], stop := false, zmark := false
    tail := none, late := false, fin := .go, at' := e.now }

/-- R175: the routine ends with a fault and makes no write. -/
def Env.fault (e : Env) (code : Nat) (sub : Nat := 0) : Staged :=
  { ctx := e.ctx, newSeg := none, emit := false, act := none, held := [], convs := [], stop := false, zmark := false, tail := none, late := false
    fin := .fault ⟨code, sub, e.ctx.pc, none⟩, at' := e.now }

/-- R165, R167: the routine ends the service in a wait, with PC at the instruction. -/
def Env.block (e : Env) (w : WaitState) : Staged :=
  { ctx := e.ctx, newSeg := none, emit := false, act := none, held := [], convs := [], stop := false, zmark := false, tail := none, late := false
    fin := .block w, at' := e.now }

/-- The routine goes to word `n`. -/
def Staged.to (n : Nat) (r : Staged) : Staged := { r with ctx := r.ctx.goTo n }

/-- R176: the fault codes. -/
def fIllegal : Nat := 1
def fPcrange : Nat := 2
def fAlign : Nat := 3
def fRange : Nat := 4
def fBank : Nat := 5
def fAlmrange : Nat := 6
def fCtxbad : Nat := 7
def fStcbad : Nat := 8
def fMode : Nat := 9
def fTarget : Nat := 10
def fWaitbad : Nat := 11
def fCfgbad : Nat := 12
def fUop : Nat := 13
def fMicro : Nat := 14
def fArith : Nat := 15

/-- R179: `ok`, or the instruction faults with code ILLEGAL. -/
def Env.legal (e : Env) (ok : Bool) (r : Staged) : Staged := if ok then r else e.fault fIllegal

/-- `ok`, or the instruction faults with the code named. -/
def Env.need (e : Env) (ok : Bool) (code : Nat) (r : Staged) : Staged := if ok then r else e.fault code

/-! ## The current segment (R123 to R128) -/

/-- R126: the held effects of the program in program order, the staged ones last. -/
def Env.held (e : Env) : List HeldEff :=
  e.prog.segs.flatMap (fun g => g.held) ++ e.svc.staged.flatMap (fun r => r.held)

/-- R126: one more effect can be held. -/
def Env.effRoom (e : Env) : Bool := decide (e.held.length < 16)

/-- Segments that the staged routines begin. -/
def Env.newSegs (e : Env) : Nat := (e.svc.staged.filter (fun r => r.newSeg.isSome)).length

/-- R137: the sequence number of the current segment. -/
def Env.seq (e : Env) : Nat := (e.prog.nextSeq + e.newSegs) - 1

/-- R137: the settled mask of segment `n`: its own, or the one kept for its re-run. -/
def settledOf (p : Prog) (n : Nat) : BitVec 4 :=
  match p.segs.find? (fun g => g.seq == n) with
  | some g => g.settled
  | none => match p.settled.find? (fun x => x.1 == n) with | some x => x.2 | none => 0

/-- R125: the ordinals taken in the current segment, staged routines included. -/
def Env.emits (e : Env) : Nat :=
  e.svc.staged.foldl (fun n r => (if r.newSeg.isSome then 0 else n) + r.emit.toNat)
    (match e.prog.segs.getLast? with | some g => g.emits | none => 0)

/-- R124, R158: a new segment can begin. -/
def Env.segRoom (e : Env) : Bool := decide (e.prog.segs.length + e.newSegs < 4)
def Env.ckptRoom (e : Env) : Bool := decide (e.d.ckptUsed < 1024)

/-- R125: flag L. -/
def Env.flagL (e : Env) : Bool :=
  e.d.flagL e.home || e.svc.staged.any (fun r => r.newSeg.isSome || r.act.isSome)

/-! ## Members (R151) -/

/-- R151: the channel that is enabled member `m` of home `h` at the view boundary. -/
def View.memberOf (v : View) (h : Chan) (m : Nat) : Option Chan :=
  if m = 0 then (if (v.chn.at h).en then some h else none)
  else (fins 512).find? (fun c =>
    let x := v.chn.at c
    x.en && x.member == some (h, BitVec.ofNat 3 m))

/-- R151: the target channel of an instruction, or fault TARGET. -/
def Env.target (e : Env) (m : Nat) (k : Chan → Staged) : Staged :=
  match e.svc.view.memberOf e.home m with
  | some c => k c
  | none => e.fault fTarget

/-- R128, R202: the capture entries of a channel that are not held for consumption. -/
def Env.capFree (e : Env) (c : Chan) : List CapEntry :=
  let p := (e.d.chn.at c).pin
  let staged := (e.svc.staged.flatMap (fun r => r.held)).foldl (fun n x =>
    match x with
    | .capt c' k => if c' = c then n + k else n
    | _ => n) 0
  p.cap.drop (p.capHeld + staged)

/-- R126: hold effect `x` in a result, or block on effect space. -/
def Env.hold (e : Env) (x : HeldEff) (r : Staged) : Staged :=
  if e.effRoom then { r with held := r.held ++ [x] } else e.block .effSpace

end Sys2Proof.Machine
end

