-- ==== Sys2Proof/Machine/Flags.lean ====
section
/-! DEFINITION. Every flag computation of MCIS (R184, R185, R187, R189): carry, overflow and the shift carries,
on words of any width, and the setting of Z, N, C and V in a context. -/

namespace Sys2Proof.Machine

open Sys2Proof

/-- R185: Z and N from a result. -/
def Context.zn {w : Nat} (c : Context) (r : BitVec w) : Context := { c with z := r == 0, n := r.msb }
def Context.withC (c : Context) (b : Bool) : Context := { c with c := b }
def Context.withV (c : Context) (b : Bool) : Context := { c with v := b }

/-- R184: carry out of the top bit of a sum. -/
def addCarry {w : Nat} (a b : BitVec w) : Bool := decide (2 ^ w ≤ a.toNat + b.toNat)
/-- The integer does not lie in the signed range of width `w`. -/
def outS (w : Nat) (i : Int) : Bool := decide (i < -((2 ^ (w - 1) : Nat) : Int) ∨ ((2 ^ (w - 1) : Nat) : Int) ≤ i)
/-- R184: signed overflow of a sum. -/
def addOver {w : Nat} (a b : BitVec w) : Bool := outS w (a.toInt + b.toInt)
/-- R184: no borrow: `a ≥ b` unsigned. -/
def subCarry {w : Nat} (a b : BitVec w) : Bool := decide (b.toNat ≤ a.toNat)
/-- R184: signed overflow of a difference. -/
def subOver {w : Nat} (a b : BitVec w) : Bool := outS w (a.toInt - b.toInt)

/-- R184: the last bit shifted out of a 32-bit word by a left shift of `k`, 1 to 63. -/
def shlCarry (a : Word) (k : Nat) : Bool := if k ≤ 32 then a.getLsbD (32 - k) else false
/-- R184: the last bit shifted out by a right shift of `k`, 1 to 63, with zero fill. -/
def shrCarry (a : Word) (k : Nat) : Bool := a.getLsbD (k - 1)
/-- R184: the last bit shifted out by a right shift with sign fill. -/
def asrCarry (a : Word) (k : Nat) : Bool := if k ≤ 32 then a.getLsbD (k - 1) else a.msb

/-- R184, R185: the flags of an addition. -/
def Context.addFlags {w : Nat} (c : Context) (a b : BitVec w) : Context :=
  ((c.zn (a + b)).withC (addCarry a b)).withV (addOver a b)
/-- R184, R185: the flags of a subtraction or comparison. -/
def Context.subFlags {w : Nat} (c : Context) (a b : BitVec w) : Context :=
  ((c.zn (a - b)).withC (subCarry a b)).withV (subOver a b)

/-- R184, R185: the flags of a shift: Z and N from the result, C from the last bit shifted out, unchanged for a
shift amount of 0. -/
def Context.shiftFlags (c : Context) (r : Word) (k : Nat) (out : Bool) : Context :=
  if k = 0 then c.zn r else (c.zn r).withC out

/-- R162: the branch conditions; `l` is flag L. -/
def condHolds (cond : Nat) (z n c v l : Bool) : Bool :=
  match cond with
  | 0 => true
  | 1 => z
  | 2 => !z
  | 3 => n
  | 4 => !n
  | 5 => c
  | 6 => !c
  | 7 => v
  | 8 => !v
  | 9 => c && !z
  | 10 => !c || z
  | 11 => n == v
  | 12 => n != v
  | 13 => !z && n == v
  | 14 => z || n != v
  | _ => l

/-- R162: the condition on the flags a routine sees. -/
def Env.cond (e : Env) (k : Nat) : Bool := condHolds k e.ctx.z e.ctx.n e.ctx.c e.ctx.v e.flagL

end Sys2Proof.Machine
end

