-- ==== Sys2Proof/Machine/Integer.lean ====
section
/-! DEFINITION. Integer instructions of MCIS (R183 to R186): the routine of each opcode. -/

namespace Sys2Proof.Machine

open Sys2Proof

/-! ## Operand forms (R183) -/

/-- Format R with every fn bit outside `mask` 0: the routine `k` on g[a] and g[b]. -/
def Env.formR (e : Env) (mask : Nat) (k : Word → Word → Staged) : Staged :=
  e.legal (fFn e.word &&& (4095 ^^^ mask) == 0) (k (e.ctx.gr (fA e.word)) (e.ctx.gr (fB e.word)))

/-- Format I: the routine `k` on g[a] and an immediate operand. -/
def Env.formI (e : Env) (x : Word) (k : Word → Word → Staged) : Staged := k (e.ctx.gr (fA e.word)) x

/-- Format I of a shift: imm16[15:6] is 0. -/
def Env.formShift (e : Env) (k : Word → Word → Staged) : Staged :=
  e.legal (decide (fImm e.word < 64)) (k (e.ctx.gr (fA e.word)) (zImm e.word))

/-- R183: modifiers in fn. -/
def fHi (w : Word) : Bool := bitOf w 0
def fU (w : Word) : Bool := bitOf w 1

/-- g[d] ← `r`, with the flags of `c`. -/
def Env.writeG (e : Env) (c : Context) (r : Word) : Staged := e.go (c.setG (fD e.word) r)

/-! ## Operations (R184) -/

def Env.doAdd (e : Env) (a x : Word) : Staged := e.writeG (e.ctx.addFlags a x) (a + x)
def Env.doSub (e : Env) (a x : Word) : Staged := e.writeG (e.ctx.subFlags a x) (a - x)
/-- CMP has d = 0 (R183). -/
def Env.doCmp (e : Env) (a x : Word) : Staged := e.legal (fD e.word == 0) (e.go (e.ctx.subFlags a x))

/-- R184: the 64-bit product. -/
def mulFull (u : Bool) (a x : Word) : Int := if u then ((a.toNat * x.toNat : Nat) : Int) else a.toInt * x.toInt
/-- R184: the product does not fit 32 bits, signed, or unsigned with U. -/
def mulOver (u : Bool) (a x : Word) : Bool :=
  if u then decide (4294967296 ≤ a.toNat * x.toNat) else outS 32 (a.toInt * x.toInt)
def Env.doMul (e : Env) (hi u : Bool) (a x : Word) : Staged :=
  let full := mulFull u a x
  let r := w32i (if hi then full / 4294967296 else full)
  e.writeG ((e.ctx.zn r).withV (!hi && mulOver u a x)) r

/-- R184: the exact sum of MAC. -/
def macSum (d a x : Word) (n : Nat) : Int := d.toInt + a.toInt * x.toInt / ((2 ^ n : Nat) : Int)
def Env.doMac (e : Env) (n : Nat) (a x : Word) : Staged :=
  let s := macSum (e.ctx.gr (fD e.word)) a x n
  e.writeG ((e.ctx.zn (w32i s)).withV (outS 32 s)) (w32i s)

def Env.doLogic (e : Env) (r : Word) : Staged := e.writeG (e.ctx.zn r) r

/-- R184: the shift amount is x[5:0]. -/
def shiftOf (x : Word) : Nat := fld x 5 0
def shlW (a : Word) (k : Nat) : Word := if 31 < k then 0 else a <<< k
def shrW (a : Word) (k : Nat) : Word := if 31 < k then 0 else a >>> k
def asrW (a : Word) (k : Nat) : Word := if 31 < k then (if a.msb then 0xFFFF_FFFF else 0) else a.sshiftRight k
def Env.doShl (e : Env) (a x : Word) : Staged :=
  let k := shiftOf x
  e.writeG (e.ctx.shiftFlags (shlW a k) k (shlCarry a k)) (shlW a k)
def Env.doShr (e : Env) (a x : Word) : Staged :=
  let k := shiftOf x
  e.writeG (e.ctx.shiftFlags (shrW a k) k (shrCarry a k)) (shrW a k)
def Env.doAsr (e : Env) (a x : Word) : Staged :=
  let k := shiftOf x
  e.writeG (e.ctx.shiftFlags (asrW a k) k (asrCarry a k)) (asrW a k)

/-- R184: `a ≤ x`, signed, or unsigned with U. -/
def leW (u : Bool) (a x : Word) : Bool := if u then decide (a.toNat ≤ x.toNat) else decide (a.toInt ≤ x.toInt)
/-- R184: C = 1 when g[a] is chosen; ties choose g[a]. -/
def Env.doPick (e : Env) (first : Bool) (a x : Word) : Staged :=
  let r := if first then a else x
  e.writeG ((e.ctx.zn r).withC first) r

/-- R186: SAT into [lo, hi]. -/
def Env.doSat (e : Env) (a : Word) (lo hi : Int) : Staged :=
  let v := a.toInt
  let r := w32i (if v < lo then lo else if hi < v then hi else v)
  e.writeG ((e.ctx.zn r).withV (decide (v < lo) || decide (hi < v))) r

/-! ## Routines of the register forms, opcodes 0x01 to 0x0F -/

def insAdd (e : Env) : Staged := e.formR 0 e.doAdd
def insSub (e : Env) : Staged := e.formR 0 e.doSub
def insMul (e : Env) : Staged := e.formR 3 (e.doMul (fHi e.word) (fU e.word))
def insMac (e : Env) : Staged := e.formR 31 (e.doMac (fld e.word 4 0))
def insAnd (e : Env) : Staged := e.formR 0 (fun a x => e.doLogic (a &&& x))
def insOr (e : Env) : Staged := e.formR 0 (fun a x => e.doLogic (a ||| x))
def insXor (e : Env) : Staged := e.formR 0 (fun a x => e.doLogic (a ^^^ x))
def insShl (e : Env) : Staged := e.formR 0 e.doShl
def insShr (e : Env) : Staged := e.formR 0 e.doShr
def insAsr (e : Env) : Staged := e.formR 0 e.doAsr
def insCmp (e : Env) : Staged := e.formR 0 e.doCmp
def insMin (e : Env) : Staged := e.formR 2 (fun a x => e.doPick (leW (fU e.word) a x) a x)
def insMax (e : Env) : Staged := e.formR 2 (fun a x => e.doPick (leW (fU e.word) x a) a x)
def insSat (e : Env) : Staged :=
  e.formR 2 (fun a x =>
    if fU e.word then e.doSat a 0 (x.toNat : Int)
    else e.need (!x.msb) fArith (e.doSat a (-x.toInt) x.toInt))
def insLdi (e : Env) : Staged :=
  e.legal (fA e.word == 0 && fImm e.word == 0) (e.doLogic e.ext)

/-! ## Routines of the immediate forms, opcodes 0x11 to 0x1E -/

def insAddI (e : Env) : Staged := e.formI (sImm e.word) e.doAdd
def insSubI (e : Env) : Staged := e.formI (sImm e.word) e.doSub
def insMulI (e : Env) : Staged := e.formI (sImm e.word) (e.doMul false false)
def insMacI (e : Env) : Staged := e.formI (sImm e.word) (e.doMac 0)
def insAndI (e : Env) : Staged := e.formI (zImm e.word) (fun a x => e.doLogic (a &&& x))
def insOrI (e : Env) : Staged := e.formI (zImm e.word) (fun a x => e.doLogic (a ||| x))
def insXorI (e : Env) : Staged := e.formI (zImm e.word) (fun a x => e.doLogic (a ^^^ x))
def insShlI (e : Env) : Staged := e.formShift e.doShl
def insShrI (e : Env) : Staged := e.formShift e.doShr
def insAsrI (e : Env) : Staged := e.formShift e.doAsr
def insCmpI (e : Env) : Staged := e.formI (sImm e.word) e.doCmp
def insMinI (e : Env) : Staged := e.formI (sImm e.word) (fun a x => e.doPick (leW false a x) a x)
def insMaxI (e : Env) : Staged := e.formI (sImm e.word) (fun a x => e.doPick (leW false x a) a x)
/-- R186: SAT in format I: n in imm16[5:0], 1 to 32, U in imm16[15], imm16[14:6] = 0. -/
def insSatI (e : Env) : Staged :=
  let n := fld e.word 5 0
  e.legal (fld e.word 14 6 == 0 && decide (1 ≤ n) && decide (n ≤ 32))
    (e.formI 0 (fun a _ =>
      if bitOf e.word 15 then e.doSat a 0 (((2 ^ n : Nat) : Int) - 1)
      else e.doSat a (-((2 ^ (n - 1) : Nat) : Int)) (((2 ^ (n - 1) : Nat) : Int) - 1)))

end Sys2Proof.Machine
end

