-- ==== Sys2Proof/Machine/TimePos.lean ====
section
/-! DEFINITION. Time, position and flow instructions of MCIS (R187 to R192): the routine of each opcode. -/

namespace Sys2Proof.Machine

open Sys2Proof

/-- R160: a t or p register field names a register that is present. -/
def regOk (i : Nat) : Bool := decide (i < 4)

/-! ## Time (R187, R188) -/

/-- R187: t[d] ← t[a] + x with flags. -/
def Env.doTadd (e : Env) (a x : DWord) : Staged := e.go ((e.ctx.addFlags a x).setT (fD e.word) (a + x))

/-- R187: TADD, 0x20: fn[0] selects t[b] or the sign-extended g[b]. -/
def insTadd (e : Env) : Staged :=
  let w := e.word
  let useT := bitOf w 0
  e.legal (decide (fFn w ≤ 1) && regOk (fD w) && regOk (fA w) && (!useT || regOk (fB w)))
    (e.doTadd (e.ctx.tr (fA w)) (if useT then e.ctx.tr (fB w) else (e.ctx.gr (fB w)).signExtend 64))

/-- R187: TADD, 0x21. -/
def insTaddI (e : Env) : Staged :=
  let w := e.word
  e.legal (fImm w == 0 && regOk (fD w) && regOk (fA w)) (e.doTadd (e.ctx.tr (fA w)) (e.ext.signExtend 64))

/-- R187: TSUB: the true difference saturated into g[d], or the 64-bit difference into t[d]. -/
def insTsub (e : Env) : Staged :=
  let w := e.word
  let a := e.ctx.tr (fA w)
  let b := e.ctx.tr (fB w)
  let useT := bitOf w 0
  e.legal (decide (fFn w ≤ 1) && regOk (fA w) && regOk (fB w) && (!useT || regOk (fD w)))
    (if useT then e.go ((e.ctx.subFlags a b).setT (fD w) (a - b))
     else
       let v : Int := (a.toNat : Int) - b.toNat
       let r := w32i (satS 32 v)
       e.go ((((e.ctx.zn r).withC (decide (b.toNat ≤ a.toNat))).withV (outS 32 v)).setG (fD w) r))

def insTcmp (e : Env) : Staged :=
  let w := e.word
  e.legal (fFn w == 0 && fD w == 0 && regOk (fA w) && regOk (fB w))
    (e.go (e.ctx.subFlags (e.ctx.tr (fA w)) (e.ctx.tr (fB w))))

/-- R188: TNOW returns the view boundary of the service. -/
def insTnow (e : Env) : Staged :=
  let w := e.word
  e.legal (fA w == 0 && fImm w == 0 && regOk (fD w)) (e.go (e.ctx.setT (fD w) (BitVec.ofNat 64 e.svc.view.at')))

def insTpack (e : Env) : Staged :=
  let w := e.word
  e.legal (fFn w == 0 && regOk (fD w))
    (e.go (e.ctx.setT (fD w) (BitVec.ofNat 64 (join64 (e.ctx.gr (fB w)) (e.ctx.gr (fA w))))))

/-- R187: TPART; b is unused. -/
def insTpart (e : Env) : Staged :=
  let w := e.word
  let t := (e.ctx.tr (fA w)).toNat
  e.legal (decide (fFn w ≤ 1) && fB w == 0 && regOk (fA w))
    (e.go (e.ctx.setG (fD w) (if bitOf w 0 then hi32 t else lo32 t)))

/-! ## Position (R189, R190) -/

def Env.doPadd (e : Env) (a x : BitVec 48) : Staged :=
  e.go (((e.ctx.zn (a + x)).withV (addOver a x)).setP (fD e.word) (a + x))

def insPadd (e : Env) : Staged :=
  let w := e.word
  e.legal (fFn w == 0 && regOk (fD w) && regOk (fA w) && regOk (fB w))
    (e.doPadd (e.ctx.pr (fA w)) (e.ctx.pr (fB w)))

def insPaddI (e : Env) : Staged :=
  let w := e.word
  e.legal (fImm w == 0 && regOk (fD w) && regOk (fA w)) (e.doPadd (e.ctx.pr (fA w)) (e.ext.signExtend 48))

/-- R189: the axis at the view boundary. -/
def Env.viewAx (e : Env) (a : Nat) : AxView := e.svc.view.axs.at (Fin.ofNat 64 a)

/-- R189: PSUB, with WRAP on a modulo axis. -/
def insPsub (e : Env) : Staged :=
  let w := e.word
  let a := e.ctx.pr (fA w)
  let b := e.ctx.pr (fB w)
  let wrap := bitOf w 6
  let ax := e.viewAx (fld w 5 0)
  e.legal (fld w 11 7 == 0 && (wrap || fld w 5 0 == 0) && regOk (fD w) && regOk (fA w) && regOk (fB w))
    (if wrap && ax.modulo then
       e.need (ax.m != 0) fArith
         (let r := BitVec.ofInt 48 (wrapM ax.m (a - b).toInt)
          e.go (((e.ctx.zn r).withV false).setP (fD w) r))
     else e.go (((e.ctx.zn (a - b)).withV (subOver a b)).setP (fD w) (a - b)))

/-- R189: PMOD. -/
def insPmod (e : Env) : Staged :=
  let w := e.word
  let a := e.ctx.pr (fA w)
  let ax := e.viewAx (fld w 5 0)
  e.legal (fld w 15 6 == 0 && regOk (fD w) && regOk (fA w))
    (e.need (!ax.modulo || ax.m != 0) fArith
      (let r := if ax.modulo then BitVec.ofInt 48 (reduceM ax.m a.toInt) else a
       e.go (((e.ctx.zn r).withC (r != a)).setP (fD w) r)))

/-- R190: a conversion at the axis's latest epoch. -/
def Env.conv (e : Env) (ax : Axis) (t2p : Bool) (v : Int) : Conv :=
  let x := e.d.axs.at ax
  if t2p then ⟨ax, true, v, x.t2p v.toNat, x.est.epoch, false⟩
  else
    let q := x.target false v
    ⟨ax, false, q, (x.p2t false q : Nat), x.est.epoch, false⟩

/-- R190: P2T, a tracked conversion. -/
def insP2t (e : Env) : Staged :=
  let w := e.word
  let ax : Axis := Fin.ofNat 64 (fld w 5 0)
  e.legal (fld w 15 6 == 0 && regOk (fD w) && regOk (fA w))
    (let k := e.conv ax false (e.ctx.pr (fA w)).toInt
     let t := k.res.toNat
     { e.go ({ e.ctx with
          z := (e.d.axs.at ax).est.st != AxState.steady, n := false, c := decide (t < e.svc.view.at'), v := t == never
        }.setT (fD w) (BitVec.ofNat 64 t)) with convs := [k] })

/-- R190: T2P, a tracked conversion. -/
def insT2p (e : Env) : Staged :=
  let w := e.word
  let ax : Axis := Fin.ofNat 64 (fld w 5 0)
  e.legal (fld w 15 6 == 0 && regOk (fD w) && regOk (fA w))
    (let k := e.conv ax true (e.ctx.tr (fA w)).toNat
     let p := BitVec.ofInt 48 k.res
     { e.go ({ e.ctx with
          z := (e.d.axs.at ax).est.st != AxState.steady, n := p.msb, c := false, v := false
        }.setP (fD w) p) with convs := [k] })

/-- R189: PSET: p[d] ← sext48(g[a]) << sh; V = 1 when bits were lost. -/
def insPset (e : Env) : Staged :=
  let w := e.word
  let v : Int := (e.ctx.gr (fA w)).toInt * ((2 ^ fImm w : Nat) : Int)
  e.legal (decide (fImm w ≤ 16) && regOk (fD w))
    (e.go ((e.ctx.withV (outS 48 v)).setP (fD w) (BitVec.ofInt 48 v)))

/-- R189: PGET: g[d] ← p[a] >> sh, saturated to 32 bits. -/
def insPget (e : Env) : Staged :=
  let w := e.word
  let v := (e.ctx.pr (fA w)).toInt / ((2 ^ fImm w : Nat) : Int)
  let r := w32i (satS 32 v)
  e.legal (decide (fImm w ≤ 16) && regOk (fA w))
    (e.go (((e.ctx.zn r).withV (outS 32 v)).setG (fD w) r))

/-! ## Flow (R191, R192) -/

/-- R192: a taken branch to word `n`, or the fault PCRANGE. -/
def Env.branch (e : Env) (n : Int) (c : Context) : Staged :=
  if 0 ≤ n ∧ n ≤ 32767 then (e.go c).to n.toNat else e.fault fPcrange

/-- The target of a branch with signed word offset `o`. -/
def Env.dest (e : Env) (o : Int) : Int := (e.ctx.pc.toNat : Int) + 1 + o

def insB (e : Env) : Staged :=
  if e.cond (fD e.word) then e.branch (e.dest (fOff20 e.word)) e.ctx else e.go e.ctx

/-- R191: CALL, when taken, leaves the return address in g15. -/
def insCall (e : Env) : Staged :=
  if e.cond (fD e.word) then e.branch (e.dest (fOff20 e.word)) (e.ctx.setG 15 (w32 (e.ctx.pc.toNat + 1)))
  else e.go e.ctx

/-- R191: RET goes to g15[14:0]. -/
def insRet (e : Env) : Staged :=
  e.legal (fld e.word 19 0 == 0)
    (if e.cond (fD e.word) then (e.go e.ctx).to (fld (e.ctx.gr 15) 14 0) else e.go e.ctx)

/-- R191: BR goes to g[a][14:0]. -/
def insBr (e : Env) : Staged :=
  e.legal (fImm e.word == 0)
    (if e.cond (fD e.word) then (e.go e.ctx).to (fld (e.ctx.gr (fA e.word)) 14 0) else e.go e.ctx)

/-- R191: LOOP counts g[d] down and branches while it is not 0. -/
def insLoop (e : Env) : Staged :=
  let v := e.ctx.gr (fD e.word) - 1
  let c := e.ctx.setG (fD e.word) v
  e.legal (fA e.word == 0) (if v = 0 then e.go c else e.branch (e.dest (signedOf 16 (fImm e.word))) c)

def insNop (e : Env) : Staged := e.legal (fld e.word 23 0 == 0) (e.go e.ctx)

end Sys2Proof.Machine
end

