-- ==== Sys2Proof/Machine/Memory.lean ====
section
/-! DEFINITION. Memory, measurement, almanac, signalling and control instructions of MCIS (R193 to R196,
R202 to R206, R208 to R214): the routine of each opcode. -/

namespace Sys2Proof.Machine

open Sys2Proof

/-! ## Data banks (R169, R170, R193) -/

/-- R193: the byte address of LDM and STM, and R210: the offset of LSEND. -/
def Env.byteAddr (e : Env) : Nat := (e.ctx.gr (fA e.word) + sImm e.word).toNat

/-- R169: the address is in range and aligned to `n` bytes, or the fault RANGE or ALIGN. -/
def Env.bankAddr (e : Env) (n a : Nat) (r : Staged) : Staged :=
  e.need (decide (a ≤ 0x1FFFFF)) fRange (e.need (a % n == 0) fAlign r)

/-- R128: a held STM laid over the 64-bit word `v` at `w`. -/
def overlay (w : Nat) (v : Nat) (x : HeldEff) : Nat :=
  match x with
  | .stm a data half _ =>
    if wordOf a ≠ w then v
    else if half then
      let sh := 2 ^ (8 * (a % 8))
      v - (v / sh % 4294967296) * sh + (data.toNat % 4294967296) * sh
    else data.toNat
  | _ => v

/-- R128: the 64-bit bank word at `w`, through the program's held STMs. -/
def Env.bankWord (e : Env) (w : Nat) : Nat := e.held.foldl (overlay w) (e.ram.bankRead 8 w)

/-- R193: LDM of `n` bytes; `set` writes the value to its register. -/
def Env.ldm (e : Env) (n : Nat) (set : Context → Nat → Context) : Staged :=
  let a := e.byteAddr
  e.bankAddr n a (e.need (e.d.bankOn a) fBank
    (e.go (set e.ctx (e.bankWord (wordOf a) / 2 ^ (8 * (a % 8))))))

/-- R193: STM of `n` bytes, a held effect. -/
def Env.stm (e : Env) (n : Nat) (v : Nat) : Staged :=
  let a := e.byteAddr
  e.bankAddr n a (e.hold (.stm a (BitVec.ofNat 64 v) (n == 4) e.ctx.pc) (e.go e.ctx))

def insLdmG (e : Env) : Staged := e.ldm 4 (fun c v => c.setG (fD e.word) (w32 v))
def insLdmT (e : Env) : Staged :=
  e.legal (regOk (fD e.word)) (e.ldm 8 (fun c v => c.setT (fD e.word) (BitVec.ofNat 64 v)))
def insLdmP (e : Env) : Staged :=
  e.legal (regOk (fD e.word)) (e.ldm 8 (fun c v => c.setP (fD e.word) (BitVec.ofNat 48 v)))
def insStmG (e : Env) : Staged := e.stm 4 (e.ctx.gr (fD e.word)).toNat
def insStmT (e : Env) : Staged := e.legal (regOk (fD e.word)) (e.stm 8 (e.ctx.tr (fD e.word)).toNat)
def insStmP (e : Env) : Staged :=
  e.legal (regOk (fD e.word)) (e.stm 8 ((e.ctx.pr (fD e.word)).signExtend 64).toNat)

/-- R359, R362: the bank word that an LDM reads. -/
def Env.ldmReads (e : Env) : List Nat := [wordOf e.byteAddr]

/-! ## Contexts of other channels (R194, R195) -/

/-- R194: LDC's register of class `cls` exists. -/
def ldcReg (cls r : Nat) : Bool := cls == 0 || (cls ≠ 3 && r < 4) || (cls == 3 && r == 0)

/-- R171, R194: a register of released context, as a number. -/
def Context.classReg (c : Context) (cls r : Nat) : Nat :=
  match cls with
  | 0 => (c.gr r).toNat
  | 1 => (c.tr r).toNat
  | 2 => (c.pr r).toNat
  | _ => c.stateWord.toNat

def insLdc (e : Env) : Staged :=
  let w := e.word
  let n := (e.ctx.gr (fA w)).toNat
  let cls := fld w 11 10
  let r := fld w 3 0
  let v := (e.svc.view.chn.at (Fin.ofNat 512 n)).rel.classReg cls r
  e.legal (fB w == 0 && fld w 9 4 == 0 && (cls == 0 || cls == 3 || regOk (fD w)))
    (e.need (decide (n < 512) && ldcReg cls r) fCtxbad
      (e.go (match cls with
        | 1 => e.ctx.setT (fD w) (BitVec.ofNat 64 v)
        | 2 => e.ctx.setP (fD w) (BitVec.ofNat 48 v)
        | _ => e.ctx.setG (fD w) (w32 v))))

/-- R172: the target checks of STC at the view boundary. -/
def Env.stcOk (e : Env) (n r : Nat) : Bool :=
  let v := e.svc.view.chn.at (Fin.ofNat 512 n)
  decide (8 ≤ r) && decide (n < 512) && n != e.home.val && v.en && v.bound

def insStc (e : Env) : Staged :=
  let w := e.word
  let n := (e.ctx.gr (fA w)).toNat
  let r := fld w 3 0
  e.legal (fld w 11 4 == 0 && fD w == 0)
    (e.need (e.stcOk n r) fStcbad
      (e.hold (.stc (Fin.ofNat 512 n) (Fin.ofNat 16 r) (e.ctx.gr (fB w))) (e.go e.ctx)))

/-! ## Almanac (R173, R196, R205, R206, R224) -/

/-- R173: a table at the view boundary. -/
def Env.viewTab (e : Env) (n : Nat) : TabView := e.svc.view.tabs.at (Fin.ofNat 64 n)

/-- R224: the table can be read. -/
def Env.tabOk (e : Env) (t : TabView) : Bool := t.defd && e.svc.view.almOn

/-- R196, R217: field `f` of entry `i` written to the register that the table's kind gives it. -/
def Env.ldaField (e : Env) (t : TabView) (f i : Nat) : Context :=
  let d := fD e.word
  match f with
  | 0 =>
    if t.time then e.ctx.setT d (BitVec.ofNat 64 (e.ram.almKey i)) else e.ctx.setP d (BitVec.ofNat 48 (e.ram.almKey i))
  | 1 => e.ctx.setG d (w32 (fld (e.ram.almWord i 2) 9 0))
  | 2 => e.ctx.setG d (w32 (e.ram.almRead 1 (16 * i + 10)))
  | 3 => e.ctx.setG d (e.ram.almWord i 3)
  | 4 => e.ctx.setG d (w32 (e.ram.almRead 1 (16 * i + 11)))
  | 8 => e.ctx.setG d (e.ram.almWord i 0)
  | 9 => e.ctx.setG d (e.ram.almWord i 1)
  | 10 => e.ctx.setG d (e.ram.almWord i 2)
  | _ => e.ctx.setG d (e.ram.almWord i 3)

def insLda (e : Env) : Staged :=
  let w := e.word
  let f := fld w 11 8
  let t := e.viewTab (fld w 5 0)
  let i := (e.ctx.gr (fA w)).toNat
  e.legal (fld w 7 6 == 0 && fB w == 0 && (decide (f ≤ 4) || (decide (8 ≤ f) && decide (f ≤ 11))) &&
      (f ≠ 0 || regOk (fD w)))
    (e.need (e.tabOk t && decide (i < t.len)) fAlmrange (e.go (e.ldaField t f (t.base + i))))

/-- R205, R206: index, Z and C of a search result; N and V are cleared. -/
def Context.found (c : Context) (d : Nat) (r : Option (Nat × Bool)) : Context :=
  match r with
  | some (j, wrap) => { c with z := false, n := false, c := wrap, v := false }.setG d (w32 j)
  | none => { c with z := true, n := false, c := false, v := false }.setG d 0xFFFF_FFFF

/-- R222, R223: the search key of ALM, from a position or a time. -/
def Env.searchKey (e : Env) (t : TabView) (p : BitVec 48) (tm : DWord) : Int :=
  if t.time then (tm.toNat : Int)
  else let ax := e.svc.view.axs.at t.ax; if ax.modulo then reduceM ax.m p.toInt else p.toInt

/-- R205, R224: ALM of table `t`, or the fault ALMRANGE. -/
def Env.almOk (e : Env) (t : TabView) (tm : DWord) : Bool :=
  e.tabOk t && (!t.time || decide (tm.toNat < 281474976710656))

def insAlm (e : Env) : Staged :=
  let w := e.word
  let t := e.viewTab (fld w 5 0)
  e.legal (fld w 11 6 == 0 && fB w == 0 && regOk (fA w))
    (e.need (e.almOk t (e.ctx.tr (fA w))) fAlmrange
      (e.go (e.ctx.found (fD w)
        (almSearch e.ram t (e.searchKey t (e.ctx.pr (fA w)) (e.ctx.tr (fA w)))))))

def insAlmn (e : Env) : Staged :=
  let w := e.word
  let t := e.viewTab (fld w 5 0)
  let j := (e.ctx.gr (fA w)).toNat
  e.legal (fld w 11 6 == 0 && fB w == 0)
    (e.need (e.tabOk t && decide (j < t.len)) fAlmrange (e.go (e.ctx.found (fD w) (almNext t j))))

/-! ## Measurement (R202 to R204) -/

/-- R104, R204: the modes that write capture entries. -/
def capMode (m : BitVec 4) : Bool := 8 ≤ m.toNat && m.toNat ≤ 14

/-- R204: the entries that a CAPT of channel `c` may consume. -/
def Env.capEntries (e : Env) (c : Chan) : List CapEntry :=
  let g := (e.d.chn.at c).cfg
  if g.live.capown || !capMode g.mode then [] else e.capFree c

/-- R202: the attribute bits with `n` in [20:16]. -/
def CapEntry.attrBits (x : CapEntry) (n : Nat) : Word := x.attr n &&& 0x7FFF_FFFF

/-- R202 to R204: what is consumed of the entries `l`: how many, the entry returned, the count in [20:16] and V. -/
def captTake (all : Bool) (l : List CapEntry) : Option (Nat × CapEntry × Nat × Bool) :=
  match l with
  | [] => none
  | x :: r =>
    if all then some (l.length, r.getLastD x, l.length, l.any (fun y => y.lost) || decide (1 < l.length))
    else some (1, x, r.length, x.lost)

/-- R202, R203: CAPT and CAPTN. -/
def Env.doCapt (e : Env) (all : Bool) : Staged :=
  let w := e.word
  e.legal (fld w 11 3 == 0 && regOk (fD w))
    (e.target (fld w 2 0) (fun c =>
      match captTake all (e.capEntries c) with
      | none => e.go { e.ctx with z := true, c := false, n := false, v := false }
      | some (k, x, left, v) =>
        let ctx := ((e.ctx.setT (fD w) (BitVec.ofNat 64 x.stamp)).setG (fA w) (w32 x.val)).setG (fB w) (x.attrBits left)
        e.hold (.capt c k) (e.go { ctx with z := false, c := x.edge, n := x.miss, v := v })))

def insCapt (e : Env) : Staged := e.doCapt false
def insCaptn (e : Env) : Staged := e.doCapt true

/-! ## Signalling (R208 to R210) -/

/-- R208: the detail of a SIG record of home `h`. -/
def sigDetail (h : Chan) (code arg : Nat) : BitVec 16 :=
  BitVec.ofNat 16 (code % 256 * 256 + arg % 32 * 8 + h.val % 8)

def insSig (e : Env) : Staged :=
  let w := e.word
  e.legal (fld w 15 9 == 0 && fD w == 0)
    (e.hold (.sig (sigDetail e.home (fld w 7 0) (if bitOf w 8 then (e.ctx.gr (fA w)).toNat else 0))) (e.go e.ctx))

def insXkick (e : Env) : Staged :=
  let w := e.word
  e.legal (fld w 23 5 == 0) (e.hold (.xkick (Fin.ofNat 32 (fld w 4 0))) (e.go e.ctx))

/-- R210: a held write of `v` to the link buffers at offset `o`. -/
def Env.lsendAt (e : Env) (o : Nat) (v : DWord) (r : Staged) : Staged :=
  e.need (decide (o < 0x10000)) fRange (e.need (o % 8 == 0) fAlign (e.hold (.lsend o v) r))

def insLsend (e : Env) : Staged :=
  e.legal (regOk (fD e.word)) (e.lsendAt e.byteAddr (e.ctx.tr (fD e.word)) (e.go e.ctx))

/-! ## Control (R211 to R214) -/

/-- R211: the CHN offsets that CFG may write, MODE left out by the mask. -/
def cfgOk (off : Nat) (mask : Word) : Bool :=
  [0x04, 0x10, 0x14, 0x18, 0x1C, 0x20, 0x24].contains off && !(off == 0x04 && fld mask 3 0 ≠ 0)

/-- R211: a held staged write to member channel `c`; it blocks on a pending apply. -/
def Env.cfgTo (e : Env) (c : Chan) (off : Nat) (mask v : Word) (r : Staged) : Staged :=
  let g := (e.d.chn.at c).cfg
  e.need (cfgOk off mask) fCfgbad
    (if g.pend.isSome || g.gpend then e.block (.applyPend c)
     else e.hold (.cfg c (BitVec.ofNat 8 off) mask v) r)

def insCfg (e : Env) : Staged :=
  let w := e.word
  e.legal (!bitOf w 23 && fld w 15 8 == 0)
    (e.target (fld w 22 20) (fun c => e.cfgTo c (fld w 7 0) e.ext (e.ctx.gr (fA w)) (e.go e.ctx)))

def insApply (e : Env) : Staged :=
  let w := e.word
  let m := fld w 1 0
  let at' : DWord := match m with
    | 1 => e.ctx.tr (fA w)
    | 2 => (e.ctx.pr (fA w)).zeroExtend 64
    | _ => 0
  e.legal (!bitOf w 23 && fB w == 0 && fld w 5 2 == 0 && m ≠ 3 && (m == 2 || fld w 11 6 == 0) &&
      (if m = 0 then fA w == 0 else regOk (fA w)))
    (e.target (fld w 22 20) (fun c =>
      e.hold (.apply c (BitVec.ofNat 2 m) at' (Fin.ofNat 64 (fld w 11 6))) (e.go e.ctx)))

/-- R163, R214: YIELD ends the service. -/
def insYield (e : Env) : Staged := e.legal (fld e.word 23 0 == 0) { e.go e.ctx with fin := .yield }

/-- R177, R214: HALT ends the service and holds a stop. -/
def insHalt (e : Env) : Staged := e.legal (fld e.word 23 0 == 0) { e.go e.ctx with stop := true, fin := .stop }

end Sys2Proof.Machine
end

