-- ==== Sys2Proof/Machine/Actions.lean ====
section
/-! DEFINITION. Action and waiting instructions of MCIS (R84, R164 to R167, R197 to R201, R207): the routine of
each opcode. -/

namespace Sys2Proof.Machine

open Sys2Proof

/-! ## Actions (R197 to R200) -/

/-- R84, R102, R200: a channel of this mode accepts actions of the type. -/
def accepts (c : Chan) (m : BitVec 4) (ty : ActTy) : Bool :=
  match ty with
  | .level | .pulse => m == 1 || m == 14
  | .trippulse => m == 1 && !isLink c
  | .capwin => m == 12

/-- R198: where the next action goes: its segment, its ordinal and whether the segment is new. -/
structure Place where
  seq   : Nat
  ord   : Nat
  fresh : Bool
  deriving DecidableEq, Repr

/-- R123 to R125: the place of the next action. -/
def Env.place (e : Env) : Place :=
  if e.emits = 4 then ⟨e.seq + 1, 0, true⟩ else ⟨e.seq, e.emits, false⟩

/-- R124, R158: a new segment that cannot begin blocks. -/
def Env.withPlace (e : Env) (k : Place → Staged) : Staged :=
  let p := e.place
  if p.fresh && !e.segRoom then e.block .segSpace
  else if p.fresh && !e.ckptRoom then e.block .ckptSpace
  else k p

/-- R123: a result that takes the place `p`: its ordinal, and the checkpoint of a new segment. -/
def Env.takes (e : Env) (p : Place) (r : Staged) : Staged :=
  { r with emit := true, newSeg := if p.fresh then some e.ctx else none }

/-- R137: the ordinal is settled already. -/
def Env.isSettled (e : Env) (p : Place) : Bool := (settledOf e.prog p.seq).getLsbD p.ord

/-- R143: the segment carries the sequence number of a discarded one. -/
def Env.isRerun (e : Env) (p : Place) : Bool :=
  e.prog.settled.any (fun x => x.1 == p.seq) || e.prog.segs.any (fun g => g.seq == p.seq && g.rerun)

/-- R137: the entry is the placeholder of that place of program `h`. -/
def holderAt (h : Chan) (seq ord : Nat) (x : ProvEntry) : Bool :=
  x.holder && x.home == h && x.seq == seq && x.ord == ord

/-- R137: an action staged by the service takes the entry of a placeholder on its channel. -/
def replaces (d : Device) (c : Chan) (x : ProvEntry) : Bool :=
  (d.chn.at c).prov.any (holderAt x.home x.seq x.ord)

/-- R89: the entries of channel `c`'s provisional queue that are taken, staged actions included. -/
def Env.provTaken (e : Env) (c : Chan) : Nat :=
  (e.d.chn.at c).prov.length + (e.svc.staged.filter (fun r =>
    match r.act with
    | some (c', x) => c' == c && !replaces e.d c x
    | none => false)).length

/-- The attributes of an action (R86). -/
structure ActSpec where
  ty  : ActTy
  lvl : Bool
  w   : Nat
  lk  : LkNo
  deriving DecidableEq, Repr

/-- R198: the action is staged with its time and stamp, or blocks on queue space. -/
def Env.stageAct (e : Env) (c : Chan) (a : ActSpec) (p : Place) (t : Nat) (pos : Option PosStamp) (r : Staged) : Staged :=
  let x : ProvEntry :=
    { holder := false, ty := a.ty, lvl := a.lvl, w := a.w, t := t, pos := pos, home := e.home, seq := p.seq, ord := p.ord
      rerun := e.isRerun p, lk := a.lk, wrote := e.now, marks := [] }
  if !replaces e.d c x && 8 ≤ e.provTaken c then e.block (.qspace c)
  else e.takes p { r with act := some (c, x) }

/-- R73, R74: an action stamped against axis `ax` must wait for it on a channel with that NOFIX policy. -/
def mustHold (x : AxisSt) (coast : Bool) : Bool := x.est.st != .steady && (!coast || decide (x.est.nfix < 2))

/-- R198: the checks before an ordinal is taken: member, mode, width. -/
def Env.actTarget (e : Env) (m : Nat) (a : ActSpec) (k : Chan → Staged) : Staged :=
  e.target m (fun c =>
    e.need (accepts c (e.svc.view.chn.at c).mode a.ty) fMode
      (e.need (a.ty == .level || a.w ≠ 0) fArith (k c)))

/-- R198: an action with a time stamp. -/
def Env.emitAt (e : Env) (m : Nat) (a : ActSpec) (t : Nat) : Staged :=
  e.actTarget m a (fun c => e.withPlace (fun p =>
    if e.isSettled p then e.takes p (e.go e.ctx) else e.stageAct c a p t none (e.go e.ctx)))

/-- R73 to R77, R198, R199: an action with a position stamp. -/
def Env.emitPos (e : Env) (m : Nat) (a : ActSpec) (ax : Axis) (q : Int) : Staged :=
  e.actTarget m a (fun c => e.withPlace (fun p =>
    if e.isSettled p then e.takes p (e.go e.ctx)
    else
      let x := e.d.axs.at ax
      let pol := (e.d.chn.at c).cfg.live.coast
      if mustHold x pol then e.block (.hold ax pol)
      else
        let coast := x.est.st != .steady
        let qx := x.target coast q
        e.stageAct c a p (x.p2t coast qx) (some ⟨ax, qx, x.est.epoch, coast⟩) (e.go e.ctx)))

/-- R197: the TYPE field. -/
def typeOf (k : Nat) : ActTy := match k with | 0 => .level | 1 => .pulse | _ => .capwin

/-- R197: the attributes of EMIT and EMITP. -/
def Env.emitSpec (e : Env) : ActSpec :=
  let ty := typeOf (fld e.word 11 10)
  ⟨ty, bitOf e.word 20, if ty = .level then 0 else (e.ctx.gr (fB e.word)).toNat, 0⟩

/-- R197, R200: the attributes of ARMTRIP. -/
def Env.tripSpec (e : Env) : ActSpec :=
  ⟨.trippulse, bitOf e.word 20, (e.ctx.gr (fB e.word)).toNat, Fin.ofNat 32 (fld e.word 10 6)⟩

/-- R197: the field checks of EMIT and EMITP. -/
def emitLegal (w : Word) : Bool :=
  fld w 11 10 ≠ 3 && fld w 9 6 == 0 && regOk (fA w) && (fld w 11 10 ≠ 0 || fB w == 0)

def insEmit (e : Env) : Staged :=
  let w := e.word
  e.legal (emitLegal w && fld w 5 0 == 0) (e.emitAt (fMember w) e.emitSpec (e.ctx.tr (fA w)).toNat)

def insEmitp (e : Env) : Staged :=
  let w := e.word
  e.legal (emitLegal w) (e.emitPos (fMember w) e.emitSpec (Fin.ofNat 64 (fld w 5 0)) (e.ctx.pr (fA w)).toInt)

def insArmtrip (e : Env) : Staged :=
  let w := e.word
  e.legal (!bitOf w 11 && regOk (fA w) && fld w 5 0 == 0) (e.emitAt (fMember w) e.tripSpec (e.ctx.tr (fA w)).toNat)

def insArmtripPosition (e : Env) : Staged :=
  let w := e.word
  e.legal (!bitOf w 11 && regOk (fA w))
    (e.emitPos (fMember w) e.tripSpec (Fin.ofNat 64 (fld w 5 0)) (e.ctx.pr (fA w)).toInt)

/-! ## CANCEL (R201) -/

/-- R201: the entry is an action of program `h` at or after the threshold. -/
def cancels (h : Chan) (thr : Option DWord) (x : ProvEntry) : Bool :=
  !x.holder && x.home == h && (match thr with | some t => decide (t.toNat ≤ x.t) | none => true)

/-- R201: CANCEL would mark an action of channel `c`. -/
def Env.cancelsAny (e : Env) (c : Chan) (thr : Option DWord) : Bool :=
  (e.d.chn.at c).prov.any (cancels e.home thr) ||
  e.svc.staged.any (fun r => match r.act with | some (c', x) => c' == c && cancels e.home thr x | none => false)

/-- R201: the number that names the next CANCEL effect. -/
def Env.cancelId (e : Env) : Nat :=
  e.prog.nextId + (e.svc.staged.flatMap (fun r => r.held)).foldl (fun n x =>
    match x with
    | .cancel _ _ _ => n + 1
    | _ => n) 0

/-- R201: CANCEL asks for its marks in `r`, to be placed as it lands; with nothing to mark now it needs no room for them. -/
def Env.cancelIn (e : Env) (c : Chan) (thr : Option DWord) (r : Staged) : Staged :=
  if e.cancelsAny c thr then e.hold (.cancel c e.cancelId thr) r else { r with held := r.held ++ [.cancel c e.cancelId thr] }

def insCancel (e : Env) : Staged :=
  let w := e.word
  let all := bitOf w 6
  e.legal (!bitOf w 20 && fB w == 0 && fld w 11 7 == 0 && fld w 5 0 == 0 && (if all then fA w == 0 else regOk (fA w)))
    (e.target (fMember w) (fun c =>
      let thr := if all then none else some (e.ctx.tr (fA w))
      e.cancelIn c thr { e.go { e.ctx with z := !e.cancelsAny c thr } with zmark := true }))

/-! ## WAIT (R164 to R166, R207) -/

/-- R128, R159: entries of channel `c` not held for consumption at the view boundary, less what this service has
consumed since. -/
def Env.waitCapt (e : Env) (c : Chan) : Nat :=
  let held := (e.prog.segs.filter (fun g => e.svc.first ≤ g.seq)).flatMap (fun g => g.held) ++
    e.svc.staged.flatMap (fun r => r.held)
  (e.svc.view.chn.at c).capFree - held.foldl (fun n x =>
    match x with
    | .capt c' k => if c' = c then n + k else n
    | _ => n) 0

/-- R159: free entries of channel `c` at the view boundary, less those this service has taken since. -/
def Env.waitSpace (e : Env) (c : Chan) : Nat :=
  (e.svc.view.chn.at c).free -
    ((e.d.chn.at c).prov.filter (fun x => !x.holder && x.home == e.home && e.svc.first ≤ x.seq && !x.rerun)).length -
    (e.svc.staged.filter (fun r =>
      match r.act with
      | some (c', x) => c' == c && !x.rerun
      | none => false)).length

/-- R164: the count that an EVENT or DMASIG wait compares and loads; the epoch of a FIX wait. -/
def Env.waitCount (e : Env) (kind arg : Nat) : Word :=
  match kind with
  | 1 => (e.viewAx arg).epoch
  | 2 => w32 (e.svc.view.rcnt.at (Fin.ofNat 256 arg)).toNat
  | _ => w32 e.svc.view.dsig.toNat

/-- R164: the condition of a count kind: `cnt` differs from `g[15:0]`, with `g[31]` clear. -/
def countDiffers (g : Word) (cnt : Nat) : Bool := !g.msb && fld g 15 0 != cnt

/-- R164, R207: a kind's condition at the view boundary; `v` is the count or time it compares. -/
def Env.waitHolds (e : Env) (kind arg : Nat) (c : Chan) (v : DWord) : Bool :=
  match kind with
  | 0 => decide (v.toNat ≤ e.svc.view.at')
  | 1 => e.waitCount 1 arg != v.truncate 32
  | 2 | 3 => countDiffers (v.truncate 32) (e.waitCount kind arg).toNat
  | 4 => decide ((e.svc.view.chn.at c).capthr < e.waitCapt c)
  | _ => decide (fld (BitVec.ofNat 8 arg) 6 3 ≤ e.waitSpace c)

/-- R207: the kind takes a member index. -/
def waitMember (kind : Nat) : Bool := kind == 4 || kind == 5

/-- R207: the fields of a WAIT that must be 0. -/
def waitLegal (w : Word) : Bool :=
  let k := fD w
  let arg := fld w 7 0
  fld w 12 8 == 0 && (bitOf w 15 || fld w 14 13 == 0) &&
  (match k with
   | 0 => regOk (fA w) && arg == 0
   | 3 => arg == 0
   | 4 => fA w == 0 && fld w 7 3 == 0
   | 5 => fA w == 0 && !bitOf w 7
   | _ => true)

/-- R164, R207: kind, axis and count in range. -/
def waitInRange (w : Word) : Bool :=
  match fD w with
  | 0 | 2 | 3 | 4 => true
  | 1 => decide (fld w 7 0 < 64)
  | 5 => decide (1 ≤ fld w 6 3) && decide (fld w 6 3 ≤ 8)
  | _ => false

/-- R164: what a satisfied WAIT loads. -/
def Env.waitLoad (e : Env) (kind arg : Nat) (c : Context) : Context :=
  if kind = 1 ∨ kind = 2 ∨ kind = 3 then c.setG (fA e.word) (e.waitCount kind arg) else c

/-- R164 to R166, R207: a WAIT on channel `c` for the kinds that name one. -/
def Env.doWait (e : Env) (c : Chan) : Staged :=
  let w := e.word
  let k := fD w
  let arg := fld w 7 0
  let v : DWord := if k = 0 then e.ctx.tr (fA w) else (e.ctx.gr (fA w)).zeroExtend 64
  let tmo := bitOf w 15
  if e.waitHolds k arg c v then e.go { e.waitLoad k arg e.ctx with z := false }
  else if tmo && decide ((e.ctx.tr (fld w 14 13)).toNat ≤ e.svc.view.at') then e.go { e.ctx with z := true }
  else
    let armed := (k == 2 || k == 3) && (e.ctx.gr (fA w)).msb
    let b := e.block (.wait (Fin.ofNat 6 k) (Fin.ofNat 16 (fA w)) (BitVec.ofNat 8 arg) c
      (if tmo then some (Fin.ofNat 4 (fld w 14 13)) else none))
    { b with ctx := if armed then e.waitLoad k arg e.ctx else e.ctx }

def insWait (e : Env) : Staged :=
  let w := e.word
  e.legal (waitLegal w) (e.need (waitInRange w) fWaitbad
    (if waitMember (fD w) then e.target (fld w 2 0) e.doWait else e.doWait e.home))

end Sys2Proof.Machine
end

