-- ==== Sys2Proof/Machine/Micro.lean ====
section
/-! DEFINITION. Open-store micro-routines (R215, R216, R244, R246 to R253): the microword, each micro-operation,
and the run of a routine from its first microword to END, BLOCK or FAULT. -/

namespace Sys2Proof.Machine

open Sys2Proof

/-- What a routine leaves: its staged writes, the bank words it read, the subcode and micro-address of a MICRO
fault, and how many free values it took. -/
structure Run where
  out    : Staged
  reads  : List Nat
  mfault : Option (Nat × Nat)
  frees  : Nat
  deriving DecidableEq, Repr

/-- R246: the fields of a microword. -/
def uOp (w : Word) : Nat := fld w 31 26
def uDst (w : Word) : Nat := fld w 25 21
def uA (w : Word) : Nat := fld w 20 16
def uB (w : Word) : Nat := fld w 15 11
def uCtl (w : Word) : Nat := fld w 10 0

/-- A routine in flight: scratch registers, micro-flags, staged writes and what its operations recorded. -/
structure Mst where
  /-- R246: m0 to m31. -/
  m     : Tab DWord 32
  /-- R247: mz, mn, mc, mv. -/
  z     : Bool
  n     : Bool
  c     : Bool
  v     : Bool
  /-- R250: the writes staged so far. -/
  out   : Staged
  reads : List Nat
  /-- R249: the ordinal that SEG took. -/
  seg   : Option Place
  /-- R249: an ACT has been made. -/
  acted : Bool
  /-- R249: the time and stamp of the last P2T by CONV. -/
  conv  : Option (Nat × PosStamp)
  /-- R249: kind, argument and operand of the last TEST. -/
  test  : Option (Nat × Byte × DWord)
  deriving DecidableEq, Repr

/-- What one microword does: the routine goes on at a micro-address, or ends. -/
inductive MRes where
  | go (s : Mst) (next : Nat)
  | done (r : Staged) (mf : Option (Nat × Nat))
  deriving DecidableEq, Repr

def Mst.r (s : Mst) (i : Nat) : DWord := s.m.at (Fin.ofNat 32 i)
def Mst.set (s : Mst) (i : Nat) (v : DWord) : Mst := { s with m := s.m.put (Fin.ofNat 32 i) v }
def Mst.setN (s : Mst) (i : Nat) (v : Nat) : Mst := s.set i (BitVec.ofNat 64 v)

/-- A 64-bit free value, the `k`-th taken. -/
def freeDWord (k : Nat) : DWord := BitVec.ofNat 64 (join64 (Config.word (2 * k)) (Config.word (2 * k + 1)))

/-- Free value `i` of the routine (log entry 3). -/
def Env.free (e : Env) (i : Nat) : DWord := freeDWord (e.d.free + i)

/-- R246: the scratch registers at routine start; m0 to m27 are undefined. -/
def Env.scratch (e : Env) : Tab DWord 32 :=
  Vector.ofFn (fun i =>
    if i.val < 28 then e.free i.val
    else if i.val = 28 then BitVec.ofNat 64 e.home.val
    else if i.val = 29 then BitVec.ofNat 64 e.ctx.pc.toNat
    else if i.val = 30 then e.word.zeroExtend 64
    else if e.x then e.ext.zeroExtend 64 else 0)

/-! ## ALU operations (R247) -/

/-- R247: the width of an ALU operation. -/
def uWidth (w : Word) : Nat := match fld w 10 9 with | 0 => 32 | 1 => 48 | _ => 64

/-- R247: the second operand. -/
def Mst.second (s : Mst) (w : Word) : DWord :=
  if bitOf w 6 then BitVec.ofInt 64 (signedOf 6 (fld w 5 0)) else s.r (uB w)

/-- R247: an operand as an integer. -/
def uVal {n : Nat} (u : Bool) (x : BitVec n) : Int := if u then (x.toNat : Int) else x.toInt

/-- R247: a result extended to 64 bits. -/
def uExtend {n : Nat} (u : Bool) (x : BitVec n) : DWord := BitVec.ofInt 64 (uVal u x)

/-- R247: result, carry and overflow (none where the operation leaves the flag) of ALU operation `op` on operands
of one width. MUL sets mv as R184 gives it, MULH clears it (DEDUCED, log 40). -/
def uAlu {n : Nat} (op : Nat) (u : Bool) (a b : BitVec n) : BitVec n × Option Bool × Option Bool :=
  let k := fld b 5 0
  match op with
  | 0x01 => (a + b, some (addCarry a b), some (addOver a b))
  | 0x02 | 0x0D => (a - b, some (subCarry a b), some (subOver a b))
  | 0x03 => (a &&& b, none, none)
  | 0x04 => (a ||| b, none, none)
  | 0x05 => (a ^^^ b, none, none)
  | 0x06 => (if n ≤ k then 0 else a <<< k, if k = 0 then none else some (k ≤ n && a.getLsbD (n - k)), none)
  | 0x07 => (if n ≤ k then 0 else a >>> k, if k = 0 then none else some (a.getLsbD (k - 1)), none)
  | 0x08 => (a.sshiftRight k, if k = 0 then none else some (if k ≤ n then a.getLsbD (k - 1) else a.msb), none)
  | 0x09 => let p := uVal u a * uVal u b; (BitVec.ofInt n p, none, some (uVal u (BitVec.ofInt n p) != p))
  | 0x0A => (BitVec.ofInt n (uVal u a * uVal u b / ((2 ^ n : Nat) : Int)), none, some false)
  | 0x0B => let first := decide (uVal u a ≤ uVal u b); (if first then a else b, some first, none)
  | _ => let first := decide (uVal u b ≤ uVal u a); (if first then a else b, some first, none)

/-- R247: the micro-flags after an ALU operation with result `r`. -/
def Mst.flags {n : Nat} (s : Mst) (r : BitVec n) (c v : Option Bool) : Mst :=
  { s with z := r == 0, n := r.msb, c := c.getD s.c, v := v.getD s.v }

/-- R247: one ALU operation; CMP always sets the micro-flags, MIN and MAX always set mc. -/
def Mst.alu (s : Mst) (w : Word) : Mst :=
  let n := uWidth w
  let u := bitOf w 7
  let op := uOp w
  let (r, c, v) := uAlu (n := n) op u (BitVec.ofNat n (s.r (uA w)).toNat) (BitVec.ofNat n (s.second w).toNat)
  let s := if op = 0x0D then s else s.set (uDst w) (uExtend u r)
  if op = 0x0D ∨ bitOf w 8 then s.flags r c v
  else if op = 0x0B ∨ op = 0x0C then { s with c := c.getD s.c }
  else s

/-! ## Fields, conditions and context registers (R248, R249) -/

/-- R249: bits of EXT and INS. -/
def uLsb (w : Word) : Nat := fld w 10 5
def uLen (w : Word) : Nat := fld w 4 0 + 1

/-- R248: a condition on the micro-flags. -/
def Mst.cond (e : Env) (s : Mst) (k : Nat) : Bool := condHolds k s.z s.n s.c s.v e.flagL

/-- R249: class and index of RDR, WRR and LDCX. -/
def uCls (w : Word) : Nat := fld w 10 9

/-- R160, R194: the register exists in its class. -/
def uRegOk (cls i : Nat) : Bool :=
  match cls with | 0 => decide (i < 16) | 3 => i == 0 | _ => decide (i < 4)

/-- R249: a context register, g and p sign-extended, state in the layout of R194. -/
def Context.micro (c : Context) (cls i : Nat) : DWord :=
  match cls with
  | 0 => (c.gr i).signExtend 64
  | 1 => c.tr i
  | 2 => (c.pr i).signExtend 64
  | _ => c.stateWord.zeroExtend 64

/-- R249: WRR. -/
def Context.write (c : Context) (cls i : Nat) (v : DWord) : Context :=
  match cls with
  | 0 => c.setG i (v.truncate 32)
  | 1 => c.setT i v
  | _ => c.setP i (v.truncate 48)

/-- R249: WFL. -/
def Context.writeFlags (c : Context) (mask : Nat) (v : DWord) : Context :=
  let m : BitVec 4 := BitVec.ofNat 4 mask
  { c with
    z := if bitOf m 3 then bitOf v 3 else c.z, n := if bitOf m 2 then bitOf v 2 else c.n
    c := if bitOf m 1 then bitOf v 1 else c.c, v := if bitOf m 0 then bitOf v 0 else c.v }

/-- Four flags as bits [3:0], Z highest. -/
def flagBits (z n c v : Bool) : Nat := v.toNat + 2 * c.toNat + 4 * n.toNat + 8 * z.toNat

/-! ## Faults and results -/

/-- R244, R249: a MICRO fault at micro-address `u`. -/
def Env.micro (e : Env) (sub u : Nat) : MRes := .done (e.fault fMicro sub) (some (sub, u))

/-- A MICRO fault for which the manual gives no subcode. -/
def Env.microFree (e : Env) (u : Nat) : MRes := e.micro (fld (e.free 28) 5 0) u

/-- The environment in which the routine's own staged effects count. -/
def Env.with (e : Env) (s : Mst) : Env := { e with svc := { e.svc with staged := e.svc.staged ++ [s.out] } }

/-- The routine goes on with the staged writes `r`, or ends when `r` blocks or faults. -/
def Mst.take (s : Mst) (u : Nat) (r : Staged) (f : Mst → Mst) : MRes :=
  match r.fin with
  | .fault _ => .done r none
  | .block _ => .done r none
  | _ => .go (f { s with out := r }) (u + 1)

/-! ## Crossings (R249) -/

/-- LDB. -/
def Env.uLdb (e : Env) (s : Mst) (u : Nat) (w : Word) : MRes :=
  let a := (s.r (uA w)).toNat
  let n := if bitOf w 0 then 4 else 8
  let x := e.with s
  s.take u (x.bankAddr n a (x.need (e.d.bankOn a) fBank s.out)) (fun s =>
    { s with reads := s.reads ++ [wordOf a] }.setN (uDst w) (x.bankWord (wordOf a) / 2 ^ (8 * (a % 8)) % 2 ^ (8 * n)))

/-- LDCX. -/
def Env.uLdcx (e : Env) (s : Mst) (u : Nat) (w : Word) : MRes :=
  let n := (s.r (uA w)).toNat
  let i := if bitOf w 8 then n % 16 else fld w 3 0
  s.take u (e.need (decide (n < 512) && uRegOk (uCls w) i) fCtxbad s.out) (fun s =>
    s.set (uDst w) ((e.svc.view.chn.at (Fin.ofNat 512 n)).rel.micro (uCls w) i))

/-- LDAE. -/
def Env.uLdae (e : Env) (s : Mst) (u : Nat) (w : Word) : MRes :=
  let t := e.viewTab (fld w 7 2)
  let i := (s.r (uA w)).toNat
  s.take u (e.need (e.tabOk t && decide (i < t.len)) fAlmrange s.out) (fun s =>
    s.setN (uDst w) (e.ram.almWord (t.base + i) (fld w 9 8)).toNat)

/-- ASRCH. -/
def Env.uAsrch (e : Env) (s : Mst) (u : Nat) (w : Word) : MRes :=
  let t := e.viewTab (fld w 5 0)
  let v := s.r (uA w)
  let next := bitOf w 6
  let ok := if next then e.tabOk t && decide (v.toNat < t.len) else e.almOk t v
  let r := if next then almNext t v.toNat else almSearch e.ram t (e.searchKey t (v.truncate 48) v)
  s.take u (e.need ok fAlmrange s.out) (fun s =>
    match r with
    | some (j, wrap) => { s with z := false, c := wrap }.setN (uDst w) j
    | none => { s with z := true, c := false }.setN (uDst w) 0xFFFF_FFFF)

/-- CONV. -/
def Env.uConv (e : Env) (s : Mst) (u : Nat) (w : Word) : MRes :=
  let ax : Axis := Fin.ofNat 64 (fld w 5 0)
  let t2p := bitOf w 6
  let v := s.r (uA w)
  let k := e.conv ax t2p (if t2p then (v.toNat : Int) else signedOf 48 v.toNat)
  let z := (e.d.axs.at ax).est.st != AxState.steady
  let s := { s with out := { s.out with convs := s.out.convs ++ [k] }, z := z }
  if t2p then .go ({ s with c := false, v := false }.set (uDst w) (BitVec.ofInt 64 k.res)) (u + 1)
  else
    let t := k.res.toNat
    .go ({ s with c := decide (t < e.svc.view.at'), v := t == never
                  conv := some (t, ⟨ax, k.arg, k.epoch, z⟩) }.setN (uDst w) t) (u + 1)

/-- AXRD. -/
def Env.uAxrd (e : Env) (s : Mst) (w : Word) : Mst :=
  let x := e.viewAx (fld w 5 0)
  s.setN (uDst w) (x.st.num + 16 * x.nfix + 4294967296 * x.epoch.toNat)

/-- CHRD; with no enabled member every field but the first is open. -/
def Env.uChrd (e : Env) (s : Mst) (w : Word) : Mst :=
  match e.svc.view.memberOf e.home (fld w 2 0) with
  | some c =>
    let x := e.svc.view.chn.at c
    s.setN (uDst w) (1 + 2 * x.mode.toNat + 32 * x.free + 1024 * x.capFree)
  | none => s.set (uDst w) (e.free 29 &&& 0x7FFE)

/-- TEST. -/
def Env.uTest (e : Env) (s : Mst) (u : Nat) (w : Word) : MRes :=
  let k := fld w 2 0
  let arg := fld w 10 3
  let v := s.r (uA w)
  let run : Chan → Staged := fun _ => s.out
  let ok := k ≤ 5 && (k ≠ 1 || decide (arg < 64)) &&
    (k ≠ 5 || (decide (1 ≤ fld (BitVec.ofNat 8 arg) 6 3) && decide (fld (BitVec.ofNat 8 arg) 6 3 ≤ 8)))
  let m := arg % 8
  let c := if waitMember k then (e.svc.view.memberOf e.home m).getD e.home else e.home
  s.take u (e.need ok fWaitbad (if waitMember k then e.target m run else s.out)) (fun s =>
    { s with z := (e.with s).waitHolds k arg c v, test := some (k, BitVec.ofNat 8 arg, v) }.set (uDst w)
      (if k = 1 ∨ k = 2 ∨ k = 3 then (e.waitCount k arg).zeroExtend 64 else e.free 30))

/-! ## Actions and effects (R249) -/

/-- SEG. -/
def Env.uSeg (e : Env) (s : Mst) (u : Nat) (w : Word) : MRes :=
  match s.seg with
  | some _ => e.microFree u
  | none =>
    let p := e.place
    s.take u (e.withPlace (fun p => e.takes p s.out)) (fun s =>
      { s with seg := some p, z := e.isSettled p }.setN (uDst w) p.ord)

/-- ACT: the stamp is that of the last CONV, or the time of srcA. -/
def Env.uAct (e : Env) (s : Mst) (u : Nat) (w : Word) : MRes :=
  match s.seg with
  | none => e.microFree u
  | some p =>
    if s.acted then e.microFree u
    else
      let ty := match fld w 4 3 with | 3 => ActTy.trippulse | k => typeOf k
      let a : ActSpec := ⟨ty, bitOf w 5, if ty = .level then 0 else (s.r (uB w)).toNat % 4294967296, Fin.ofNat 32 (uDst w)⟩
      let stamped := bitOf w 6
      s.take u (e.actTarget (fld w 2 0) a (fun c =>
          if e.isSettled p then s.out
          else if stamped then
            match s.conv with
            | some (t, st) =>
              let pol := (e.d.chn.at c).cfg.live.coast
              if mustHold (e.d.axs.at st.ax) pol then e.block (.hold st.ax pol)
              else e.stageAct c a p t (some st) s.out
            | none => e.stageAct c a p (e.free 31).toNat none s.out
          else e.stageAct c a p (s.r (uA w)).toNat none s.out))
        (fun s => { s with acted := true })

/-- CANM. -/
def Env.uCanm (e : Env) (s : Mst) (u : Nat) (w : Word) : MRes :=
  let x := e.with s
  let thr := if bitOf w 3 then none else some (s.r (uA w))
  match e.svc.view.memberOf e.home (fld w 2 0) with
  | none => .done (e.fault fTarget) none
  | some c => s.take u (x.cancelIn c thr s.out) (fun s => { s with z := !x.cancelsAny c thr })

/-- CAPQ. -/
def Env.uCapq (e : Env) (s : Mst) (u : Nat) (w : Word) : MRes :=
  let x := e.with s
  match e.svc.view.memberOf e.home (fld w 2 0) with
  | none => .done (e.fault fTarget) none
  | some c =>
    match captTake (bitOf w 3) (x.capEntries c) with
    | none => .go { s with z := true } (u + 1)
    | some (k, y, left, _) =>
      s.take u (x.hold (.capt c k) s.out) (fun s =>
        ({ s with z := false }.setN (uDst w) y.stamp).setN (uDst w + 1)
          (y.val + 4294967296 * (y.attrBits left).toNat))

/-- HOLD. -/
def Env.uHold (e : Env) (s : Mst) (u : Nat) (w : Word) : MRes :=
  let x := e.with s
  let a := s.r (uA w)
  let b := s.r (uB w)
  match fld w 2 0 with
  | 0 => s.take u (x.hold (.sig (sigDetail e.home (a.toNat % 256) (b.toNat % 32))) s.out) id
  | 1 => s.take u (x.hold (.xkick (Fin.ofNat 32 a.toNat)) s.out) id
  | 2 => s.take u (x.lsendAt a.toNat b s.out) id
  | 3 =>
    let half := bitOf w 3
    s.take u (x.bankAddr (if half then 4 else 8) a.toNat (x.hold (.stm a.toNat b half e.ctx.pc) s.out)) id
  | 4 =>
    let r := fld w 7 4
    s.take u (x.need (e.stcOk a.toNat r) fStcbad
      (x.hold (.stc (Fin.ofNat 512 a.toNat) (Fin.ofNat 16 r) (b.truncate 32)) s.out)) id
  | 5 => .go { s with out := { s.out with stop := true } } (u + 1)
  | _ => e.microFree u

/-- CFGH. -/
def Env.uCfgh (e : Env) (s : Mst) (u : Nat) (w : Word) : MRes :=
  let x := e.with s
  match e.svc.view.memberOf e.home (fld w 2 0) with
  | none => .done (e.fault fTarget) none
  | some c =>
    s.take u (x.cfgTo c (s.r (uA w)).toNat ((s.r (uDst w)).truncate 32) ((s.r (uB w)).truncate 32) s.out) id

/-- APPH; ATMODE 3 faults as APPLY does (R213). -/
def Env.uApph (e : Env) (s : Mst) (u : Nat) (w : Word) : MRes :=
  let x := e.with s
  let m := fld w 4 3
  match e.svc.view.memberOf e.home (fld w 2 0) with
  | none => .done (e.fault fTarget) none
  | some c =>
    s.take u (x.need (m ≠ 3) fIllegal
      (x.hold (.apply c (BitVec.ofNat 2 m) (s.r (uA w)) (Fin.ofNat 64 (fld w 10 5))) s.out)) id

/-- BLOCK: the WRR and WFL writes alone land, and the service ends with PC at pc. -/
def Env.uBlock (e : Env) (s : Mst) (w : Word) : MRes :=
  let k : BitVec 4 := BitVec.ofNat 4 (fld w 3 0)
  let t := match s.test with
    | some (k', a, v) => if k' = k.toNat then some (a, v) else none
    | none => none
  let b := e.block (.micro k t)
  .done { b with ctx := { s.out.ctx with pc := e.ctx.pc, past := false } } none

/-! ## One microword, and a routine -/

/-- R249: what a microword at micro-address `u` does. -/
def Env.uStep (e : Env) (s : Mst) (u : Nat) (w : Word) : MRes :=
  let n := u + 1
  let d := uDst w
  let a := s.r (uA w)
  let i := if bitOf w 8 then (s.r (uA w)).toNat % 16 else fld w 3 0
  match uOp w with
  | 0x00 => .go s n
  | 0x01 | 0x02 | 0x03 | 0x04 | 0x05 | 0x06 | 0x07 | 0x08 | 0x09 | 0x0A | 0x0B | 0x0C | 0x0D => .go (s.alu w) n
  | 0x0E => .go (s.set d (BitVec.ofInt 64 (signedOf 11 (uCtl w)))) n
  | 0x0F => .go (s.setN d (a.toNat * 2048 + uCtl w)) n
  | 0x10 => .go (s.setN d (a.toNat / 2 ^ uLsb w % 2 ^ uLen w)) n
  | 0x11 => .go (s.set d (BitVec.ofInt 64 (signedOf (uLen w) (a.toNat / 2 ^ uLsb w)))) n
  | 0x12 => .go (s.set d (setFld a (uLsb w + uLen w - 1) (uLsb w) ((s.r (uB w)).toNat % 2 ^ uLen w))) n
  | 0x13 => .go (s.setN d (s.cond e (fld w 3 0)).toNat) n
  | 0x14 => .go s (if s.cond e (fld w 24 21) then ((n : Int) + signedOf 11 (uCtl w)).toNat else n)
  | 0x15 => .go (s.setN d (flagBits s.z s.n s.c s.v)) n
  | 0x18 => if uRegOk (uCls w) i then .go (s.set d (e.ctx.micro (uCls w) i)) n else .done (e.fault fIllegal) none
  | 0x19 =>
    let j := if bitOf w 8 then a.toNat % 16 else fld w 3 0
    if uCls w ≠ 3 && uRegOk (uCls w) j then
      .go { s with out := { s.out with ctx := s.out.ctx.write (uCls w) j (s.r (uB w)) } } n
    else .done (e.fault fIllegal) none
  | 0x1A => .go (s.setN d (flagBits e.ctx.z e.ctx.n e.ctx.c e.ctx.v + 16 * e.flagL.toNat)) n
  | 0x1B => .go { s with out := { s.out with ctx := s.out.ctx.writeFlags (fld w 3 0) a } } n
  | 0x1C => .go { s with out := s.out.to (a.toNat % 32768) } n
  | 0x20 => e.uLdb s u w
  | 0x21 => e.uLdcx s u w
  | 0x22 => e.uLdae s u w
  | 0x23 => e.uAsrch s u w
  | 0x24 => e.uConv s u w
  | 0x25 => .go (e.uAxrd s w) n
  | 0x26 => .go (e.uChrd s w) n
  | 0x27 => .go (s.setN d e.svc.view.at') n
  | 0x28 => e.uTest s u w
  | 0x2C => e.uSeg s u w
  | 0x2D => e.uAct s u w
  | 0x2E => e.uCanm s u w
  | 0x2F => e.uCapq s u w
  | 0x30 => e.uHold s u w
  | 0x31 => e.uCfgh s u w
  | 0x32 => e.uApph s u w
  | 0x38 => e.uBlock s w
  | 0x39 => .go { s with out := { s.out with fin := .yield } } n
  | 0x3A => e.micro (fld w 10 5) u
  | 0x3E => .go s n
  | 0x3F => .done s.out none
  | _ => e.microFree u

/-- R254: the microword of the open store at a micro-address. -/
def Env.microword (e : Env) (u : Nat) : Option Word :=
  if 0xA000 ≤ u ∧ u ≤ 0xFFFF then some (w32 (e.ram.storeRead 4 (4 * (u - 0xA000)))) else none

/-- R250: what a routine leaves whose writes before COMMIT are `s` and whose tail ended with `r`: writes of the tail land
apart, at the first boundary after END. END falls in the base period of COMMIT or in one of the ten after it (log 40). -/
def Env.tailed (e : Env) (head : Staged) (r : Staged) (reads : List Nat) : Run :=
  if r.ctx = head.ctx then ⟨{ head with fin := r.fin }, reads, none, 33⟩
  else ⟨{ head with fin := r.fin, tail := some (r.ctx, addT e.now (32 * ((e.free 32).toNat % 11))) }, reads, none, 33⟩

/-- R250, R251: the tail of a routine from micro-address `u` on, at most `k` microwords. -/
def Env.uTail (e : Env) (head : Staged) : Nat → Nat → Mst → Run
  | 0, _, s => e.tailed head s.out s.reads
  | k + 1, u, s =>
    match e.microword u with
    | none => e.tailed head s.out s.reads
    | some w =>
      match e.uStep s u w with
      | .go s' n => e.uTail head k n s'
      | .done _ _ => e.tailed head s.out s.reads

/-- R244: a routine from micro-address `u` on, `k` microwords before the limit, which COMMIT ends. -/
def Env.uRun (e : Env) : Nat → Nat → Mst → Run
  | 0, u, s => ⟨e.fault fMicro 0x3F, s.reads, some (0x3F, u), 32⟩
  | k + 1, u, s =>
    match e.microword u with
    | none => ⟨e.fault fMicro (fld (e.free 28) 5 0), s.reads, some (fld (e.free 28) 5 0, u), 32⟩
    | some w =>
      if uOp w = 0x3E then e.uTail s.out 16 (u + 1) s
      else match e.uStep s u w with
      | .go s' n => e.uRun k n s'
      | .done r mf => ⟨r, s.reads, mf, 32⟩

/-- R246, R250: the routine at `u` from its start. -/
def Env.routine (e : Env) (u : Nat) : Run :=
  e.uRun 4096 u
    { m := e.scratch, z := false, n := false, c := false, v := false, out := e.go e.ctx, reads := [], seg := none
      acted := false, conv := none, test := none }

/-- R252, R253: the record of the image for an opcode, while OPEN entries are not masked. -/
def Helm.openRec (h : Helm) (op : Nat) : Option DispRec :=
  if h.mode = .normal then h.recs.find? (fun r => r.op.toNat == op) else none

/-- R215: a customer opcode. -/
def insUop (e : Env) : Run :=
  match e.d.hlm.openRec (opOf e.word) with
  | some r => e.routine r.uaddr.toNat
  | none => ⟨e.fault fUop, [], none, 0⟩

end Sys2Proof.Machine
end

