-- ==== Sys2Proof/Machine/Programs.lean ====
section
/-! DEFINITION. The commands of channel programs: each executes the next instruction of a running service, when
that instruction is the command's (R163, R180, R238, R250, R252). -/

namespace Sys2Proof.Machine

open Sys2Proof

/-! ## One instruction -/

/-- R156, R163: the service can execute its next instruction. -/
def canRun (s : Service) : Bool :=
  decide (s.count < 1024) && !s.ctx.past &&
  (match s.staged.getLast? with
   | some r => r.fin == .go
   | none => true)

/-- R155: the instruction word at a word address. -/
def Ram.progWord (r : Ram) (pc : Nat) : Word := w32 (r.progRead 4 (4 * pc))

/-- R161, R252, R253: whether an extension word follows the opcode: a patched routine keeps the X of the ROM entry. -/
def Helm.extends (h : Helm) (op : Nat) : Bool :=
  if op < 0xE0 then romX op
  else match h.openRec op with
    | some r => r.x
    | none => false

/-- The environment of the next instruction of service `s` of home `h`. -/
def envOf (h : Chan) (s : Service) (now : Nat) (c : Core) : Env :=
  let pc := s.ctx.pc.toNat
  let w := c.ram.progWord pc
  { now := now, home := h, d := c.dev, ram := c.ram, svc := s, word := w
    ext := c.ram.progWord (pc + 1), x := c.dev.hlm.extends (opOf w) }

/-- R238, R250: the context after a routine, its tail included. -/
def Staged.last (r : Staged) : Context := match r.tail with | some x => x.1 | none => r.ctx

/-- R260: the writes of a routine as staged; a MICRO fault keeps its micro-address. -/
def Run.kept (r : Run) : Staged :=
  match r.mfault, r.out.fin with
  | some (sub, u), .fault f => { r.out with fin := .fault { f with sub := sub, ua := some u } }
  | _, _ => r.out

/-- R250: the writes of a routine are staged; the bank words it read are noted. -/
def stage (h : Chan) (now : Nat) (r : Run) (c : Core) : Core :=
  let d := r.reads.foldl (fun d a => loadA a now d) c.dev
  let d := { d with free := d.free + r.frees }
  { c with dev := d.progUpd h (fun p => { p with svc := p.svc.map (fun s =>
      { s with ctx := r.out.last, count := s.count + 1, staged := s.staged ++ [r.kept], retried := false }) }) }

/-- A routine of the ROM: its staged writes and the bank words it read. -/
def Env.rom (r : Staged) (reads : List Nat := []) : Run :=
  match r.fin with
  | .go => ⟨r, reads, none, 0⟩
  | _ => ⟨r, [], none, 0⟩

/-- R156, R253: the run of the instruction, `rom` being its ROM routine: a patch of the image comes first. -/
def Env.execute (e : Env) (rom : Env → Run) : Run :=
  if e.x && e.ctx.pc == 0x7FFF then ⟨e.fault fPcrange, [], none, 0⟩
  else
    match (if opOf e.word < 0xE0 then e.d.hlm.openRec (opOf e.word) else none) with
    | some p => e.routine p.uaddr.toNat
    | none => rom e

/-- The next instruction of the running service of `h`, if its opcode is one that `mine` accepts. -/
def runInstr (mine : Nat → Bool) (rom : Env → Run) (h : Chan) (now : Nat) (c : Core) : Core :=
  match (c.dev.chn.at h).prog.svc with
  | none => c
  | some s =>
    let e := envOf h s now c
    if canRun s && mine (opOf e.word) then stage h now (e.execute rom) c else c

/-- R160, R182: the instruction of one opcode, its routine making no bank read. -/
def runOp (op : Nat) (f : Env → Staged) (h : Chan) (now : Nat) (c : Core) : Core :=
  runInstr (fun o => o == op) (fun e => Env.rom (f e)) h now c

/-- R193: LDM, which reads one bank word. -/
def runLdm (op : Nat) (f : Env → Staged) (h : Chan) (now : Nat) (c : Core) : Core :=
  runInstr (fun o => o == op) (fun e => Env.rom (f e) e.ldmReads) h now c

/-- R182: the ROM routine of an opcode, for the field checks of R179. -/
def romRoutine (op : Nat) (e : Env) : Staged :=
  match op with
  | 0x01 => insAdd e
  | 0x02 => insSub e
  | 0x03 => insMul e
  | 0x04 => insMac e
  | 0x05 => insAnd e
  | 0x06 => insOr e
  | 0x07 => insXor e
  | 0x08 => insShl e
  | 0x09 => insShr e
  | 0x0A => insAsr e
  | 0x0B => insCmp e
  | 0x0C => insMin e
  | 0x0D => insMax e
  | 0x0E => insSat e
  | 0x0F => insLdi e
  | 0x11 => insAddI e
  | 0x12 => insSubI e
  | 0x13 => insMulI e
  | 0x14 => insMacI e
  | 0x15 => insAndI e
  | 0x16 => insOrI e
  | 0x17 => insXorI e
  | 0x18 => insShlI e
  | 0x19 => insShrI e
  | 0x1A => insAsrI e
  | 0x1B => insCmpI e
  | 0x1C => insMinI e
  | 0x1D => insMaxI e
  | 0x1E => insSatI e
  | 0x20 => insTadd e
  | 0x21 => insTaddI e
  | 0x22 => insTsub e
  | 0x23 => insTcmp e
  | 0x24 => insTnow e
  | 0x25 => insTpack e
  | 0x26 => insTpart e
  | 0x30 => insPadd e
  | 0x31 => insPaddI e
  | 0x32 => insPsub e
  | 0x33 => insPmod e
  | 0x34 => insP2t e
  | 0x35 => insT2p e
  | 0x36 => insPset e
  | 0x37 => insPget e
  | 0x40 => insB e
  | 0x41 => insCall e
  | 0x42 => insRet e
  | 0x43 => insBr e
  | 0x44 => insLoop e
  | 0x45 => insNop e
  | 0x50 => insLdmG e
  | 0x51 => insLdmT e
  | 0x52 => insLdmP e
  | 0x53 => insStmG e
  | 0x54 => insStmT e
  | 0x55 => insStmP e
  | 0x56 => insLdc e
  | 0x57 => insStc e
  | 0x58 => insLda e
  | 0x60 => insEmit e
  | 0x61 => insEmitp e
  | 0x62 => insArmtrip e
  | 0x63 => insArmtripPosition e
  | 0x64 => insCancel e
  | 0x70 => insCapt e
  | 0x71 => insCaptn e
  | 0x78 => insAlm e
  | 0x79 => insAlmn e
  | 0x80 => insWait e
  | 0x88 => insSig e
  | 0x89 => insXkick e
  | 0x8A => insLsend e
  | 0x90 => insCfg e
  | 0x91 => insApply e
  | 0x92 => insYield e
  | 0x93 => insHalt e
  | _ => e.fault fIllegal

/-- R179, R160: the result is the fault ILLEGAL. -/
def Staged.illegal (r : Staged) : Bool :=
  match r.fin with
  | .fault f => f.code == fIllegal
  | _ => false

/-- R156, R160, R179: an instruction that is reserved, unassigned or ill-formed faults ILLEGAL; a fetch beyond
program memory faults PCRANGE. An unassigned opcode for which the image loaded a routine runs it (R253). Any other
instruction is left to its own command. -/
def illegalOpcode (h : Chan) (now : Nat) (c : Core) : Core :=
  match (c.dev.chn.at h).prog.svc with
  | none => c
  | some s =>
    let e := envOf h s now c
    if canRun { s with ctx := { s.ctx with past := false } } then
      if s.ctx.past then stage h now ⟨e.fault fPcrange, [], none, 0⟩ c
      else if opOf e.word < 0xE0 && !romValid (opOf e.word) && (e.d.hlm.openRec (opOf e.word)).isSome then
        stage h now (e.execute (fun e => ⟨e.fault fIllegal, [], none, 0⟩)) c
      else if opOf e.word < 0xE0 && (e.d.hlm.openRec (opOf e.word)).isNone then
        let r := romRoutine (opOf e.word) e
        if r.illegal && !(e.x && s.ctx.pc == 0x7FFF) then stage h now ⟨r, [], none, 0⟩ c else c
      else c
    else c

/-! ## The commands -/

def execAdd (ch : Chan) (s : State) : Host.Outcome State Fault Refusal := s.run (runOp 0x01 insAdd ch)
def execSub (ch : Chan) (s : State) : Host.Outcome State Fault Refusal := s.run (runOp 0x02 insSub ch)
def execMul (ch : Chan) (s : State) : Host.Outcome State Fault Refusal := s.run (runOp 0x03 insMul ch)
def execMac (ch : Chan) (s : State) : Host.Outcome State Fault Refusal := s.run (runOp 0x04 insMac ch)
def execAnd (ch : Chan) (s : State) : Host.Outcome State Fault Refusal := s.run (runOp 0x05 insAnd ch)
def execOr (ch : Chan) (s : State) : Host.Outcome State Fault Refusal := s.run (runOp 0x06 insOr ch)
def execXor (ch : Chan) (s : State) : Host.Outcome State Fault Refusal := s.run (runOp 0x07 insXor ch)
def execShl (ch : Chan) (s : State) : Host.Outcome State Fault Refusal := s.run (runOp 0x08 insShl ch)
def execShr (ch : Chan) (s : State) : Host.Outcome State Fault Refusal := s.run (runOp 0x09 insShr ch)
def execAsr (ch : Chan) (s : State) : Host.Outcome State Fault Refusal := s.run (runOp 0x0A insAsr ch)
def execCmp (ch : Chan) (s : State) : Host.Outcome State Fault Refusal := s.run (runOp 0x0B insCmp ch)
def execMin (ch : Chan) (s : State) : Host.Outcome State Fault Refusal := s.run (runOp 0x0C insMin ch)
def execMax (ch : Chan) (s : State) : Host.Outcome State Fault Refusal := s.run (runOp 0x0D insMax ch)
def execSat (ch : Chan) (s : State) : Host.Outcome State Fault Refusal := s.run (runOp 0x0E insSat ch)
def execLdi (ch : Chan) (s : State) : Host.Outcome State Fault Refusal := s.run (runOp 0x0F insLdi ch)
def execAddImmediate (ch : Chan) (s : State) : Host.Outcome State Fault Refusal := s.run (runOp 0x11 insAddI ch)
def execSubImmediate (ch : Chan) (s : State) : Host.Outcome State Fault Refusal := s.run (runOp 0x12 insSubI ch)
def execMulImmediate (ch : Chan) (s : State) : Host.Outcome State Fault Refusal := s.run (runOp 0x13 insMulI ch)
def execMacImmediate (ch : Chan) (s : State) : Host.Outcome State Fault Refusal := s.run (runOp 0x14 insMacI ch)
def execAndImmediate (ch : Chan) (s : State) : Host.Outcome State Fault Refusal := s.run (runOp 0x15 insAndI ch)
def execOrImmediate (ch : Chan) (s : State) : Host.Outcome State Fault Refusal := s.run (runOp 0x16 insOrI ch)
def execXorImmediate (ch : Chan) (s : State) : Host.Outcome State Fault Refusal := s.run (runOp 0x17 insXorI ch)
def execShlImmediate (ch : Chan) (s : State) : Host.Outcome State Fault Refusal := s.run (runOp 0x18 insShlI ch)
def execShrImmediate (ch : Chan) (s : State) : Host.Outcome State Fault Refusal := s.run (runOp 0x19 insShrI ch)
def execAsrImmediate (ch : Chan) (s : State) : Host.Outcome State Fault Refusal := s.run (runOp 0x1A insAsrI ch)
def execCmpImmediate (ch : Chan) (s : State) : Host.Outcome State Fault Refusal := s.run (runOp 0x1B insCmpI ch)
def execMinImmediate (ch : Chan) (s : State) : Host.Outcome State Fault Refusal := s.run (runOp 0x1C insMinI ch)
def execMaxImmediate (ch : Chan) (s : State) : Host.Outcome State Fault Refusal := s.run (runOp 0x1D insMaxI ch)
def execSatImmediate (ch : Chan) (s : State) : Host.Outcome State Fault Refusal := s.run (runOp 0x1E insSatI ch)
def execTadd (ch : Chan) (s : State) : Host.Outcome State Fault Refusal := s.run (runOp 0x20 insTadd ch)
def execTaddImmediate (ch : Chan) (s : State) : Host.Outcome State Fault Refusal := s.run (runOp 0x21 insTaddI ch)
def execTsub (ch : Chan) (s : State) : Host.Outcome State Fault Refusal := s.run (runOp 0x22 insTsub ch)
def execTcmp (ch : Chan) (s : State) : Host.Outcome State Fault Refusal := s.run (runOp 0x23 insTcmp ch)
def execTnow (ch : Chan) (s : State) : Host.Outcome State Fault Refusal := s.run (runOp 0x24 insTnow ch)
def execTpack (ch : Chan) (s : State) : Host.Outcome State Fault Refusal := s.run (runOp 0x25 insTpack ch)
def execTpart (ch : Chan) (s : State) : Host.Outcome State Fault Refusal := s.run (runOp 0x26 insTpart ch)
def execPadd (ch : Chan) (s : State) : Host.Outcome State Fault Refusal := s.run (runOp 0x30 insPadd ch)
def execPaddImmediate (ch : Chan) (s : State) : Host.Outcome State Fault Refusal := s.run (runOp 0x31 insPaddI ch)
def execPsub (ch : Chan) (s : State) : Host.Outcome State Fault Refusal := s.run (runOp 0x32 insPsub ch)
def execPmod (ch : Chan) (s : State) : Host.Outcome State Fault Refusal := s.run (runOp 0x33 insPmod ch)
def execP2t (ch : Chan) (s : State) : Host.Outcome State Fault Refusal := s.run (runOp 0x34 insP2t ch)
def execT2p (ch : Chan) (s : State) : Host.Outcome State Fault Refusal := s.run (runOp 0x35 insT2p ch)
def execPset (ch : Chan) (s : State) : Host.Outcome State Fault Refusal := s.run (runOp 0x36 insPset ch)
def execPget (ch : Chan) (s : State) : Host.Outcome State Fault Refusal := s.run (runOp 0x37 insPget ch)
def execB (ch : Chan) (s : State) : Host.Outcome State Fault Refusal := s.run (runOp 0x40 insB ch)
def execCall (ch : Chan) (s : State) : Host.Outcome State Fault Refusal := s.run (runOp 0x41 insCall ch)
def execRet (ch : Chan) (s : State) : Host.Outcome State Fault Refusal := s.run (runOp 0x42 insRet ch)
def execBr (ch : Chan) (s : State) : Host.Outcome State Fault Refusal := s.run (runOp 0x43 insBr ch)
def execLoop (ch : Chan) (s : State) : Host.Outcome State Fault Refusal := s.run (runOp 0x44 insLoop ch)
def execNop (ch : Chan) (s : State) : Host.Outcome State Fault Refusal := s.run (runOp 0x45 insNop ch)
def execLdmG (ch : Chan) (s : State) : Host.Outcome State Fault Refusal := s.run (runLdm 0x50 insLdmG ch)
def execLdmT (ch : Chan) (s : State) : Host.Outcome State Fault Refusal := s.run (runLdm 0x51 insLdmT ch)
def execLdmP (ch : Chan) (s : State) : Host.Outcome State Fault Refusal := s.run (runLdm 0x52 insLdmP ch)
def execStmG (ch : Chan) (s : State) : Host.Outcome State Fault Refusal := s.run (runOp 0x53 insStmG ch)
def execStmT (ch : Chan) (s : State) : Host.Outcome State Fault Refusal := s.run (runOp 0x54 insStmT ch)
def execStmP (ch : Chan) (s : State) : Host.Outcome State Fault Refusal := s.run (runOp 0x55 insStmP ch)
def execLdc (ch : Chan) (s : State) : Host.Outcome State Fault Refusal := s.run (runOp 0x56 insLdc ch)
def execStc (ch : Chan) (s : State) : Host.Outcome State Fault Refusal := s.run (runOp 0x57 insStc ch)
def execLda (ch : Chan) (s : State) : Host.Outcome State Fault Refusal := s.run (runOp 0x58 insLda ch)
def execEmit (ch : Chan) (s : State) : Host.Outcome State Fault Refusal := s.run (runOp 0x60 insEmit ch)
def execEmitp (ch : Chan) (s : State) : Host.Outcome State Fault Refusal := s.run (runOp 0x61 insEmitp ch)
def execArmtrip (ch : Chan) (s : State) : Host.Outcome State Fault Refusal := s.run (runOp 0x62 insArmtrip ch)
def execArmtripPosition (ch : Chan) (s : State) : Host.Outcome State Fault Refusal := s.run (runOp 0x63 insArmtripPosition ch)
def execCancel (ch : Chan) (s : State) : Host.Outcome State Fault Refusal := s.run (runOp 0x64 insCancel ch)
def execCapt (ch : Chan) (s : State) : Host.Outcome State Fault Refusal := s.run (runOp 0x70 insCapt ch)
def execCaptn (ch : Chan) (s : State) : Host.Outcome State Fault Refusal := s.run (runOp 0x71 insCaptn ch)
def execAlm (ch : Chan) (s : State) : Host.Outcome State Fault Refusal := s.run (runOp 0x78 insAlm ch)
def execAlmn (ch : Chan) (s : State) : Host.Outcome State Fault Refusal := s.run (runOp 0x79 insAlmn ch)
def execWait (ch : Chan) (s : State) : Host.Outcome State Fault Refusal := s.run (runOp 0x80 insWait ch)
def execSig (ch : Chan) (s : State) : Host.Outcome State Fault Refusal := s.run (runOp 0x88 insSig ch)
def execXkick (ch : Chan) (s : State) : Host.Outcome State Fault Refusal := s.run (runOp 0x89 insXkick ch)
def execLsend (ch : Chan) (s : State) : Host.Outcome State Fault Refusal := s.run (runOp 0x8A insLsend ch)
def execCfg (ch : Chan) (s : State) : Host.Outcome State Fault Refusal := s.run (runOp 0x90 insCfg ch)
def execApply (ch : Chan) (s : State) : Host.Outcome State Fault Refusal := s.run (runOp 0x91 insApply ch)
def execYield (ch : Chan) (s : State) : Host.Outcome State Fault Refusal := s.run (runOp 0x92 insYield ch)
def execHalt (ch : Chan) (s : State) : Host.Outcome State Fault Refusal := s.run (runOp 0x93 insHalt ch)
def execUop (ch : Chan) (s : State) : Host.Outcome State Fault Refusal :=
  s.run (runInstr (fun o => decide (0xE0 ≤ o)) insUop ch)
def execIllegalOpcode (ch : Chan) (s : State) : Host.Outcome State Fault Refusal := s.run (illegalOpcode ch)

end Sys2Proof.Machine
end

