-- ==== Sys2Proof/Machine/LineCode.lean ====
section
/-! DEFINITION. The 8b/10b code of the links (R278), of the standard that R278 names (PRESUMED, log 79). -/

namespace Sys2Proof.Machine

open Sys2Proof

/-- R278: bits abcdei of the 5b/6b code at negative running disparity, for the low five bits of a byte; a is the top bit. -/
def code6 : List (BitVec 6) :=
  [0b100111, 0b011101, 0b101101, 0b110001, 0b110101, 0b101001, 0b011001, 0b111000,
   0b111001, 0b100101, 0b010101, 0b110100, 0b001101, 0b101100, 0b011100, 0b010111] ++
  [0b011011, 0b100011, 0b010011, 0b110010, 0b001011, 0b101010, 0b011010, 0b111010,
   0b110011, 0b100110, 0b010110, 0b110110, 0b001110, 0b101110, 0b011110, 0b101011]

/-- R278: bits fghj of the 3b/4b code at negative running disparity, for the high three bits of a byte. -/
def code4 : List (BitVec 4) := [0b1011, 0b1001, 0b0101, 0b1100, 0b1101, 0b1010, 0b0110, 0b1110]

/-- The number of ones of a block. -/
def ones {n : Nat} (b : BitVec n) : Nat := ((nats n).filter (fun i => b.getLsbD i)).length

/-- R278: a block with as many ones as zeros leaves the running disparity as it is. -/
def balanced {n : Nat} (b : BitVec n) : Bool := 2 * ones b == n

/-- R278: the 6-bit block of `x` at running disparity `rd` (true positive), and the disparity after it. -/
def block6 (rd : Bool) (x : Nat) : BitVec 6 × Bool :=
  let b := code6.getD x 0
  (if rd && (!balanced b || x == 7) then ~~~ b else b, if balanced b then rd else !rd)

/-- R278: the alternate block for y = 7, where the primary one would make a run of five. -/
def alternate7 (rd : Bool) (x : Nat) : Bool :=
  if rd then x == 11 || x == 13 || x == 14 else x == 17 || x == 18 || x == 20

/-- R278: the 4-bit block of `y` after the 6-bit block of `x`. -/
def block4 (rd : Bool) (x y : Nat) : BitVec 4 × Bool :=
  let b := if y = 7 ∧ alternate7 rd x then 0b0111 else code4.getD y 0
  (if rd && (!balanced b || y == 3) then ~~~ b else b, if balanced b then rd else !rd)

/-- R278: the code group of a data byte, bit a at the top, and the running disparity after it. -/
def dataGroup (rd : Bool) (b : Byte) : BitVec 10 × Bool :=
  let x := b.toNat % 32
  let h := block6 rd x
  let l := block4 h.2 x (b.toNat / 32)
  (h.1 ++ l.1, l.2)

/-- R278: K28.5. -/
def commaGroup (rd : Bool) : BitVec 10 × Bool := (if rd then 0b1100000101 else 0b0011111010, !rd)

def dataGroups : Bool → List Byte → List (BitVec 10) × Bool
  | rd, [] => ([], rd)
  | rd, b :: l =>
    let g := dataGroup rd b
    let r := dataGroups g.2 l
    (g.1 :: r.1, r.2)

/-- R278, R281: the code groups of a frame, its comma first, and the running disparity after it. -/
def frameGroups (rd : Bool) (bytes : List Byte) : List (BitVec 10) × Bool :=
  let k := commaGroup rd
  let r := dataGroups k.2 bytes.tail
  (k.1 :: r.1, r.2)

end Sys2Proof.Machine
end

