-- ==== Sys2Proof/Machine/Links.lean ====
section
/-! DEFINITION. Grinil links (chapter 11): states, frames, latency compensation, the scheduler, upstream data and
messages. -/

namespace Sys2Proof.Machine

open Sys2Proof

/-! ## Records, states and fields (R292, R308, R309) -/

/-- R308: a record of link `l`. -/
def raiseLink (l : LinkNo) (kind cause arg now : Nat) (d : Device) : Device :=
  raise 4 (128 + l.val) kind cause arg now d

/-- R309: GLK_STAT.STATE. -/
def LinkSt.num (s : LinkSt) : Nat := match s with | .off => 0 | .train => 1 | .align => 2 | .up => 3 | .lost => 4

/-- R309: ECHO_INT, at least 4. -/
def Link.echoInt (x : Link) : Nat := max 4 (fld x.cfg 7 0)
/-- R309: ECHOWIN, 0 acting as 1. -/
def Link.echoWin (x : Link) : Int := max 1 (fld x.cfg 15 8)
def Link.rxreq (x : Link) : Bool := bitOf x.cfg 16
/-- R295, R296: the delay D in tk. -/
def Link.delay (x : Link) : Int := (x.dq + 8) / 16
/-- R295: m of an echo result. -/
def Link.echoM (x : Link) (rtt : Int) : Int := 8 * (rtt - x.turn) + signedOf 16 (fld x.asym 15 0)

/-- R280: the frame duration in tk. -/
def frameTk : Nat := 5120

/-- R280: the number of the first frame that starts at or after `t`. -/
def frameFrom (t : Nat) : Nat := (t + 5119) / 5120

/-- The slots of a link as channels. -/
def slotChans (l : LinkNo) : List Chan := (fins 8).map (slotChan l)

/-- R18, R108, R293: the link has left UP: LINKLOST on its eight channels, whose committed actions go. -/
def linkDown (l : LinkNo) (d : Device) : Device :=
  let d := (slotChans l).foldl (fun d c =>
    setCode c .linklost (d.chnUpd c (fun h => { h with comm := [], pin := { h.pin with slotEdges := [] } }))) d
  d.glwUpd l (fun w => { w with edges := [] })

/-- R292: the link changes state, with its STATE record. -/
def linkGo (l : LinkNo) (st : LinkSt) (now : Nat) (d : Device) : Device :=
  let up := (d.glk.at l).st == .up
  let d := d.glkUpd l (fun x => { x with st := st })
  let d := if up then linkDown l d else d
  raiseLink l 0x07 0x01 st.num now d

/-- R282, R292: TRAIN is entered with a new link epoch. -/
def linkTrain (l : LinkNo) (now : Nat) (d : Device) : Device :=
  let d := linkGo l .train now (d.glkUpd l (fun x => { x with lep := x.lep + 1, quiet := none }))
  d.glwUpd l (fun w => { w with
    syncs := [], echos := [], badRun := 0, rejRun := 0, awaiting := [], sent := [], lastT := Tab.all none
    trainAt := now, tmoDone := false })

/-- R279: the transmitter falls silent. -/
def LinkWork.silent (w : LinkWork) : LinkWork := { w with frame := [], line := [] }

/-- R292: LOST is entered with a cause, and the quiet period begins. -/
def linkLost (l : LinkNo) (cause now : Nat) (d : Device) : Device :=
  let d := linkGo l .lost now (d.glkUpd l (fun x => { x with lcause := cause, quiet := some (now + 16 * frameTk) }))
  let d := d.glwUpd l (fun w => { w.silent with badRun := 0, rejRun := 0, syncs := [], echos := [], awaiting := [] })
  raiseLink l 0x07 0x02 cause now d

/-- R292, R476: EN is written 1. A link whose domain is not on stays OFF and silent (R279) until the domain is. -/
def linkEnable (l : LinkNo) (now : Nat) (d : Device) : Device :=
  if (d.glk.at l).en then d
  else
    let d := d.glkUpd l (fun x => { x with en := true })
    if d.pwr.link = .on then linkTrain l now d else d

/-- R476: the LINK domain has reached ON: every enabled link that waited starts. -/
def linksStart (now : Nat) (d : Device) : Device :=
  forAll (fun l d => if (d.glk.at l).en && (d.glk.at l).st == .off then linkTrain l now d else d) d

/-- R279, R432: the LINK domain goes off: every link is silent. -/
def linksSilent (now : Nat) (d : Device) : Device :=
  forAll (fun l d =>
    let d := if (d.glk.at l).st == .off then d else linkGo l .off now d
    d.glwUpd l LinkWork.silent) d

/-- R292: EN is written 0; a link that was still OFF changes no state. -/
def linkDisable (l : LinkNo) (now : Nat) (d : Device) : Device :=
  if (d.glk.at l).en then
    let e := d.glkUpd l (fun x => { x with en := false, quiet := none })
    (if (d.glk.at l).st = .off then e else linkGo l .off now e).glwUpd l LinkWork.silent
  else d

/-- R292: RETRAIN is written 1. -/
def retrain (l : LinkNo) (now : Nat) (d : Device) : Device :=
  let x := d.glk.at l
  match x.st with
  | .train | .align | .up => linkLost l 3 now d
  | .lost => if x.quiet.isNone then linkTrain l now d else d
  | .off => d

/-- R292: the quiet period of LOST ends. -/
def quietEnd (l : LinkNo) (now : Nat) (d : Device) : Device :=
  let x := d.glk.at l
  match x.quiet with
  | some t =>
    if x.st = .lost ∧ t ≤ now then
      let d := d.glkUpd l (fun x => { x with quiet := none })
      if x.autore then linkTrain l now d else d
    else d
  | none => d

/-- R292: TRAIN has lasted 1 ms. -/
def trainTmo (l : LinkNo) (now : Nat) (d : Device) : Device :=
  let w := d.glw.at l
  if (d.glk.at l).st = .train ∧ !w.tmoDone ∧ w.trainAt + 8000000 ≤ now then
    raiseLink l 0x04 0x12 0 now (d.glwUpd l (fun w => { w with tmoDone := true }))
  else d

/-! ## Downstream frames (R280 to R287) -/

/-- A number as `n` bytes, high byte first. -/
def bytesBE : Nat → Nat → List Byte
  | 0, _ => []
  | n + 1, v => BitVec.ofNat 8 (v / 256 ^ n) :: bytesBE n v

/-- R281 to R283: the 16 bytes of frame `f` of link `x`, with a payload of 12 bytes. -/
def frameOf (x : Link) (kind f : Nat) (pay : List Byte) : List Byte :=
  let hdr : Byte := BitVec.ofNat 8 (32 * kind + 4 * (f % 8) + fld x.lep 1 0)
  (0xBC : Byte) :: hdr :: pay ++ bytesBE 2 (crc16 (hdr :: pay)).toNat

/-- R286: an edge command. -/
def edgeCmd (slot : Fin 8) (lvl : Bool) (o : Nat) : List Byte :=
  bytesBE 3 (slot.val * 2097152 + lvl.toNat * 1048576 + o % 1048576)

/-- R286: the payload of an EDGE frame: its commands, and null commands in the unused places. -/
def edgePay (cmds : List (List Byte)) : List Byte :=
  (cmds.flatten ++ List.replicate 12 (0xFF : Byte)).take 12

/-- R285: a payload of given bytes, the rest 0. -/
def padPay (l : List Byte) : List Byte := (l ++ List.replicate 12 (0 : Byte)).take 12

/-- R278, R280: a frame goes out in 8b/10b code; a transmission starts at negative running disparity. -/
def LinkWork.transmit (bytes : List Byte) (f : Nat) (w : LinkWork) : LinkWork :=
  let r := frameGroups (w.rd && !w.frame.isEmpty) bytes
  { w with frame := bytes, line := r.1, rd := r.2, nextF := f + 1 }

/-- The frame is transmitted. -/
def sendFrame (l : LinkNo) (kind f : Nat) (pay : List Byte) (d : Device) : Device :=
  d.glwUpd l (LinkWork.transmit (frameOf (d.glk.at l) kind f pay) f)

/-! ## The scheduler (R18, R94, R297, R298) -/

/-- R297: the commands of a slot, sent in this epoch, that are still pending at `e`. -/
def pendingCmds (w : LinkWork) (slot : Fin 8) (e : Nat) : Nat :=
  (w.sent.filter (fun x => x.1 == slot && decide (e < x.2 + 64))).length

/-- R18: edges in order of time, then of channel number; of equal ones the one committed first. -/
def sortEdges (q : List LinkEdge) : List LinkEdge :=
  q.foldl (fun l e => insertBefore (fun x => decide (e.t < x.t ∨ (e.t = x.t ∧ e.slot.val < x.slot.val))) e l) []

/-- R94: an edge is absorbed by a later one of the same slot on the same tick. -/
def absorbed (e : LinkEdge) (later : List LinkEdge) : Bool := later.any (fun x => x.slot == e.slot && x.t == e.t)

/-- R94: the time at which an edge is sent: 64 tk after the slot's previous edge at least, if it makes a transition. -/
def LinkWork.spaced (w : LinkWork) (e : LinkEdge) : Nat × Bool :=
  match w.lastT.at e.slot with
  | none => (e.t, true)
  | some p => if bitOf w.lastLvl e.slot.val = e.lvl then (e.t, false) else (max e.t (p + 64), true)

/-- R295: the delay that a frame starting at `now` uses: a change of DQ at that very boundary does not reach it. -/
def frameDelay (l : LinkNo) (now : Nat) (d : Device) : Int :=
  match (d.glw.at l).dqWas with
  | some (q, t) => if t = now then (q + 8) / 16 else (d.glk.at l).delay
  | none => (d.glk.at l).delay

/-- R295: DQ changes at `now`. -/
def dqChange (l : LinkNo) (v : Int) (now : Nat) (d : Device) : Device :=
  (d.glwUpd l (fun w => { w with dqWas := some ((d.glk.at l).dq, now) })).glkUpd l (fun x => { x with dq := fitS 24 v })

/-- What the scheduler has put into a frame so far. -/
structure FramePlan where
  cmds : List (List Byte)
  /-- R297: edges that stay. -/
  keep : List LinkEdge
  /-- R297: slots with an edge that stays. -/
  shut : List (Fin 8)
  /-- R297: an edge waits only because of the 16-command limit. -/
  held : Bool
  work : LinkWork
  dev  : Device

/-- R297, R298: the scheduler considers edge `e` for the frame that starts at `f0` = E_f; `later` are the edges that
follow it. -/
def planEdge (l : LinkNo) (f0 now : Nat) (e : LinkEdge) (later : List LinkEdge) (p : FramePlan) : FramePlan :=
  if absorbed e later then p
  else
    let (t, moves) := p.work.spaced e
    let o : Int := (t : Int) - f0 - frameDelay l now p.dev
    let stay : FramePlan := { p with keep := p.keep ++ [e], shut := e.slot :: p.shut }
    if p.shut.contains e.slot || decide (0xFFFFE < o) || decide (4 ≤ p.cmds.length) then stay
    else if 16 ≤ pendingCmds p.work e.slot f0 then { stay with held := true }
    else
      let late := decide (o < 7680)
      let o' := if late then 7680 else o.toNat
      let sentT := if late then ((f0 : Int) + frameDelay l now p.dev + 7680).toNat else t
      let dev := if t ≠ e.t then setNarrow (slotChan l e.slot) now p.dev else p.dev
      let dev := if late then
          raiseLink l 0x04 0x10 e.slot.val now (dev.glkUpd l (fun x => { x with txlate := satInc 32 x.txlate }))
        else dev
      { p with
        cmds := p.cmds ++ [edgeCmd e.slot e.lvl o'], dev := dev
        work := { p.work with
          sent := p.work.sent ++ [(e.slot, sentT)]
          lastT := if moves then p.work.lastT.put e.slot (some sentT) else p.work.lastT
          lastLvl := setFld p.work.lastLvl e.slot.val e.slot.val e.lvl.toNat } }

/-- R297: the scheduler considers the edges in order. -/
def planEdges (l : LinkNo) (f0 now : Nat) : List LinkEdge → FramePlan → FramePlan
  | [], p => p
  | e :: q, p => planEdges l f0 now q (planEdge l f0 now e q p)

/-- R297: what of the waiting edges frame `f` would carry. -/
def planFrame (l : LinkNo) (f now : Nat) (d : Device) : FramePlan :=
  let w := d.glw.at l
  let f0 := f * frameTk
  let w := { w with sent := w.sent.filter (fun x => decide (f0 < x.2 + 64)) }
  planEdges l f0 now (sortEdges w.edges) ⟨[], [], [], false, w, d⟩

/-! ## The transmit queue (R304) -/

/-- R304: the byte address of word `w` of transmit-queue entry `i` of a link. -/
def txAddr (l : LinkNo) (i w : Nat) : Nat := l.val * 0x800 + 16 * i + 4 * w

/-- R304: VALID of an entry. -/
def txValid (r : Ram) (l : LinkNo) (i : Nat) : Bool := bitOf (w32 (r.lbufRead 4 (txAddr l i 3))) 0

/-- R304: the 12 message bytes of an entry, from its three words. -/
def txBytes (r : Ram) (l : LinkNo) (i : Nat) : List Byte :=
  [0, 1, 2].flatMap (fun w => bytesBE 4 (r.lbufRead 4 (txAddr l i w)))

/-- R304: VALID is cleared and the pointer advances. -/
def txNext (l : LinkNo) (i sent : Nat) (c : Core) : Core :=
  let v := c.ram.lbufRead 4 (txAddr l i 3)
  { ram := c.ram.lbufWrite 4 (txAddr l i 3) (v / 2 * 2)
    dev := c.dev.glkUpd l (fun x => { x with txIdx := (i + 1) % 64, txSent := (x.txSent + sent) % 67108864 }) }

/-- R304: the next valid entry to send, entries with TYPE below 0x10 skipped with TXQDROP; at most `k` are looked at. -/
def txTake (l : LinkNo) (now : Nat) : Nat → Core → Option (List Byte) × Core
  | 0, c => (none, c)
  | k + 1, c =>
    let i := (c.dev.glk.at l).txIdx
    if txValid c.ram l i then
      let m := txBytes c.ram l i
      match m with
      | ty :: _ =>
        if ty.toNat < 0x10 then
          txTake l now k ((txNext l i 0 c).mapDev (raiseLink l 0x04 0x14 i now))
        else (some m, txNext l i 1 c)
      | [] => (none, c)
    else (none, c)

/-! ## The content of a frame (R292, R299, R300, R303) -/

/-- R299 items 1 and 2, R300, R303: the SAFE frame or the keyed CONFIG message that frame `f` carries. -/
def urgentFrame (l : LinkNo) (f : Nat) (d : Device) : Option Device :=
  let w := d.glw.at l
  let x := d.glk.at l
  if w.safeDue ≠ 0 then
    some (sendFrame l 1 f (padPay [w.safeDue]) (d.glwUpd l (fun w => { w with safeDue := 0 })))
  else
    match x.kmsg with
    | some m =>
      if m.due then
        some (sendFrame l 3 f (padPay (m.ty :: m.seq :: m.body.toList))
          (d.glkUpd l (fun x => { x with kmsg := some { m with due := false, sent := some f } })))
      else none
    | none => none

/-- R294: an ECHO frame. -/
def sendEcho (l : LinkNo) (f : Nat) (d : Device) : Device :=
  sendFrame l 2 f (padPay [BitVec.ofNat 8 f])
    (d.glwUpd l (fun w => { w with lastEcho := f, awaiting := w.awaiting ++ [f] }))

/-- R297: the frame carries the planned edges. -/
def sendEdges (l : LinkNo) (f : Nat) (p : FramePlan) : Device :=
  sendFrame l 0 f (edgePay p.cmds) (p.dev.glwUpd l (fun _ => { p.work with edges := p.keep }))

/-- R297: GLK_HOLD counts a frame in which an edge waits only because of the pending limit. -/
def holdCount (l : LinkNo) (held : Bool) (d : Device) : Device :=
  if held then d.glkUpd l (fun x => { x with hold := satInc 32 x.hold }) else d

/-- R299: the content of frame `f` of a link that is UP. -/
def upFrame (l : LinkNo) (f now : Nat) (c : Core) : Core :=
  match urgentFrame l f c.dev with
  | some d => { c with dev := d }
  | none =>
    let due := (c.dev.glw.at l).lastEcho + (c.dev.glk.at l).echoInt
    if due + 8 ≤ f then c.mapDev (sendEcho l f)
    else
      let p := planFrame l f now c.dev
      if !p.cmds.isEmpty then { c with dev := holdCount l p.held (sendEdges l f p) }
      else
        let c := c.mapDev (holdCount l p.held)
        if due ≤ f then c.mapDev (sendEcho l f)
        else
          match txTake l now 64 c with
          | (some m, c) => c.mapDev (sendFrame l 3 f m)
          | (none, c) => c.mapDev (sendFrame l 0 f (edgePay []))

/-- R279, R280, R292: frame `f` of link `l` starts. -/
def linkFrame (l : LinkNo) (f now : Nat) (c : Core) : Core :=
  let x := c.dev.glk.at l
  match x.st with
  | .off | .lost => c
  | .train => c.mapDev (sendFrame l 4 f (padPay (x.lep :: bytesBE 4 f)))
  | .align => c.mapDev (if f % 4 = 0 then sendEcho l f else sendFrame l 0 f (edgePay []))
  | .up => upFrame l f now c

/-- R280: at boundary E_f, the content of frame `f` is fixed, once. -/
def frameTransmit (l : LinkNo) (now : Nat) (c : Core) : Core :=
  if now % frameTk = 0 ∧ (c.dev.glw.at l).nextF ≤ now / frameTk ∧ c.dev.pwr.link = .on then
    linkFrame l (now / frameTk) now c
  else c

/-- R303: a keyed message is sent again, or given up after three repeats. -/
def configRetry (l : LinkNo) (now : Nat) (d : Device) : Device :=
  let x := d.glk.at l
  match x.kmsg with
  | some m =>
    match m.sent with
    | some f =>
      if !m.due ∧ (f + 64) * frameTk ≤ now then
        if x.ktry < 3 then d.glkUpd l (fun x => { x with ktry := x.ktry + 1, kmsg := some { m with due := true } })
        else raiseLink l 0x04 0x15 m.seq.toNat now (d.glkUpd l (fun x => { x with kmsg := none }))
      else d
    | none => d
  | none => d

/-- R303: LINKCFG's message is queued with the next keyed MSEQ. -/
def queueKeyed (l : LinkNo) (ty : Byte) (body : Tab Byte 10) (d : Device) : Device :=
  d.glkUpd l (fun x =>
    let q : Byte := if x.kseq.toNat < 0x80 ∨ x.kseq = 0xFF then 0x80 else x.kseq + 1
    { x with kseq := q, ktry := 0, kmsg := some ⟨ty, body, q, none, true⟩ })

/-! ## Upstream frames (R284, R288 to R296, R301, R302) -/

/-- R292: three bad frames in a row, in ALIGN or UP, lose the link. -/
def countBad (l : LinkNo) (now : Nat) (d : Device) : Device :=
  let d := d.glwUpd l (fun w => { w with syncs := [], badRun := w.badRun + 1 })
  match (d.glk.at l).st with
  | .align | .up => if 3 ≤ (d.glw.at l).badRun then linkLost l 1 now d else d
  | _ => d

/-- R284, R292, R309: a bad or missing upstream frame. -/
def badFrame (l : LinkNo) (why : BadFrame) (now : Nat) (d : Device) : Device :=
  let bump : Fin 4 → Device := fun i => d.glkUpd l (fun x => { x with err := x.err.upd i (satInc 8) })
  match (d.glk.at l).st with
  | .off | .lost => d
  | st =>
    match why with
    | .crc => countBad l now (bump 0)
    | .code => countBad l now (bump 1)
    | .missing => countBad l now (bump 2)
    | .kind => countBad l now d
    | .epoch => if st = .train then countBad l now d else linkLost l 4 now d

/-- R284: the downstream frame that an upstream comma stamped `a` is paired with, if it comes at the expected
instant within 16 tk. -/
def pairedFrame (x : Link) (a : Nat) : Option Nat :=
  let v : Int := (a : Int) - 2 * x.delay - x.turn
  let g := (v + 2560) / 5120
  if 0 ≤ g ∧ (v - g * 5120).natAbs ≤ 16 then some g.toNat else none

/-- R284, R289, R292: an upstream frame of kind `kind` other than SYNC. `k` is what a good frame paired with frame
`g` does; in TRAIN the pairing is not known. -/
def goodFrame (l : LinkNo) (kind : Nat) (hdr : Byte) (a now : Nat) (k : Option Nat → Core → Core) (c : Core) : Core :=
  let x := c.dev.glk.at l
  let lepOk := fld hdr 1 0 == fld x.lep 1 0
  if fld hdr 7 5 ≠ kind then c
  else
    match x.st with
    | .off | .lost => c
    | .train =>
      if lepOk then k none (c.mapDev (fun d => d.glwUpd l (fun w => { w with syncs := [] })))
      else c.mapDev (badFrame l .epoch now)
    | _ =>
      match pairedFrame x a with
      | none => c.mapDev (badFrame l .missing now)
      | some g =>
        if lepOk then k (some g) (c.mapDev (fun d => d.glwUpd l (fun w => { w with badRun := 0 })))
        else c.mapDev (badFrame l .epoch now)

/-- R294: an ECHO frame sent and paired with `g` or an earlier frame is no longer awaited. -/
def echoPassed (l : LinkNo) (g : Option Nat) (d : Device) : Device :=
  match g with
  | some g => d.glwUpd l (fun w => { w with awaiting := w.awaiting.filter (fun f => decide (g < f)) })
  | none => d

/-- A frame of the pairing `g` other than ECHO: the awaited ECHO frames up to `g` pass; `k` acts on the blocks. -/
def passing (l : LinkNo) (k : Option Nat → Device → Device) (g : Option Nat) (c : Core) : Core :=
  c.mapDev (fun d => k g (echoPassed l g d))

/-- R301: the machine time of a stamp record, with the frame's comma stamped `a`. -/
def stampTime (x : Link) (a ref o : Nat) : Option Nat :=
  let top : Int := ((a : Int) - 2 * x.delay) / 5120
  let f : Int := top - (top - ref) % 8
  if 0 ≤ f then some (f * 5120 + x.delay + o).toNat else none

/-- Byte `i` of a payload, as a number. -/
def payByte (p : Tab Byte 12) (i : Nat) : Nat := (p.at (Fin.ofNat 12 i)).toNat

/-- R290, R302: capture record `r` of a CAPT frame. -/
def captRecord (l : LinkNo) (p : Tab Byte 12) (a now r : Nat) (d : Device) : Device :=
  let b := payByte p (3 * r)
  let o := 256 * payByte p (3 * r + 1) + payByte p (3 * r + 2)
  if b / 8 % 2 = 0 then d
  else if (d.glk.at l).st ≠ .up then raiseLink l 0x04 0x11 0 now d
  else
    match stampTime (d.glk.at l) a (b % 8) o with
    | some t => captureEdge (slotChan l (Fin.ofNat 8 (b / 32))) (b / 16 % 2 == 1) t now d
    | none => d

/-- R302: a CAPT frame. -/
def upCapt (l : LinkNo) (p : Tab Byte 12) (a now : Nat) (d : Device) : Device :=
  [0, 1, 2, 3].foldl (fun d r => captRecord l p a now r d) d

/-- R302: a FIX frame. -/
def upFix (l : LinkNo) (p : Tab Byte 12) (a now : Nat) (d : Device) : Device :=
  let b := payByte p 0
  let z := signedOf 48 ((nats 6).foldl (fun n i => 256 * n + payByte p (3 + i)) 0)
  if b / 8 % 2 = 0 then d
  else if (d.glk.at l).st ≠ .up then raiseLink l 0x04 0x11 0 now d
  else
    match stampTime (d.glk.at l) a (b % 8) (256 * payByte p 1 + payByte p 2) with
    | some t => linkFix (8 * l.val + b / 32) z t now d
    | none => d

/-- R291, R302, R303: a STATUS frame. -/
def upStatus (l : LinkNo) (p : Tab Byte 12) (now : Nat) (d : Device) : Device :=
  let x := d.glk.at l
  if x.st ≠ .up then d
  else
    let w : Nat → Word := fun i =>
      w32 (payByte p (4 * i) * 16777216 + payByte p (4 * i + 1) * 65536 + payByte p (4 * i + 2) * 256 + payByte p (4 * i + 3))
    let f : BitVec 5 := BitVec.ofNat 5 (payByte p 0)
    let fresh := fld (f &&& ~~~ x.epflag) 4 1 ≠ 0
    let ack := p.at 1
    let d := d.glkUpd l (fun x => { x with
      epst := #v[w 0, w 1, w 2], epflag := x.epflag ||| f, kack := ack
      kmsg := match x.kmsg with
        | some m => if m.sent.isSome ∧ m.seq = ack then none else some m
        | none => none })
    if fresh then raiseLink l 0x04 0x13 (payByte p 0) now d else d

/-- R302, R305: a good USER frame, in TRAIN, ALIGN or UP. -/
def upUser (l : LinkNo) (p : Tab Byte 12) (a : Nat) (c : Core) : Core :=
  let x := c.dev.glk.at l
  let w : Nat → Nat := fun i =>
    payByte p (4 * i) * 16777216 + payByte p (4 * i + 1) * 65536 + payByte p (4 * i + 2) * 256 + payByte p (4 * i + 3)
  let at' := l.val * 0x800 + 0x400 + 16 * x.rxIdx
  let r := [0, 1, 2].foldl (fun r i => r.lbufWrite 4 (at' + 4 * i) (w i)) c.ram
  let d := c.dev.glkUpd l (fun x => { x with
    rxIdx := (x.rxIdx + 1) % 64, rxLap := if x.rxIdx = 63 then (x.rxLap + 1) % 67108864 else x.rxLap })
  let lines := if x.rxreq then
      d.xfr.lines.map (fun q => if q.kind = 4 ∧ q.idx.toNat = l.val then { q with cnt := satInc 8 q.cnt } else q)
    else d.xfr.lines
  { ram := r.lbufWrite 4 (at' + 12) (a % 4294967296), dev := { d with xfr := { d.xfr with lines := lines } } }

/-- R294, R295, R309: a rejected echo result; four in a row in UP lose the link. -/
def echoReject (l : LinkNo) (now : Nat) (d : Device) : Device :=
  let d := d.glkUpd l (fun x => { x with err := x.err.upd 3 (satInc 8) })
  if (d.glk.at l).st = .up then
    let d := d.glwUpd l (fun w => { w with rejRun := w.rejRun + 1 })
    if 4 ≤ (d.glw.at l).rejRun then linkLost l 2 now d else d
  else d

/-- The greatest less the least of a list. -/
def spread (q : List Int) : Int :=
  match q with
  | [] => 0
  | a :: l => l.foldl max a - l.foldl min a

/-- R292, R295: an echo result in ALIGN; eight of them may bring the link UP. -/
def alignEcho (l : LinkNo) (m : Int) (now : Nat) (d : Device) : Device :=
  let q := (d.glw.at l).echos ++ [m]
  if q.length < 8 then d.glwUpd l (fun w => { w with echos := q })
  else
    let d := d.glwUpd l (fun w => { w with echos := [] })
    if spread q ≤ 16 * (d.glk.at l).echoWin then
      linkGo l .up now (dqChange l (rnd q.sum 8) now d)
    else d

/-- R294, R295: an ECHO frame with identity `id`, paired with frame `g`. -/
def upEcho (l : LinkNo) (id a now : Nat) (g : Option Nat) (d : Device) : Device :=
  match g with
  | none => d
  | some f =>
    if (d.glw.at l).awaiting.contains f && id == f % 256 then
      let d := echoPassed l g d
      let rtt : Int := (a : Int) - f * frameTk
      let d := d.glkUpd l (fun x => { x with rtt := rtt })
      let x := d.glk.at l
      let m := x.echoM rtt
      if x.st = .up then
        if 16 * x.echoWin < (m - x.dq).natAbs then echoReject l now d
        else
          (dqChange l (x.dq + (m - x.dq) / 8) now d).glwUpd l (fun w => { w with rejRun := 0 })
      else alignEcho l m now d
    else echoReject l now (echoPassed l g d)

/-- R296: the frame paired with an upstream SYNC of TRAIN. -/
def syncFrame (s : SyncSeen) : Option Nat :=
  let g := (s.stamp - s.turn) / 5120
  if s.turn ≤ s.stamp ∧ g % 8 = s.seq.toNat then some g else none

/-- R296: twice the delay that a SYNC gives. -/
def syncDelay (s : SyncSeen) : Option Int := (syncFrame s).map (fun g => ((s.stamp - s.turn : Nat) : Int) - g * 5120)

/-- R296: the values of eight SYNC frames, if every one resolves. -/
def syncDelays : List SyncSeen → Option (List Int)
  | [] => some []
  | s :: q =>
    match syncDelay s, syncDelays q with
    | some v, some r => some (v :: r)
    | _, _ => none

/-- R292, R296: eight SYNC frames bring the link to ALIGN, if their values agree. -/
def trainDone (l : LinkNo) (q : List SyncSeen) (now : Nat) (d : Device) : Device :=
  match syncDelays q with
  | some v =>
    if spread v ≤ 4 * (d.glk.at l).echoWin then
      let d := linkGo l .align now (dqChange l (16 * rnd v.sum 16) now d)
      d.glwUpd l (fun w => { w with syncs := [], echos := [], awaiting := [], badRun := 0 })
    else d.glwUpd l (fun w => { w with syncs := [] })
  | none => d.glwUpd l (fun w => { w with syncs := [] })

/-- R289, R292, R302: an upstream SYNC frame. -/
def upSync (l : LinkNo) (hdr : Byte) (p : Tab Byte 12) (a now : Nat) (d : Device) : Device :=
  let x := d.glk.at l
  if fld hdr 7 5 ≠ 4 then d
  else
    match x.st with
    | .off | .lost => d
    | .align | .up =>
      match pairedFrame x a with
      | some _ => linkLost l 4 now d
      | none => badFrame l .missing now d
    | .train =>
      let turn := 256 * payByte p 8 + payByte p 9
      let d := d.glkUpd l (fun x => { x with
        epid := w32 (256 * payByte p 0 + payByte p 1 + 65536 * (256 * payByte p 2 + payByte p 3))
        epcap := w32 (payByte p 4 + 256 * payByte p 5 + 65536 * payByte p 6), turn := turn })
      if payByte p 7 ≠ x.lep.toNat ∨ turn < 6400 ∨ 40960 < turn then d.glwUpd l (fun w => { w with syncs := [] })
      else
        let s : SyncSeen := ⟨a, BitVec.ofNat 3 (fld hdr 4 2), turn⟩
        let q := ((d.glw.at l).syncs.filter (fun y => y.turn == turn)) ++ [s]
        if q.length < 8 then d.glwUpd l (fun w => { w with syncs := q }) else trainDone l q now d

/-- R280, R292, R303: what of the links falls due at a boundary. -/
def linkStep (l : LinkNo) (now : Nat) (c : Core) : Core :=
  frameTransmit l now (c.mapDev (fun d => configRetry l now (trainTmo l now (quietEnd l now d))))

/-! ## The commands -/

def execLinkEnable (l : LinkNo) (s : State) : Host.Outcome State Fault Refusal := s.runDev (linkEnable l)
def execLinkDisable (l : LinkNo) (s : State) : Host.Outcome State Fault Refusal := s.runDev (linkDisable l)
def execRetrain (l : LinkNo) (s : State) : Host.Outcome State Fault Refusal := s.runDev (retrain l)
def execFrameTransmit (l : LinkNo) (s : State) : Host.Outcome State Fault Refusal := s.run (frameTransmit l)
def execUpstreamStatus (l : LinkNo) (hdr : Byte) (pay : Tab Byte 12) (stamp : DWord) (s : State) :
    Host.Outcome State Fault Refusal :=
  s.run (fun now => goodFrame l 0 hdr stamp.toNat now (passing l (fun _ => upStatus l pay now)))
def execUpstreamCapt (l : LinkNo) (hdr : Byte) (pay : Tab Byte 12) (stamp : DWord) (s : State) :
    Host.Outcome State Fault Refusal :=
  s.run (fun now => goodFrame l 1 hdr stamp.toNat now (passing l (fun _ => upCapt l pay stamp.toNat now)))
def execUpstreamFix (l : LinkNo) (hdr : Byte) (pay : Tab Byte 12) (stamp : DWord) (s : State) :
    Host.Outcome State Fault Refusal :=
  s.run (fun now => goodFrame l 2 hdr stamp.toNat now (passing l (fun _ => upFix l pay stamp.toNat now)))
def execUpstreamEcho (l : LinkNo) (hdr : Byte) (pay : Tab Byte 12) (stamp : DWord) (s : State) :
    Host.Outcome State Fault Refusal :=
  s.run (fun now => goodFrame l 3 hdr stamp.toNat now
    (fun g c => c.mapDev (upEcho l (payByte pay 0) stamp.toNat now g)))
def execUpstreamSync (l : LinkNo) (hdr : Byte) (pay : Tab Byte 12) (stamp : DWord) (s : State) :
    Host.Outcome State Fault Refusal := s.runDev (upSync l hdr pay stamp.toNat)
def execUpstreamUser (l : LinkNo) (hdr : Byte) (pay : Tab Byte 12) (stamp : DWord) (s : State) :
    Host.Outcome State Fault Refusal :=
  s.run (fun now => goodFrame l 5 hdr stamp.toNat now
    (fun g c => upUser l pay stamp.toNat (c.mapDev (echoPassed l g))))
def execUpstreamBadFrame (l : LinkNo) (why : BadFrame) (s : State) : Host.Outcome State Fault Refusal :=
  s.runDev (badFrame l why)
def execQuietPeriodEnd (l : LinkNo) (s : State) : Host.Outcome State Fault Refusal := s.runDev (quietEnd l)
def execTrainTmo (l : LinkNo) (s : State) : Host.Outcome State Fault Refusal := s.runDev (trainTmo l)
def execConfigRetry (l : LinkNo) (s : State) : Host.Outcome State Fault Refusal := s.runDev (configRetry l)

end Sys2Proof.Machine
end

