-- ==== Sys2Proof/Machine/Lookouts.lean ====
section
/-! DEFINITION. Lookout comparators and the sounding converter (chapter 12), and train period starts (R314). -/

namespace Sys2Proof.Machine

open Sys2Proof

/-! ## Fields of LKO_CFG (R328) -/

def lkEn (w : Word) : Bool := bitOf w 0
def lkPol (w : Word) : Bool := bitOf w 1
def lkClrper (w : Word) : Bool := bitOf w 6
def lkRampEn (w : Word) : Bool := bitOf w 7
/-- R328: CFG.CH, a pin channel. -/
def lkCh (w : Word) : Chan := Fin.ofNat 512 (fld w 15 8)
def lkEvSet (w : Word) : Bool := bitOf w 16
def lkEvClr (w : Word) : Bool := bitOf w 17
def lkEvInband (w : Word) : Bool := bitOf w 18
/-- R311: HYS in millivolts. -/
def lkHysMv (w : Word) : Nat := match fld w 3 2 with | 0 => 0 | 1 => 10 | 2 => 20 | _ => 40
/-- R312: N. -/
def lkN (w : Word) : Nat := match fld w 5 4 with | 0 => 3 | 1 => 5 | _ => 7

/-- R327: a record of lookout `k`. -/
def raiseLk (k : LkNo) (kind cause arg now : Nat) (d : Device) : Device := raise 3 (160 + k.val) kind cause arg now d

/-! ## The ramp (R314) -/

/-- R314: the ramp code `n` base periods after a period start. -/
def rampAt (rdly slope rmax n : Nat) : Nat := if n < rdly then 0 else min rmax ((n - rdly) * slope / 65536)

/-- R314: S(k) with S(k) ≤ `now` < S(k + 1) of a channel; none while it runs no train. -/
def periodAt (c : Chan) (now : Nat) (d : Device) : Option Nat :=
  let t := (d.chn.at c).train
  match t.cur with
  | some s => if s ≤ now then some s else t.prev
  | none => none

/-- R314: base periods since the current period start of a channel; none while it runs no train. -/
def periodsIn (c : Chan) (now : Nat) (d : Device) : Option Nat := (periodAt c now d).map (fun s => (now - s) / 32)

/-- R314: the ramp of the lookout runs at `now`, and how many base periods into its period. -/
def rampOn (l : Lookout) (now : Nat) (d : Device) : Option Nat :=
  if lkRampEn l.cfgE then periodsIn (lkCh l.cfgE) now d else none

/-- R314: the ramp code of a lookout at `now`. -/
def rampCode (l : Lookout) (now : Nat) (d : Device) : Nat :=
  match rampOn l now d with
  | some n => rampAt (fld l.rdlyE 15 0) (fld l.rampE 15 0) (fld l.rampE 25 16) n
  | none => 0

/-! ## The comparator (R310, R311) -/

/-- R310: vth above LKREF in microvolts. -/
def vthUv (c r : Nat) : Int := ((c - r : Nat) : Int) * 1600

/-- R311: the raw output for an input `uv`. -/
def rawNext (pol : Bool) (hysUv uv vth : Int) (raw : Bool) : Bool :=
  let above := if pol then vth - uv else uv - vth   -- distance to the trip side
  if 0 < above then true else if above < -hysUv ∧ above ≠ 0 then false else raw

/-- The raw output of an enabled lookout with its ramp at `r`. -/
def Lookout.rawAt (l : Lookout) (r : Nat) : Bool :=
  rawNext (lkPol l.cfgE) (lkHysMv l.cfgE * 1000 : Nat) l.uv (vthUv (fld l.dacE 9 0) r) l.raw

/-- R312: the majority of the last N samples is tripped. -/
def majority (n : Nat) (l : List Bool) : Bool := decide (n < 2 * ((l.take n).filter id).length)

/-! ## The latch (R315 to R319) -/

/-- R315, R316, R476: the comparator at a boundary, `on` when ANA is on: ramp code, raw output, samples and filtered
output. -/
def sampleLk (on : Bool) (r : Nat) (l : Lookout) : Lookout :=
  if lkEn l.cfgE && on then
    let raw := l.rawAt r
    let s := (raw :: l.samples).take 7
    { l with rcode := r, raw := raw, samples := s, fout := majority (lkN l.cfgE) s }
  else { l with rcode := r, fout := true }

/-- R316, R319: the latch of lookout `k` changes from clear to set: count, SET, safe group and HALT class. -/
def latchSets (k : LkNo) (now : Nat) (d : Device) : Device :=
  let l := d.lko.at k
  let d := d.lkoUpd k (fun l => { l with latch := true, cnt := satInc 32 l.cnt })
  let d := if lkEvSet l.cfgE then raiseLk k 0x05 0x01 0 now d else d
  let g := fld l.safe 3 0
  let d := enterGroup 3 g (d.safeGroup g none) now d
  if bitOf l.safe 4 then setHFault 3 1 (512 + k.val) now d else d

/-- R317: the attempted clears of lookout `k` at this boundary; host and period clears are one attempt. -/
def attemptClear (k : LkNo) (now : Nat) (d : Device) : Device :=
  let l := d.lko.at k
  if l.clrHost || l.clrPer then
    let arg := if l.clrHost then 0 else 1
    let d := d.lkoUpd k (fun l => { l with clrHost := false, clrPer := false })
    if l.fout then
      let d := d.lkoUpd k (fun l => { l with clrref := true })
      if l.latch && lkEvClr l.cfgE then raiseLk k 0x05 0x03 arg now d else d
    else if l.latch then
      let d := d.lkoUpd k (fun l => { l with latch := false, inband := false })
      if lkEvClr l.cfgE then raiseLk k 0x05 0x02 arg now d else d
    else d
  else d

/-- R313: the written values take effect for the next boundary; EN 0 → 1 starts with latch, raw output and
samples tripped, and EN 1 → 0 sets the latch quietly (R315). -/
def adoptCfg (now : Nat) (l : Lookout) : Lookout :=
  let changed := l.dacE != l.dac || l.rampE != l.ramp || l.rdlyE != l.rdly ||
    lkRampEn l.cfgE != lkRampEn l.cfg || lkCh l.cfgE != lkCh l.cfg
  let l' := { l with
    cfgE := l.cfg, dacE := l.dac, rampE := l.ramp, rdlyE := l.rdly
    inband := l.inband && lkHysMv l.cfg != 0, chgAt := if changed then some now else l.chgAt }
  if lkEn l.cfg != lkEn l.cfgE then
    { l' with latch := true, fout := true, raw := true, samples := List.replicate 7 true }
  else l'

/-- R312, R313, R316, R317: lookout `k` is evaluated at boundary `now`. -/
def evalLk (k : LkNo) (now : Nat) (d : Device) : Device :=
  let d := d.lkoUpd k (sampleLk (d.pwr.ana == .on) (rampCode (d.lko.at k) now d))
  let l := d.lko.at k
  let d := if l.fout && !l.latch then latchSets k now d else d
  attemptClear k now d

/-- R313: the evaluation of every lookout at boundary `now`. -/
def evalLookouts (now : Nat) (d : Device) : Device := forAll (fun k d => evalLk k now d) d

/-- R313: what was written at the boundary takes effect at the next one, `now`. -/
def adoptLookouts (now : Nat) (d : Device) : Device := { d with lko := d.lko.map (adoptCfg now) }

/-- R311: the input of a lookout moves; the raw output follows. -/
def inputCrossing (k : LkNo) (uv : Int) (now : Nat) (d : Device) : Device :=
  let d := d.lkoUpd k (fun l => { l with uv := uv })
  let l := d.lko.at k
  if lkEn l.cfgE && d.pwr.ana == .on then d.lkoUpd k (fun l => { l with raw := l.rawAt (rampCode l now d) }) else d

/-- R315, R432: the ANA domain has powered on: every latch is set, raw outputs and samples tripped. -/
def lookoutsTripped (d : Device) : Device :=
  { d with lko := d.lko.map (fun l => { l with
      latch := true, fout := true, raw := true, samples := List.replicate 7 true }) }

/-- R317: the host attempts a clear of lookout `k`. -/
def hostClear (k : LkNo) (d : Device) : Device := d.lkoUpd k (fun l => { l with clrHost := true })

/-- R317: LKO_CLRM attempts a clear of each lookout named. -/
def clearMask (m : Word) (d : Device) : Device :=
  ((fins 32).filter (fun k => bitOf m k.val)).foldl (fun d k => hostClear k d) d

/-- R313, R315: a written EN, and nothing else that was written, takes effect. -/
def adoptEn (en : Bool) (l : Lookout) : Lookout :=
  let l' := { l with cfg := setFld l.cfg 0 0 en.toNat, cfgE := setFld l.cfgE 0 0 en.toNat }
  if lkEn l.cfgE != en then { l' with latch := true, fout := true, raw := true, samples := List.replicate 7 true } else l'

/-- R315: LKO_CFG.EN goes from 0 to 1, at the boundary at which the write takes effect (DEDUCED, log 80). -/
def lkEnable (k : LkNo) (d : Device) : Device := d.lkoUpd k (adoptEn true)
/-- R315: LKO_CFG.EN goes from 1 to 0, at the boundary at which the write takes effect (DEDUCED, log 80). -/
def lkDisable (k : LkNo) (d : Device) : Device := d.lkoUpd k (adoptEn false)

/-! ## Period starts (R314, R317) -/

/-- R101, R317: the next committed period start falls at or before the base period that begins at `now`: its boundary is the
one that begins the base period of S(k). -/
def periodStartDue (c : Chan) (now : Nat) (d : Device) : Bool :=
  match (d.chn.at c).train.starts with
  | s :: _ => decide (s < now + 32)
  | [] => false

/-- R314, R317: a period start of channel `c` arrives: clear-on-period is attempted, and the ramp resets at the first boundary
not before it. -/
def periodStart (c : Chan) (now : Nat) (d : Device) : Device :=
  if periodStartDue c now d then
    let d := d.chnUpd c (fun h =>
      match h.train.starts with
      | s :: l => { h with train := { h.train with cur := some s, prev := h.train.cur, starts := l } }
      | [] => h)
    forAll (fun k d =>
      let l := d.lko.at k
      if lkClrper l.cfgE && lkCh l.cfgE == c then d.lkoUpd k (fun l => { l with clrPer := true }) else d) d
  else d

/-- R314: the last period of a train that has stopped is over. -/
def trainOver (c : Chan) (now : Nat) (d : Device) : Device :=
  let t := (d.chn.at c).train
  if t.cur.isSome && t.starts.isEmpty && decide (t.ends ≤ now) then
    d.chnUpd c (fun h => { h with train := { h.train with cur := none, prev := none } })
  else d

/-! ## Sounding converter (R321 to R326) -/

/-- R329: SND_CTL fields. -/
def Sounding.en (s : Sounding) : Bool := bitOf s.ctl 0
def Sounding.bg (s : Sounding) : Bool := bitOf s.ctl 1
def Sounding.chk (s : Sounding) : Bool := bitOf s.ctl 2
def Sounding.fifoEn (s : Sounding) : Bool := bitOf s.ctl 3
def Sounding.xreq (s : Sounding) : Bool := bitOf s.ctl 4

def Device.sndUpd (f : Sounding → Sounding) (d : Device) : Device := { d with snd := f d.snd }

/-- R329: a write of SND_CTL. Powering the converter clears its results and starts a new pass. -/
def writeSndCtl (v : Word) (d : Device) : Device :=
  d.sndUpd (fun s =>
    let n := v &&& 0x1F
    let s' := { s with ctl := n }
    if bitOf n 0 && !s.en then { s' with data := Tab.all none, wout := 0, pos := 0, endNext := false, waitAt := none }
    else if !bitOf n 0 then { s' with conv := none, waitAt := none }
    else s')

/-- R323: input `i` is enabled in SND_BGEN. -/
def bgOn (s : Sounding) (i : Nat) : Bool := bitOf (s.bgen.at (Fin.ofNat 3 (i / 32))) (i % 32)

/-- R323: the next input of the pass at or after `pos`, then from 0 on. -/
def nextInput (s : Sounding) : Option Nat :=
  match ((nats 80).filter (fun i => s.pos ≤ i && bgOn s i)) with
  | i :: _ => some i
  | [] => (nats 80).find? (bgOn s)

/-- R323: the lookout whose threshold node is input `i`. -/
def nodeOf (i : Nat) : Option LkNo := if 32 ≤ i ∧ i < 64 then some (Fin.ofNat 32 (i - 32)) else none

/-- R323: the windows of a ramped threshold node: the base sample while the ramp is blanked; the end sample where
the ramp first reaches RMAX or, if it does not, at the last boundary of the period. -/
def windowOpen (l : Lookout) (endS : Bool) (s now : Nat) (d : Device) : Bool :=
  let n := (now - s) / 32
  let rdly := fld l.rdlyE 15 0
  let slope := fld l.rampE 15 0
  let rmax := fld l.rampE 25 16
  if !endS then decide (now ≤ s + 32 * rdly)
  else
    let r := rampAt rdly slope rmax n
    let first := n = 0 || rampAt rdly slope rmax (n - 1) < rmax
    let last := match (d.chn.at (lkCh l.cfgE)).train.starts with
      | s :: _ => floor32 s == now + 32
      | [] => (d.chn.at (lkCh l.cfgE)).train.ends == now + 32
    (r == rmax && first) || (decide (r < rmax) && last)

/-- R323: whether the background item `i` is a synchronised sample, and whether its window is open. -/
def itemWindow (i : Nat) (now : Nat) (d : Device) : Option Bool :=
  match nodeOf i with
  | some k =>
    let l := d.lko.at k
    match (if lkRampEn l.cfgE then periodAt (lkCh l.cfgE) now d else none) with
    | some s => some (windowOpen l d.snd.endNext s now d)
    | none => none
  | none => none

/-- R324: the expected node value at H, or none where the result is not checked for a recent change. -/
def expected (i : Nat) (now : Nat) (d : Device) : Option Nat :=
  match nodeOf i with
  | some k =>
    let l := d.lko.at k
    let recent := match l.chgAt with | some t => decide (now ≤ t + 16000) | none => false
    if recent then none else some (fld l.dacE 9 0 - rampCode l now d)
  | none => none

/-- R322: a conversion of input `i` begins. -/
def startConv (i : Nat) (host endS : Bool) (now : Nat) (d : Device) : Device :=
  d.sndUpd (fun s => { s with conv := some ⟨i, now, host, endS, expected i now d⟩ })

/-- R323: the pass moves on after item `i`; a ramped node's base sample is followed by its end sample. -/
def passOn (i : Nat) (sync : Bool) (s : Sounding) : Sounding :=
  if sync && !s.endNext then { s with pos := i, endNext := true, waitAt := none }
  else { s with pos := (i + 1) % 80, endNext := false, waitAt := none }

/-- R323, R445: background passes run. -/
def bgRuns (d : Device) : Bool := d.snd.bg && decide (d.thm.stage < 3)

/-- R323: the pass turns to input `i`; an end sample or a window that another input waited for goes. -/
def Sounding.turnTo (i : Nat) (s : Sounding) : Sounding :=
  if s.pos = i then s else { s with pos := i, endNext := false, waitAt := none }

/-- R322, R323: the idle converter starts its next conversion, or waits for a window. -/
def convStart (now : Nat) (d : Device) : Device :=
  let s := d.snd
  if !s.en || s.conv.isSome || d.pwr.ana != .on then d
  else if s.reqGo then
    startConv s.reqMux.toNat true false now (d.sndUpd (fun s => { s with reqGo := false }))
  else if bgRuns d then
    match nextInput s with
    | none => d
    | some i =>
      let d := d.sndUpd (Sounding.turnTo i)
      match itemWindow i now d with
      | none => startConv i false false now (d.sndUpd (fun s => passOn i false { s with endNext := false }))
      | some true => startConv i false d.snd.endNext now (d.sndUpd (passOn i true))
      | some false => d.sndUpd (fun s => { s with pos := i, waitAt := some (s.waitAt.getD now) })
  else d

/-- R323: a sample that has found no window within 1 ms is skipped. -/
def skipDue (now : Nat) (d : Device) : Bool :=
  match d.snd.waitAt with
  | some t => decide (t + 8000000 ≤ now)
  | none => false

/-- R323: the waiting sample is skipped and counted. -/
def sampleSkip (now : Nat) (d : Device) : Device :=
  if skipDue now d && bgOn d.snd d.snd.pos then d.sndUpd (fun s => passOn s.pos true { s with skip := satInc 8 s.skip }) else d

/-- R324: the threshold readback check. -/
def checkNode (cv : AdcConv) (val : Nat) (now : Nat) (d : Device) : Device :=
  match nodeOf cv.mux, cv.e, d.snd.data.at (77 : Fin 80) with
  | some k, some e, some r =>
    if d.snd.chk && decide (64 < (5 * ((val : Int) - r) - 16 * e).natAbs) then
      let d := d.lkoUpd k (fun l => { l with chkerr := true })
      let d := d.sndUpd (fun s => { s with chkcnt := satInc 32 s.chkcnt })
      raiseLk k 0x04 0x10 cv.endS.toNat now d
    else d
  | _, _, _ => d

/-- R325: a background result of inputs 64 to 79 against its limits. -/
def checkWindow (mux val : Nat) (now : Nat) (d : Device) : Device :=
  if mux < 64 then d
  else
    let i := mux - 64
    let w := d.snd.win.at (Fin.ofNat 16 i)
    let lo := fld w 11 0
    let hi := fld w 27 16
    let out := !(lo == 0 && hi == 0) && (decide (val < lo) || decide (hi < val))
    let was := bitOf d.snd.wout i
    let d := d.sndUpd (fun s => { s with wout := setFld s.wout i i out.toNat })
    if out && !was then raise 3 251 0x0C 0x01 mux now d else d

/-- R320: the in-band comparison of the latest samples of lookout `k`. -/
def checkInband (k : LkNo) (now : Nat) (d : Device) : Device :=
  match d.snd.data.at (Fin.ofNat 80 k.val), d.snd.data.at (Fin.ofNat 80 (32 + k.val)) with
  | some i, some t =>
    let l := d.lko.at k
    let hys := lkHysMv l.cfgE
    let dist : Int := if lkPol l.cfgE then (i : Int) - t else (t : Int) - i
    let v := l.latch && hys != 0 && decide (0 ≤ dist) && decide (dist ≤ (2 * hys : Nat))
    let d := d.lkoUpd k (fun l => { l with inband := v })
    if v && !l.inband && lkEvInband l.cfgE then raiseLk k 0x04 0x11 0 now d else d
  | _, _ => d

/-- R326: a completed conversion enters the FIFO. -/
def pushFifo (val mux : Nat) (now : Nat) (d : Device) : Device :=
  if !d.snd.fifoEn then d
  else if 16 ≤ d.snd.fifo.length then raise 3 251 0x0C 0x02 0 now (d.sndUpd (fun s => { s with fovf := true }))
  else d.sndUpd (fun s => { s with fifo := s.fifo ++ [(val, mux)] })

/-- R322 to R326: the conversion in progress completes with code `val`. -/
def convComplete (val : Nat) (now : Nat) (d : Device) : Device :=
  match d.snd.conv with
  | none => d
  | some cv =>
    if now < cv.hold + 4000 then d
    else
      let d := d.sndUpd (fun s => { s with
        conv := none
        data := if cv.mux < 80 then s.data.put (Fin.ofNat 80 cv.mux) (some val) else s.data
        resVal := if cv.host then val else s.resVal, resMux := if cv.host then cv.mux else s.resMux
        reqDone := s.reqDone || (cv.host && !s.reqGo) })
      let d := checkNode cv val now d
      let d := if cv.host then d else
        let d := checkWindow cv.mux val now d
        if cv.mux < 64 then checkInband (Fin.ofNat 32 cv.mux) now d else d
      pushFifo val cv.mux now d

/-- R322: SND_REQ.GO. -/
def hostConversion (mux : BitVec 7) (d : Device) : Device :=
  d.sndUpd (fun s => { s with reqMux := mux, reqGo := true, reqDone := false })

/-- R326: a read of SND_FIFO returns the head and pops it. -/
def sndFifoRead (d : Device) : Device :=
  let v : Word := match d.snd.fifo with
    | (val, mux) :: _ => w32 (val % 4096 + 65536 * (mux % 128) + 2147483648)
    | [] => 0
  { d with snd := { d.snd with fifo := d.snd.fifo.drop 1 }, hps := { d.hps with dout := v } }

/-! ## The commands -/

def execLookoutInputCrossing (k : LkNo) (microvolts : Int) (s : State) : Host.Outcome State Fault Refusal :=
  s.runDev (inputCrossing k microvolts)
def execLookoutClear (k : LkNo) (s : State) : Host.Outcome State Fault Refusal :=
  s.runDev (fun _ => hostClear k)
def execClrm (mask : Word) (s : State) : Host.Outcome State Fault Refusal :=
  s.runDev (fun _ => clearMask mask)
def execLookoutEnable (k : LkNo) (s : State) : Host.Outcome State Fault Refusal := s.runDev (fun _ => lkEnable k)
def execLookoutDisable (k : LkNo) (s : State) : Host.Outcome State Fault Refusal := s.runDev (fun _ => lkDisable k)
def execTrainPeriodStart (ch : Chan) (s : State) : Host.Outcome State Fault Refusal := s.runDev (periodStart ch)
def execConversionStart (s : State) : Host.Outcome State Fault Refusal := s.runDev convStart
def execHostConversion (mux : BitVec 7) (s : State) : Host.Outcome State Fault Refusal :=
  s.runDev (fun _ => hostConversion mux)
def execConversionComplete (val : BitVec 12) (s : State) : Host.Outcome State Fault Refusal :=
  s.runDev (convComplete val.toNat)
def execSampleSkip (s : State) : Host.Outcome State Fault Refusal := s.runDev sampleSkip
def execSndFifoRead (s : State) : Host.Outcome State Fault Refusal := s.runDev (fun _ => sndFifoRead)

end Sys2Proof.Machine
end

