-- ==== Sys2Proof/Machine/Transfer.lean ====
section
/-! DEFINITION. The transfer engine (R330 to R357, chapter 13): accesses, descriptors, bursts, requests,
plane units and channel states. -/

namespace Sys2Proof.Machine

open Sys2Proof

/-! ## Ranges (R331, R332) -/

/-- The ranges of R331 that hold memory. -/
inductive Range where
  | bank | alm | prog | lbuf | ctx
  deriving DecidableEq, Repr

/-- R331: the range of a byte address and the offset in it. -/
def rangeOf (a : Nat) : Option (Range × Nat) :=
  if a < 0x200000 then some (.bank, a)
  else if a < 0x240000 then some (.alm, a - 0x200000)
  else if a < 0x260000 then some (.prog, a - 0x240000)
  else if 0x2A0000 ≤ a ∧ a < 0x2B0000 then some (.lbuf, a - 0x2A0000)
  else if 0x400000 ≤ a ∧ a < 0x410000 then some (.ctx, a - 0x400000)
  else none

/-- R331: XC28 to XC31. -/
def xPriv (n : XcNo) : Bool := decide (28 ≤ n.val)

/-- R331: the channel whose context block holds an offset. -/
def ctxChan (o : Nat) : Chan := Fin.ofNat 512 (o / 128)

/-- R331, R332: the channel may read the byte at `a`. -/
def readOk (p : Bool) (d : Device) (a : Nat) : Bool :=
  match rangeOf a with
  | some (.bank, o) => (d.mem.bank.at (bankOf o)).st != .offline
  | some (.alm, _) => p && d.pwr.alm == .on
  | some (.prog, _) => true
  | some (.lbuf, _) => true
  | some (.ctx, o) => p && !(d.chn.at (ctxChan o)).cfg.en
  | none => false

/-- R344: the bytes of the unit of `g` bytes that holds `a` are all among those written. -/
def wholeUnit (g : Nat) (l : List Nat) (a : Nat) : Bool := (nats g).all (fun i => l.contains (a / g * g + i))

/-- R331, R332, R344: the channel may write the byte at `a` in a write of the bytes `l`. -/
def writeOk (p : Bool) (d : Device) (l : List Nat) (a : Nat) : Bool :=
  match rangeOf a with
  | some (.bank, o) => (d.mem.bank.at (bankOf o)).st != .offline
  | some (.alm, o) => p && d.pwr.alm == .on && !entryLocked (o / 16) d && wholeUnit 16 l a
  | some (.prog, _) => p && wholeUnit 4 l a
  | some (.lbuf, _) => true
  | some (.ctx, o) => p && !(d.chn.at (ctxChan o)).cfg.en && wholeUnit 16 l a
  | none => false

/-! ## Bytes -/

/-- The low `n` bytes of a number, least significant first (R330). -/
def leBytes : Nat → Nat → List Byte
  | 0, _ => []
  | n + 1, v => BitVec.ofNat 8 v :: leBytes n (v / 256)

/-- The number that bytes spell, least significant first (R330). -/
def leNat : List Byte → Nat
  | [] => 0
  | b :: l => b.toNat + 256 * leNat l

/-- R331: the 128 bytes of a context block. -/
def Context.bytes (c : Context) : List Byte :=
  c.g.toList.flatMap (fun w => leBytes 4 w.toNat) ++ c.t.toList.flatMap (fun w => leBytes 8 w.toNat) ++
  c.p.toList.flatMap (fun w => leBytes 6 w.toNat) ++ leBytes 4 c.stateWord.toNat ++ leBytes 4 0

/-- The number in `n` bytes from offset `o` of a block. -/
def blockNat (l : List Byte) (o n : Nat) : Nat := leNat ((l.drop o).take n)

/-- R194, R331: the context that 128 bytes spell. -/
def Context.ofBytes (l : List Byte) : Context :=
  let s : Word := w32 (blockNat l 0x78 4)
  { g := Vector.ofFn (fun i => w32 (blockNat l (4 * i.val) 4))
    t := Vector.ofFn (fun i => BitVec.ofNat 64 (blockNat l (0x40 + 8 * i.val) 8))
    p := Vector.ofFn (fun i => BitVec.ofNat 48 (blockNat l (0x60 + 6 * i.val) 6))
    z := bitOf s 19, n := bitOf s 18, c := bitOf s 17, v := bitOf s 16
    pc := BitVec.ofNat 15 (fld s 14 0), past := false }

/-- A byte as a channel reads it; accesses that are refused are not made. -/
def readByte (c : Core) (a : Nat) : Byte :=
  match rangeOf a with
  | some (.bank, o) => BitVec.ofNat 8 (c.ram.bankRead 1 o)
  | some (.alm, o) => BitVec.ofNat 8 (c.ram.almRead 1 o)
  | some (.prog, o) => BitVec.ofNat 8 (c.ram.progRead 1 o)
  | some (.lbuf, o) => BitVec.ofNat 8 (c.ram.lbufRead 1 o)
  | some (.ctx, o) => ((c.dev.chn.at (ctxChan o)).prog.ctx.bytes)[o % 128]?.getD 0
  | none => 0

/-- A byte as a channel writes it. -/
def writeByte (a : Nat) (b : Byte) (c : Core) : Core :=
  match rangeOf a with
  | some (.bank, o) => c.mapRam (Ram.bankWrite 1 o b.toNat)
  | some (.alm, o) => c.mapRam (Ram.almWrite 1 o b.toNat)
  | some (.prog, o) => c.mapRam (Ram.progWrite 1 o b.toNat)
  | some (.lbuf, o) => c.mapRam (Ram.lbufWrite 1 o b.toNat)
  | some (.ctx, o) => c.mapDev (fun d => d.progUpd (ctxChan o) (fun p => { p with
      ctx := Context.ofBytes (p.ctx.bytes.set (o % 128) b) }))
  | none => c

/-- R343, R344: the byte addresses of the words a side covers: 64-bit words through the funnel, 16-byte
units on XC28 to XC31. -/
def covered (p : Bool) (l : List Nat) : List Nat :=
  (l.flatMap (fun a => if p then [a / 16 * 16, a / 16 * 16 + 8] else [wordOf a])).dedup

/-- The words of the data banks among addresses. -/
def bankWords (l : List Nat) : List Nat := l.filter (fun a => decide (a < 0x200000))

/-- R330: bytes are read; the bank words they lie in are accesses of port B. -/
def readBytes (p : Bool) (l : List Nat) (now : Nat) (c : Core) : List Byte × Core :=
  (l.map (readByte c), c.mapDev (fun d => (bankWords (covered p l)).foldl (fun d a => loadB a now d) d))

/-- R221: the almanac word that holds a byte. -/
def almWordOf (a : Nat) : Option Nat :=
  match rangeOf a with
  | some (.alm, o) => some (o / 4)
  | _ => none

/-- R357: CFG.PRI. -/
def Xfer.pri (x : Xfer) : Bool := bitOf x.cfg 8

/-- R343, R361: bytes are written; only they change. In the almanac and at a bank's
port B the write of a master whose turn of this base period is later stands (R221, R360). -/
def storeBytes (n : XcNo) (l : List (Nat × Byte)) (now : Nat) (c : Core) : Core :=
  let l := l.filter (fun x => !((almWordOf x.1).any (fun w => c.dev.almTaken (n.val % 4) w)))
  let c := c.mapDev (Device.almNote (n.val % 4) (l.filterMap (fun x => almWordOf x.1)).dedup)
  let cls := if (c.dev.xfr.ch.at n).pri then 5 else 4
  let bs := bankWords (l.map (fun x => x.1))
  let d := (bs.map wordOf).dedup.foldl (fun d w => notePort false true w now d) c.dev
  let l := l.filter (fun x => !d.mem.laterB cls x.1)
  let d := { d with mem := { d.mem with bytesB := bs.map (fun a => (a, cls)) ++ d.mem.bytesB } }
  l.foldl (fun c x => writeByte x.1 x.2 c) { c with dev := d }

/-! ## Banks that sleep (R355, R365) -/

/-- What the banks of an access say. -/
inductive BankSays where
  | go
  | wait (l : List BankNo)
  | asleep (b : BankNo)
  deriving DecidableEq, Repr

/-- R355, R365: the banks that hold these words. A burst also waits for a requested change (R364). -/
def askBanks (burst : Bool) (words : List Nat) (d : Device) : BankSays :=
  let bs := (fins 16).filter (fun b => (bankWords words).any (fun a => bankOf a == b))
  let st : BankNo → Bank := fun b => d.mem.bank.at b
  match bs.find? (fun b => (st b).st == .off || (st b).st == .powering || ((st b).st == .retention && !(st b).autowake)) with
  | some b => .asleep b
  | none => if bs.all (fun b => (st b).st == .on && !(burst && (st b).pend)) then .go else .wait bs

/-- R356: a record of channel `n`. -/
def raiseXc (n : XcNo) (kind cause arg now : Nat) (d : Device) : Device := raise 2 (192 + n.val) kind cause arg now d

/-- R355: the channel enters ASLEEP. -/
def xSleep (n : XcNo) (b : BankNo) (now : Nat) (d : Device) : Device :=
  raiseXc n 0x0A 0x01 b.val now (d.xcUpd n (fun x => { x with st := .asleep, abank := b.val }))

/-- R366: a waiting access starts the wakes. -/
def wakeAll (l : List BankNo) (d : Device) : Device := l.foldl (fun d b => bankWake b d) d

/-! ## Ports (R349) -/

/-- The FIFO ports. -/
inductive Port where
  | capt (c : Chan)
  | clvRx (e : CloveNo)
  | clvTx (e : CloveNo)
  | snd
  deriving DecidableEq, Repr

/-- R331: an address in the port range. -/
def inPorts (a : Nat) : Bool := decide (0x440000 ≤ a ∧ a < 0x442404)

/-- R349: the port an address names. -/
def portOf (a : Nat) : Option Port :=
  let o := a - 0x440000
  if a < 0x440000 then none
  else if a < 0x442000 then (if o % 16 = 0 then some (.capt (Fin.ofNat 512 (o / 16))) else none)
  else if a < 0x442200 then (if o % 16 = 0 then some (.clvRx (Fin.ofNat 32 ((o - 0x2000) / 16))) else none)
  else if a < 0x442400 then (if o % 16 = 0 then some (.clvTx (Fin.ofNat 32 ((o - 0x2200) / 16))) else none)
  else if a = 0x442400 then some .snd
  else none

/-- R349: the unit of a port, by address range. -/
def portUnit (a : Nat) : Nat := if a < 0x442200 then 16 else 4

/-- R332, R349: the port may be read. -/
def portReads (d : Device) (a : Nat) : Bool :=
  match portOf a with
  | some (.capt c) => (d.chn.at c).cfg.live.capown
  | some (.clvRx _) => true
  | some .snd => true
  | _ => false

/-- R349: the port may be written. -/
def portWrites (a : Nat) : Bool :=
  match portOf a with
  | some (.clvTx _) => true
  | _ => false

/-- R106, R349: the head of a capture FIFO leaves it. -/
def popCapt (c : Chan) (d : Device) : List Byte × Device :=
  match (d.chn.at c).pin.cap with
  | [] => (leBytes 16 0, d)
  | e :: l =>
    (leBytes 8 e.stamp ++ leBytes 4 e.val ++ leBytes 4 (e.attr l.length).toNat,
     d.pinUpd c (fun p => { p with cap := l, capHeld := p.capHeld - 1 }))

/-- R349: one unit is read from a port. -/
def portRead (a : Nat) (d : Device) : List Byte × Device :=
  match portOf a with
  | some (.capt c) => popCapt c d
  | some (.clvRx e) =>
    let (x, d) := rxPop e d
    (leBytes 8 x.2 ++ leBytes 4 x.1.toNat ++ leBytes 4 0, d)
  | some .snd =>
    match d.snd.fifo with
    | (v, m) :: l => (leBytes 4 (v % 4096 + 65536 * (m % 128) + 2147483648), d.sndUpd (fun s => { s with fifo := l }))
    | [] => (leBytes 4 0, d)
  | _ => ([], d)

/-- R349: `k` units are read from a port. -/
def portReadN (a : Nat) : Nat → Device → List Byte × Device
  | 0, d => ([], d)
  | k + 1, d =>
    let (l, d) := portRead a d
    let (m, d) := portReadN a k d
    (l ++ m, d)

/-- R349: words are written to a port. -/
def portWrite (a : Nat) (l : List Byte) (d : Device) : Device :=
  match portOf a with
  | some (.clvTx e) => (nats (l.length / 4)).foldl (fun d i => txPush e (w32 (blockNat l (4 * i) 4)) d) d
  | _ => d

/-! ## Requests and kicks (R346 to R348) -/

/-- R346: the line presents a request. -/
def ReqLine.presents (q : ReqLine) (d : Device) : Bool :=
  let i := q.idx.toNat
  match q.kind.toNat with
  | 1 => let h := d.chn.at (Fin.ofNat 512 i); h.cfg.live.capown && decide (h.cfg.live.capthr < h.pin.cap.length)
  | 2 => i < 32 && (let c := d.clv.at (Fin.ofNat 32 i); c.rxreq && !c.rx.isEmpty)
  | 3 => i < 32 && (let c := d.clv.at (Fin.ofNat 32 i); c.txreq && decide (c.tx.length < 4))
  | 4 => decide (0 < q.cnt)
  | 5 => d.snd.xreq && !d.snd.fifo.isEmpty
  | _ => false

/-- R357: CFG.RQ. -/
def Xfer.rq (x : Xfer) : Nat := fld x.cfg 6 0
/-- R357: CFG.STEN. -/
def Xfer.sten (x : Xfer) : Bool := bitOf x.cfg 9

/-- R346: the channel's line presents a request. -/
def requested (n : XcNo) (d : Device) : Bool :=
  let r := (d.xfr.ch.at n).rq
  decide (r < 96) && (d.xfr.lines.at (Fin.ofNat 96 r)).presents d

/-- R347: the request is taken; a count goes down. -/
def takeRequest (n : XcNo) (d : Device) : Device :=
  let r := (d.xfr.ch.at n).rq
  { d with xfr := { d.xfr with
      lines := d.xfr.lines.upd (Fin.ofNat 96 r) (fun q => if q.kind = 4 then { q with cnt := q.cnt - 1 } else q) } }

/-- R348: a kick is added or dropped. -/
def kick (n : XcNo) (d : Device) : Device :=
  let x := d.xfr.ch.at n
  if x.st = .idle ∨ 255 ≤ x.kcnt then d.xcUpd n (fun x => { x with kdrop := satInc 8 x.kdrop })
  else d.xcUpd n (fun x => { x with kcnt := x.kcnt + 1 })

/-- R445: the governor defers transfer channels with PRI = 1. -/
def tdefer (d : Device) : Bool := decide (2 ≤ d.thm.stage)

/-- R345: XFR_STAT.THOLD. -/
def thold (n : XcNo) (d : Device) : Bool := (d.xfr.ch.at n).pri && tdefer d

/-! ## Descriptors (R333 to R342) -/

/-- Word `k` of the descriptor. -/
def XferDesc.w (q : XferDesc) (k : Nat) : DWord := q.words[k]?.getD 0
def XferDesc.op (q : XferDesc) : Nat := fld (q.w 0) 63 56

/-- R334: the length of a descriptor in words, from its word 0. -/
def descLen (w : DWord) : Nat :=
  match fld w 63 56 with
  | 1 => if fld w 44 43 = 0 then 3 else 4
  | 2 => 4
  | 3 => 2
  | 4 => 2
  | _ => 1

/-- R335: the fields of a MOVE. -/
def XferDesc.pace (q : XferDesc) : Bool := bitOf (q.w 0) 54
def XferDesc.smode (q : XferDesc) : Nat := fld (q.w 0) 53 52
def XferDesc.dmode (q : XferDesc) : Nat := fld (q.w 0) 51 50
def XferDesc.clog (q : XferDesc) : Nat := fld (q.w 0) 49 45
def XferDesc.plane (q : XferDesc) : Nat := if q.op = 1 then fld (q.w 0) 44 43 else 0
def XferDesc.burst (q : XferDesc) : Nat := 4 * (fld (q.w 0) 42 37 + 1)
def XferDesc.scont (q : XferDesc) : Bool := bitOf (q.w 0) 36
def XferDesc.dcont (q : XferDesc) : Bool := bitOf (q.w 0) 35
/-- R335, R337: LEN of a MOVE, COUNT of a MOVEX. -/
def XferDesc.len (q : XferDesc) : Nat := fld (q.w 0) 31 0
/-- R337: the fields of a MOVEX. -/
def XferDesc.scatter (q : XferDesc) : Bool := bitOf (q.w 0) 53
def XferDesc.esize (q : XferDesc) : Nat := fld (q.w 0) 40 32
/-- R338: the fields of word 3: rows or elements, columns or PSTR, and E. -/
def XferDesc.rows (q : XferDesc) : Nat := fld (q.w 3) 15 0
def XferDesc.cols (q : XferDesc) : Nat := fld (q.w 3) 31 16
def XferDesc.elog (q : XferDesc) : Nat := if q.plane = 1 then fld (q.w 3) 34 32 else fld (q.w 3) 33 32
def XferDesc.esz (q : XferDesc) : Nat := 2 ^ q.elog

/-- R336: where a side starts. -/
def XferDesc.srcStart (q : XferDesc) (x : Xfer) : Nat := if q.scont then x.sptr.toNat else fld (q.w 1) 31 0
def XferDesc.dstStart (q : XferDesc) (x : Xfer) : Nat := if q.dcont then x.dptr.toNat else fld (q.w 2) 31 0

/-- R336: the circular region of an address word. -/
def regionOf (clog w : Nat) : Nat := w / 2 ^ clog * 2 ^ clog

/-- R334 to R338: one side of a MOVE keeps its encoding: mode, CONT, address word, start. -/
def sideOk (mode clog : Nat) (cont : Bool) (word start len burst : Nat) : Bool :=
  match mode with
  | 0 => !inPorts start
  | 1 => inPorts start && len % portUnit start == 0 && burst % portUnit start == 0
  | 2 => !inPorts start && (!cont || regionOf clog start == regionOf clog word)
  | _ => false

/-- R338: the shape of a plane MOVE. -/
def XferDesc.shapeOk (q : XferDesc) : Bool :=
  match q.plane with
  | 0 => true
  | 1 => q.elog ≤ 4 && q.len == q.rows * q.cols * q.esz
  | 2 => q.len == q.rows * q.esz && decide ((q.rows + 7) / 8 ≤ q.cols)
  | _ => false

/-- R335 to R338, R344: the encoding of a MOVE. -/
def moveOk (p : Bool) (q : XferDesc) (x : Xfer) : Bool :=
  let circ := q.smode == 2 || q.dmode == 2
  let s := q.srcStart x
  let e := q.dstStart x
  fld (q.w 0) 34 32 == 0 && fld (q.w 1) 63 32 == 0 && fld (q.w 2) 63 32 == 0 && q.len != 0 &&
  (if circ then decide (6 ≤ q.clog ∧ q.clog ≤ 21) else q.clog == 0) &&
  sideOk q.smode q.clog q.scont (fld (q.w 1) 31 0) s q.len q.burst &&
  sideOk q.dmode q.clog q.dcont (fld (q.w 2) 31 0) e q.len q.burst &&
  (!p || s % 16 == e % 16) &&
  (q.plane == 0 || (q.smode != 1 && q.dmode != 1 && !q.pace && decide (q.len ≤ 4096) && fld (q.w 3) 63 35 == 0)) &&
  q.shapeOk

/-- R337: the encoding of a MOVEX. -/
def movexOk (q : XferDesc) : Bool :=
  fld (q.w 0) 52 41 == 0 && decide (1 ≤ q.esize ∧ q.esize ≤ 256) && q.len != 0 &&
  fld (q.w 1) 63 32 == 0 && fld (q.w 2) 63 32 == 0 && fld (q.w 3) 63 32 == 0 && fld (q.w 3) 1 0 == 0

/-- R333: an address at which a descriptor may stand. -/
def fetchAt (a : Nat) : Bool :=
  a % 8 == 0 && (decide (a < 0x200000) || decide (0x240000 ≤ a ∧ a < 0x260000))

/-- R341: the encoding of a SIGNAL. -/
def signalOk (q : XferDesc) : Bool :=
  let w := q.w 0
  match fld w 49 48 with
  | 0 => fld w 54 50 == 0 && fld w 47 9 == 0
  | 1 => fld w 54 50 == 0 && fld w 47 12 == 0 && fld w 7 5 == 0
  | 2 => fld w 54 50 == 0 && fld w 47 14 == 0 && fld w 7 5 == 0
  | _ => false

/-- R356: cause codes of DMA-BADDESC. -/
def bDecode : Nat := 1
def bSrc : Nat := 2
def bDst : Nat := 3
def bIndex : Nat := 4
def bTarget : Nat := 5

/-- R334, R354: why a fetched descriptor is bad; 0 when it is not. -/
def descBad (p : Bool) (q : XferDesc) (x : Xfer) : Nat :=
  let ok (b : Bool) (k : Nat) : Nat := if b then k else bDecode
  match q.op with
  | 0 => ok (fld (q.w 0) 54 0 == 0) 0
  | 1 => ok (moveOk p q x) 0
  | 2 => ok (movexOk q) 0
  | 3 => ok (fld (q.w 0) 54 33 == 0 && q.len != 0 && fld (q.w 1) 63 32 == 0) (if fetchAt (fld (q.w 1) 31 0) then 0 else bTarget)
  | 4 => ok (fld (q.w 0) 54 34 == 0 && fld (q.w 0) 31 0 == 0 && fld (q.w 0) 33 32 != 3 &&
      (fld (q.w 0) 33 32 == 2 || q.w 1 == 0)) 0
  | 5 => ok (signalOk q) 0
  | _ => ok (fld (q.w 0) 54 32 == 0) (if fetchAt q.len then 0 else bTarget)

/-! ## Ends of descriptors -/

/-- R338: the plane unit of a channel frees. -/
def freeUnit (n : XcNo) (d : Device) : Device :=
  { d with xfr := { d.xfr with plane := d.xfr.plane.map (fun u => if u = some n then none else u) } }

/-- The channel goes on at `pc`, with no descriptor in execution. -/
def xGoOn (n : XcNo) (pc : Nat) (d : Device) : Device :=
  freeUnit n (d.xcUpd n (fun x => { x with pc := w32 pc, cur := none, st := .run }))

/-- R351: the residue of the descriptor in execution. -/
def Xfer.residue (x : Xfer) : Nat :=
  match x.cur with
  | some q => if q.op = 1 ∨ q.op = 2 then q.len - q.moved else 0
  | none => 0

/-- R351, R352: the status word, with its residue, is written, or STFAIL is set. -/
def writeStatus (n : XcNo) (res now : Nat) (c : Core) : Core :=
  let x := c.dev.xfr.ch.at n
  let c := c.mapDev (fun d => d.xcUpd n (fun x => { x with res := w32 res }))
  if !x.sten then c
  else
    let a := x.staddr.toNat
    let l := (nats 8).map (fun i => a + i)
    if l.all (writeOk (xPriv n) c.dev l) && askBanks false [a] c.dev = .go then
      storeBytes n (l.zip (leBytes 8 (res + 4294967296 * x.pc.toNat))) now c
    else c.mapDev (fun d => d.xcUpd n (fun x => { x with stfail := true }))

/-- The channel enters IDLE. -/
def xIdle (n : XcNo) (d : Device) : Device :=
  freeUnit n (d.xcUpd n (fun x => { x with st := .idle, cur := none }))

/-- R356: the argument of DMA-BADDESC: descriptor address bits [10:3]. -/
def descArg (x : Xfer) : Nat := fld x.pc 10 3

/-- R352: the channel stops. -/
def xStop (n : XcNo) (cause now : Nat) (c : Core) : Core :=
  let c := writeStatus n 0 now c
  c.mapDev (fun d => raiseXc n 0x09 cause (descArg (d.xfr.ch.at n)) now
    (xIdle n (d.xcUpd n (fun x => { x with err := true }))))

/-- R354: BAD is set in the descriptor's word 0, or MARKFAIL. -/
def markBad (n : XcNo) (w0 : DWord) (now : Nat) (c : Core) : Core :=
  let a := (c.dev.xfr.ch.at n).pc.toNat + 6
  let ok : Bool := match rangeOf a with
    | some (.bank, _) => askBanks false [wordOf a] c.dev == .go && readOk false c.dev a
    | some (.prog, _) => xPriv n
    | _ => false
  if ok then storeBytes n [(a, BitVec.ofNat 8 (fld w0 55 48) ||| 0x80)] now c
  else c.mapDev (fun d => d.xcUpd n (fun x => { x with markfail := true }))

/-- R354: the descriptor in execution is bad; its residue is kept when an access was refused. -/
def xBad (n : XcNo) (w0 : DWord) (cause : Nat) (res : Option Nat) (now : Nat) (c : Core) : Core :=
  let x := c.dev.xfr.ch.at n
  let c := markBad n w0 now c
  c.mapDev (fun d =>
    let d := d.xcUpd n (fun x => { x with
      badaddr := x.pc, res := match res with
        | some r => w32 r
        | none => x.res })
    xGoOn n (x.pc.toNat + 8 * descLen w0) (raiseXc n 0x09 cause (descArg x) now d))

/-! ## Fetch (R333, R334, R339 to R342, R353) -/

/-- R339: LOOP. -/
def xLoop (n : XcNo) (q : XferDesc) (d : Device) : Device :=
  let x := d.xfr.ch.at n
  let k : Fin 2 := Fin.ofNat 2 (fld (q.w 0) 32 32)
  let v := (if x.lc.at k = 0 then w32 q.len else x.lc.at k) - 1
  let d := d.xcUpd n (fun x => { x with lc := x.lc.put k v })
  xGoOn n (if v ≠ 0 then fld (q.w 1) 31 0 else x.pc.toNat + 16) d

/-- R340: WAIT. -/
def xWait (n : XcNo) (q : XferDesc) (d : Device) : Device :=
  match fld (q.w 0) 33 32 with
  | 0 => d.xcUpd n (fun x => { x with cur := some q, st := .wreq })
  | 1 => d.xcUpd n (fun x => { x with cur := some q, st := .wkick })
  | _ => d.xcUpd n (fun x => { x with cur := some q, st := .wtime, wtime := (q.w 1).toNat })

/-- R338: a plane MOVE takes the lowest free unit, or waits for one behind those that wait. -/
def xPlane (n : XcNo) (q : XferDesc) (now : Nat) (d : Device) : Device :=
  let wait := (fins 32).any (fun m => m != n && (d.xfr.ch.at m).st == .plane)
  match (fins 2).find? (fun u => !wait && (d.xfr.plane.at u).isNone) with
  | some u =>
    let d := { d with xfr := { d.xfr with plane := d.xfr.plane.put u (some n) } }
    d.xcUpd n (fun x => { x with cur := some { q with unit := some u }, st := .run })
  | none =>
    d.xcUpd n (fun x => { x with cur := some q, st := .plane, arrive := now })

/-- A fetched descriptor that is not bad starts. -/
def xStart (n : XcNo) (q : XferDesc) (now : Nat) (d : Device) : Device :=
  match q.op with
  | 0 => d.xcUpd n (fun x => { x with cur := none, st := .atend })
  | 1 => if q.plane = 0 then d.xcUpd n (fun x => { x with cur := some q, st := .run }) else xPlane n q now d
  | 2 => d.xcUpd n (fun x => { x with cur := some q, st := .run })
  | 3 => xLoop n q d
  | 4 => xWait n q d
  | 5 => d.xcUpd n (fun x => { x with cur := some { q with signal := true }, st := .run })
  | _ => xGoOn n q.len d

/-- R333: the 64-bit word at `a`. -/
def fetchWord (c : Core) (a : Nat) : DWord := BitVec.ofNat 64 (leNat ((nats 8).map (fun i => readByte c (a + i))))

/-- R333, R334, R352, R354: the words of the descriptor at `a` have been reached. -/
def xDecode (n : XcNo) (a : Nat) (w0 : DWord) (now : Nat) (c : Core) : Core :=
  let k := descLen w0
  let as := (nats k).map (fun i => a + 8 * i)
  if bitOf w0 55 then c.mapDev (xGoOn n (a + 8 * k))
  else if !as.all (fun b => fetchAt b && readOk (xPriv n) c.dev b) then
    xBad n w0 bDecode (some (if fld w0 63 56 = 1 ∨ fld w0 63 56 = 2 then fld w0 31 0 else 0)) now c
  else
    match askBanks false as c.dev with
    | .asleep b => c.mapDev (xSleep n b now)
    | .wait l => c.mapDev (wakeAll l)
    | .go =>
      let q : XferDesc := ⟨as.map (fetchWord c), 0, false, none, [], 0, false, 0, 0, none⟩
      let c := c.mapDev (fun d => (bankWords (as.drop 1)).foldl (fun d b => loadB b now d) d)
      let why := descBad (xPriv n) q (c.dev.xfr.ch.at n)
      if why ≠ 0 then xBad n w0 why none now c else c.mapDev (xStart n q now)

/-- R333, R352, R355: the descriptor at XFR_PC is fetched and, unless it moves data, waits or signals,
executed. -/
def xFetch (n : XcNo) (now : Nat) (c : Core) : Core :=
  let a := (c.dev.xfr.ch.at n).pc.toNat
  if !(fetchAt a && readOk (xPriv n) c.dev a) then xStop n 0x10 now c
  else
    match askBanks false [a] c.dev with
    | .asleep b => c.mapDev (xSleep n b now)
    | .wait l => c.mapDev (wakeAll l)
    | .go =>
      let w0 := fetchWord c a
      let c := c.mapDev (fun d => (bankWords [a]).foldl (fun d b => loadB b now d) d)
      if 6 < fld w0 63 56 then xStop n 0x11 now c else xDecode n a w0 now c

/-- R333: a running channel that executes no descriptor fetches one. -/
def descriptorFetch (n : XcNo) (now : Nat) (c : Core) : Core :=
  let x := c.dev.xfr.ch.at n
  if x.st = .run && x.cur.isNone && !thold n c.dev then xFetch n now c else c

/-- R353: in ATEND a set BELLPEND is cleared and the word at XFR_PC is fetched again. -/
def atendRefetch (n : XcNo) (now : Nat) (c : Core) : Core :=
  let x := c.dev.xfr.ch.at n
  if x.st = .atend && x.bell && !thold n c.dev then
    xFetch n now (c.mapDev (fun d => d.xcUpd n (fun x => { x with bell := false, st := .run })))
  else c

/-! ## Bursts (R336 to R338, R343 to R345) -/

/-- R336: the address `k` bytes on from `a` on a side. -/
def sideAddr (mode clog word a k : Nat) : Nat :=
  match mode with
  | 0 => (a + k) % 4294967296
  | 1 => a
  | _ => regionOf clog word + (a + k) % 2 ^ clog

/-- R336: where the burst of a MOVE starts on each side. -/
def XferDesc.src (q : XferDesc) (x : Xfer) : Nat := if q.moved = 0 then q.srcStart x else x.sptr.toNat
def XferDesc.dst (q : XferDesc) (x : Xfer) : Nat := if q.moved = 0 then q.dstStart x else x.dptr.toNat
def XferDesc.srcAddr (q : XferDesc) (a k : Nat) : Nat := sideAddr q.smode q.clog (fld (q.w 1) 31 0) a k
def XferDesc.dstAddr (q : XferDesc) (a k : Nat) : Nat := sideAddr q.dmode q.clog (fld (q.w 2) 31 0) a k

/-- The bank check before a burst: what to do instead of it, or `none`. -/
def burstBlocked (n : XcNo) (words : List Nat) (now : Nat) (d : Device) : Option Device :=
  match askBanks true words d with
  | .go => none
  | .wait l => some (wakeAll l d)
  | .asleep b => some (xSleep n b now d)

/-- R345: how many of these bytes a burst can hold, with 32 words of one side; `seen`: the units touched so far. -/
def fitWords (p : Bool) : List Nat → List Nat → Nat
  | _, [] => 0
  | seen, a :: l =>
    let u := if p then a / 16 else a / 8
    if seen.contains u then 1 + fitWords p seen l
    else if (if p then 16 else 32) ≤ seen.length then 0
    else 1 + fitWords p (u :: seen) l

/-- R336: bytes of a side from `a` on before it wraps, of `k`. -/
def fitWrap (mode clog a k : Nat) : Nat := if mode = 2 then min k (2 ^ clog - a % 2 ^ clog) else k

/-- R336, R345: the bytes of one side that a burst of at most `k` bytes moves. -/
def fitSide (p : Bool) (mode clog a : Nat) (l : List Nat) (k : Nat) : Nat :=
  if mode = 1 then k else min (fitWords p [] (l.take k)) (fitWrap mode clog a k)

/-- R349: a burst at a port moves whole units. -/
def fitUnit (u k : Nat) : Nat := if k / u = 0 then u else k / u * u

/-- R336, R345: a burst has been split and goes on. -/
def XferDesc.mid (q : XferDesc) : Bool := q.part != 0 || (q.op == 2 && q.rd != 0)

/-- After a burst: the bytes moved are counted and the descriptor goes on or ends. -/
def xferDone (n : XcNo) (q : XferDesc) (bytes total now : Nat) (d : Device) : Device :=
  let d := d.xcUpd n (fun x => { x with
    bytes := x.bytes + w32 bytes, cur := some { q with granted := q.granted && q.mid, lastAt := some now } })
  if total ≤ q.moved then xGoOn n ((d.xfr.ch.at n).pc.toNat + 8 * q.words.length) d else d

/-- R336, R343 to R345: one burst of a MOVE without PLANE, split where a side wraps or would touch more than 32 words. -/
def moveBurst (n : XcNo) (q : XferDesc) (now : Nat) (c : Core) : Core :=
  let x := c.dev.xfr.ch.at n
  let p := xPriv n
  let s := q.src x
  let e := q.dst x
  let k0 := if q.part = 0 then min q.burst (q.len - q.moved) else q.part
  let k := min (fitSide p q.smode q.clog s ((nats k0).map (q.srcAddr s)) k0)
    (fitSide p q.dmode q.clog e ((nats k0).map (q.dstAddr e)) k0)
  let k := if q.smode = 1 then fitUnit (portUnit s) k else if q.dmode = 1 then fitUnit (portUnit e) k else k
  let ss := (nats k).map (q.srcAddr s)
  let es := (nats k).map (q.dstAddr e)
  let sOk := if q.smode = 1 then portReads c.dev s else ss.all (readOk p c.dev)
  let eOk := if q.dmode = 1 then portWrites e else es.all (writeOk p c.dev es)
  if !sOk then xBad n (q.w 0) bSrc (some x.residue) now c
  else if !eOk then xBad n (q.w 0) bDst (some x.residue) now c
  else
    let words := (if q.smode = 1 then [] else covered p ss) ++ (if q.dmode = 1 then [] else covered p es)
    match burstBlocked n words now c.dev with
    | some d => { c with dev := d }
    | none =>
      let (bs, c) := if q.smode = 1 then
          let (bs, d) := portReadN s (k / portUnit s) c.dev
          (bs, { c with dev := d })
        else readBytes p ss now c
      let c := if q.dmode = 1 then c.mapDev (portWrite e bs) else storeBytes n (es.zip bs) now c
      c.mapDev (fun d => xferDone n { q with moved := q.moved + k, part := k0 - k } k q.len now
        (d.xcUpd n (fun x => { x with sptr := w32 (q.srcAddr s k), dptr := w32 (q.dstAddr e k) })))

/-- R337, R345: one element of a MOVEX, or a part of one that touches more than 32 words on a side. -/
def movexBurst (n : XcNo) (q : XferDesc) (now : Nat) (c : Core) : Core :=
  let x := c.dev.xfr.ch.at n
  let p := xPriv n
  let i := q.moved
  let t := (fld (q.w 3) 31 0 + 4 * i) % 4294967296
  let ts := (nats 4).map (fun j => (t + j) % 4294967296)
  let first := q.rd == 0
  if first && !ts.all (readOk p c.dev) then xBad n (q.w 0) bIndex (some x.residue) now c
  else
    match burstBlocked n (if first then covered p ts else []) now c.dev with
    | some d => { c with dev := d }
    | none =>
      let off := if first then leNat (ts.map (readByte c)) else q.base
      let c := if first then (readBytes p ts now c).2 else c
      let q' := { q with moved := i + 1, rd := 0, base := off }
      if off = 4294967295 then c.mapDev (xferDone n q' 0 q.len now)
      else
        let ix := (fld (q.w 1) 31 0 + off) % 4294967296
        let ct := (fld (q.w 2) 31 0 + i * q.esize) % 4294967296
        let at' : Nat → List Nat := fun a => (nats (q.esize - q.rd)).map (fun j => (a + q.rd + j) % 4294967296)
        let ss := at' (if q.scatter then ct else ix)
        let es := at' (if q.scatter then ix else ct)
        let k := min (fitWords p [] ss) (fitWords p [] es)
        let ss := ss.take k
        let es := es.take k
        let q' := if q.rd + k < q.esize then { q with rd := q.rd + k, base := off } else q'
        if p && ix % 16 ≠ ct % 16 then xBad n (q.w 0) bDecode (some x.residue) now c
        else if !ss.all (readOk p c.dev) then xBad n (q.w 0) bSrc (some x.residue) now c
        else if !es.all (writeOk p c.dev es) then xBad n (q.w 0) bDst (some x.residue) now c
        else
          match burstBlocked n (covered p ss ++ covered p es) now c.dev with
          | some d => { c with dev := d }
          | none =>
            let (bs, c) := readBytes p ss now c
            (storeBytes n (es.zip bs) now c).mapDev (xferDone n q' k q.len now)

/-- R338: the destination bytes of a TRANSPOSE, in destination order. -/
def transpose (q : XferDesc) (src : List Byte) : List Byte :=
  (nats q.cols).flatMap (fun c => (nats q.rows).flatMap (fun r => (src.drop ((r * q.cols + c) * q.esz)).take q.esz))

/-- R338: the destination bytes of a BITPLANE, plane by plane. -/
def bitplane (q : XferDesc) (src : List Byte) : List Byte :=
  (nats (8 * q.esz)).flatMap (fun b => (nats ((q.rows + 7) / 8)).map (fun i =>
    BitVec.ofNat 8 ((nats 8).foldl (fun v j =>
      let e := 8 * i + j
      let byte := src[e * q.esz + b / 8]?.getD 0
      if e < q.rows && bitOf byte (b % 8) then v + 2 ^ j else v) 0)))

/-- R338: where byte `k` of the reshaped block goes, from the destination's start. -/
def XferDesc.place (q : XferDesc) (k : Nat) : Nat :=
  if q.plane = 1 then k
  else
    let m := max 1 ((q.rows + 7) / 8)
    k / m * q.cols + k % m

/-- R338, R345: a burst of the reading of a plane MOVE's source block into its unit. -/
def planeRead (n : XcNo) (q : XferDesc) (now : Nat) (c : Core) : Core :=
  let x := c.dev.xfr.ch.at n
  let p := xPriv n
  let s := if q.rd = 0 then q.srcStart x else x.sptr.toNat
  let k0 := min 256 (q.len - q.rd)
  let k := fitSide p q.smode q.clog s ((nats k0).map (q.srcAddr s)) k0
  let ss := (nats k).map (q.srcAddr s)
  if !ss.all (readOk p c.dev) then xBad n (q.w 0) bSrc (some x.residue) now c
  else
    match burstBlocked n (covered p ss) now c.dev with
    | some d => { c with dev := d }
    | none =>
      let e := if q.rd = 0 then q.dstStart x else q.base
      let (bs, c) := readBytes p ss now c
      let bs := q.buf ++ bs
      let buf := if q.rd + k < q.len then bs else if q.plane = 1 then transpose q bs else bitplane q bs
      c.mapDev (fun d => d.xcUpd n (fun x => { x with
        cur := some { q with buf := buf, base := e, rd := q.rd + k, lastAt := some now }
        sptr := w32 (q.srcAddr s k), dptr := w32 e }))

/-- R338: one burst of a plane MOVE's destination block. -/
def planeBurst (n : XcNo) (q : XferDesc) (now : Nat) (c : Core) : Core :=
  let x := c.dev.xfr.ch.at n
  let p := xPriv n
  let bs := (q.buf.drop q.moved).take q.burst
  let es := (nats bs.length).map (fun i => q.dstAddr q.base (q.place (q.moved + i)))
  let k := fitWords p [] es
  let bs := bs.take k
  let es := es.take k
  if !es.all (writeOk p c.dev es) then xBad n (q.w 0) bDst (some x.residue) now c
  else
    match burstBlocked n (covered p es) now c.dev with
    | some d => { c with dev := d }
    | none =>
      let k := q.moved + bs.length
      (storeBytes n (es.zip bs) now c).mapDev (fun d => xferDone n { q with moved := k } bs.length q.buf.length now
        (d.xcUpd n (fun x => { x with dptr := w32 (q.dstAddr q.base (q.place (k - 1) + 1)) })))

/-- R345, R347: a burst that is due. A paced one must have its request, which the engine takes at a boundary; without it the
channel waits. -/
def burst (n : XcNo) (now : Nat) (c : Core) : Core :=
  let x := c.dev.xfr.ch.at n
  match x.cur with
  | none => c
  | some q =>
    if x.st ≠ .run || thold n c.dev || !(q.op == 1 || q.op == 2) then c
    else if q.pace && !q.granted then c.mapDev (fun d => d.xcUpd n (fun x => { x with st := .wreq }))
    else if q.op = 2 then movexBurst n q now c
    else if q.plane = 0 then moveBurst n q now c
    else if q.rd < q.len then planeRead n q now c
    else planeBurst n q now c

/-! ## Waits, signals, plane units, control -/

/-- R340, R347: what a waiting channel waits for has come. -/
def waitSatisfied (n : XcNo) (now : Nat) (d : Device) : Device :=
  let x := d.xfr.ch.at n
  let on : Device → Device := xGoOn n (x.pc.toNat + 16)
  match x.st, x.cur with
  | .wreq, some q =>
    if !requested n d then d
    else if q.op = 4 then on (takeRequest n d)
    else if thold n d then d
    else (takeRequest n d).xcUpd n (fun x => { x with st := .run, cur := some { q with granted := true } })
  | .wkick, _ => if 0 < x.kcnt then on (d.xcUpd n (fun x => { x with kcnt := x.kcnt - 1 })) else d
  | .wtime, _ => if x.wtime ≤ now then on d else d
  | _, _ => d

/-- R341: the effect of a SIGNAL of channel `n`. -/
def signalEffect (n : XcNo) (w : DWord) (c : Core) : Core :=
  match fld w 49 48 with
  | 0 =>
    let h : Chan := Fin.ofNat 512 (fld w 8 0)
    if (c.dev.chn.at h).cfg.bound then c.mapDev (fun d => d.progUpd h (fun p => { p with dsig := p.dsig + 1 }))
    else c.mapDev (fun d => d.xcUpd n (fun x => { x with sigref := true }))
  | 1 =>
    let e : CloveNo := Fin.ofNat 32 (fld w 4 0)
    let m : Byte := BitVec.ofNat 8 (2 ^ fld w 10 8)
    c.mapDev (fun d => if bitOf w 11 then flagsSet e m d else flagsClear e m d)
  | _ => c.mapRam (Ram.lbufWrite 4 (txAddr (Fin.ofNat 32 (fld w 4 0)) (fld w 13 8) 3) 1)

/-- R341: a SIGNAL takes effect at the first boundary after the channel's earlier writes. -/
def signalDeliver (n : XcNo) (c : Core) : Core :=
  let x := c.dev.xfr.ch.at n
  match x.cur with
  | some q => if q.signal && x.st = .run then (signalEffect n (q.w 0) c).mapDev (xGoOn n (x.pc.toNat + 8)) else c
  | none => c

/-- R338: the free plane units go to the waiting channels in order of arrival. -/
def planeGrant (d : Device) : Device :=
  let give (d : Device) (u : Fin 2) : Device :=
    if (d.xfr.plane.at u).isSome then d
    else
      match leastBy (fun n => (d.xfr.ch.at n).arrive) ((fins 32).filter (fun n => (d.xfr.ch.at n).st == .plane)) with
      | some n =>
        let d := { d with xfr := { d.xfr with plane := d.xfr.plane.put u (some n) } }
        d.xcUpd n (fun x => { x with st := .run, cur := x.cur.map (fun q => { q with unit := some u }) })
      | none => d
  (fins 2).foldl give d

/-- R350: XFR_CTL.GO; the channel enters RUN at the next boundary (`xferStarts`). -/
def xGo (n : XcNo) (d : Device) : Device :=
  if (d.xfr.ch.at n).st = .idle then
    d.xcUpd n (fun x => { x with lc := Tab.all 0, kcnt := 0, bell := false, start := true, cur := none })
  else d.xcUpd n (fun x => { x with ref := true })

/-- R351: XFR_CTL.ABORT. -/
def xAbort (n : XcNo) (d : Device) : Device :=
  if (d.xfr.ch.at n).st = .idle then d else d.xcUpd n (fun x => { x with st := .abort })

/-- R351: the abort completes. -/
def abortComplete (n : XcNo) (now : Nat) (c : Core) : Core :=
  let x := c.dev.xfr.ch.at n
  if x.st ≠ .abort then c
  else (writeStatus n x.residue now c).mapDev (fun d => raiseXc n 0x08 0x01 0 now (xIdle n d))

/-- R350: the channels that GO started enter RUN. -/
def xferStarts (d : Device) : Device :=
  forAll (fun n d => d.xcUpd n (fun x => if x.start then { x with st := .run, start := false } else x)) d

/-- R350, R351: what the engine has at the boundary after GO and ABORT were written. -/
def xferNext (now : Nat) (c : Core) : Core :=
  (forAll (fun n c => abortComplete n now c) c).mapDev xferStarts

/-- R355: RESUME retries. -/
def xResume (n : XcNo) (d : Device) : Device :=
  if (d.xfr.ch.at n).st = .asleep then d.xcUpd n (fun x => { x with st := .run }) else d

/-- R355: an ASLEEP channel with AUTORESUME retries when the bank is on again. -/
def xAutoresume (n : XcNo) (d : Device) : Device :=
  let x := d.xfr.ch.at n
  if x.st = .asleep && x.autoresume && (d.mem.bank.at (Fin.ofNat 16 x.abank)).st == .on then xResume n d else d

/-- R353: XFR_BELL. -/
def bell (n : XcNo) (d : Device) : Device := d.xcUpd n (fun x => { x with bell := true })

/-- R345: the channels in the order of service of a boundary: high class before low, each round-robin. -/
def xferOrder (d : Device) : List XcNo :=
  let cls (p : Bool) : List XcNo :=
    let l := (fins 32).filter (fun n => (d.xfr.ch.at n).pri == p)
    let k := d.xfr.last.at (if p then 1 else 0)
    l.filter (fun n => decide (k < n.val)) ++ l.filter (fun n => decide (n.val ≤ k))
  cls false ++ cls true

/-- R347: a running channel whose next burst is paced waits for its request. -/
def paceWait (n : XcNo) (d : Device) : Device :=
  match (d.xfr.ch.at n).cur with
  | some q =>
    if (d.xfr.ch.at n).st == .run && q.pace && !q.granted && (q.op == 1 || q.op == 2) then
      d.xcUpd n (fun x => { x with st := .wreq })
    else d
  | none => d

/-- R347: the last burst of channel `n` fell before the boundary `now`, and was its last access. -/
def burstJustNow (n : XcNo) (now : Nat) (d : Device) : Bool :=
  match (d.xfr.ch.at n).cur with
  | some q => q.lastAt == some now
  | none => false

/-- R345, R347: channel `n` is served at a boundary. -/
def xferServe (now : Nat) (d : Device) (n : XcNo) : Device :=
  let d := paceWait n d
  let d' := waitSatisfied n now (xAutoresume n d)
  if (d.xfr.ch.at n).st = .wreq && (d'.xfr.ch.at n).st ≠ .wreq then
    { d' with xfr := { d'.xfr with last := d'.xfr.last.put (if (d.xfr.ch.at n).pri then 1 else 0) n.val } }
  else d'

/-- R347: the engine's decisions at a boundary, after step 6 of R144. -/
def xferDecide (now : Nat) (d : Device) : Device := planeGrant ((xferOrder d).foldl (xferServe now) d)

/-- R341: the signals delivered in step 2 of a boundary. -/
def xferSignals (c : Core) : Core := (fins 32).foldl (fun c n => signalDeliver n c) c

/-! ## The commands -/

def execXfrGo (n : XcNo) (s : State) : Host.Outcome State Fault Refusal := s.runDev (fun _ => xGo n)
def execXfrAbort (n : XcNo) (s : State) : Host.Outcome State Fault Refusal := s.runDev (fun _ => xAbort n)
def execAbortComplete (n : XcNo) (s : State) : Host.Outcome State Fault Refusal := s.run (abortComplete n)
def execXfrResume (n : XcNo) (s : State) : Host.Outcome State Fault Refusal := s.runDev (fun _ => xResume n)
def execXfrAutoresume (n : XcNo) (s : State) : Host.Outcome State Fault Refusal := s.runDev (fun _ => xAutoresume n)
def execBell (n : XcNo) (s : State) : Host.Outcome State Fault Refusal := s.runDev (fun _ => bell n)
def execKick (n : XcNo) (s : State) : Host.Outcome State Fault Refusal := s.runDev (fun _ => kick n)
def execDescriptorFetch (n : XcNo) (s : State) : Host.Outcome State Fault Refusal := s.run (descriptorFetch n)
def execBurst (n : XcNo) (s : State) : Host.Outcome State Fault Refusal := s.run (burst n)
def execXfrWaitSatisfied (n : XcNo) (s : State) : Host.Outcome State Fault Refusal := s.runDev (fun now d => if burstJustNow n now d then d else waitSatisfied n now d)
def execSignalDelivery (n : XcNo) (s : State) : Host.Outcome State Fault Refusal := s.run (fun _ => signalDeliver n)
def execPlaneUnitGrant (s : State) : Host.Outcome State Fault Refusal := s.runDev (fun _ => planeGrant)
def execAtendRefetch (n : XcNo) (s : State) : Host.Outcome State Fault Refusal := s.run (atendRefetch n)

end Sys2Proof.Machine
end

