-- ==== Sys2Proof/Machine/Segments.lean ====
section
/-! DEFINITION. Landing, release and faults of segments (R122 to R130, R137, R142, R170 to R177, R211, R212, R250). -/

namespace Sys2Proof.Machine

open Sys2Proof

/-! ## The end of a service (R163, R238) -/

/-- Change the newest segment. -/
def Prog.lastSeg (f : Segment → Segment) (p : Prog) : Prog :=
  { p with segs := match p.segs.reverse with
      | g :: l => (f g :: l).reverse
      | [] => [] }

/-- R137: the newest segment of home `h` ends; placeholders of a re-run segment still in place go. -/
def endSegment (h : Chan) (d : Device) : Device :=
  let p := (d.chn.at h).prog
  match p.segs.getLast? with
  | none => d
  | some g =>
    let d := d.progUpd h (Prog.lastSeg (fun g => { g with ended := true }))
    if g.rerun then d.mapProv (fun _ l => l.filter (fun e => !(e.holder && e.home == h && e.seq == g.seq))) else d

/-- R163, R236, R260: the service of home `h` ends in `w`; its slot frees. -/
def endService (h : Chan) (w : WaitState) (d : Device) : Device :=
  match (d.chn.at h).prog.svc with
  | none => d
  | some s =>
    let d := endSegment h (freeSlot s d)
    let d := { d with hlm := { d.hlm with svccnt := (d.hlm.svccnt + 1) % 4294967296 } }
    d.progUpd h (fun p => { p with svc := none, wait := w })

/-- R168, R233: the service ends and the program asks for another one, as YIELD does. -/
def yieldService (h : Chan) (now : Nat) (d : Device) : Device :=
  let d := endService h .runnable d
  request h (d.waitDeadline now h) false d

/-- R242: the service ends as preempted: the request keeps its deadline. -/
def preemptedEnd (h : Chan) (d : Device) : Device :=
  match (d.chn.at h).prog.svc with
  | none => d
  | some s => request h s.deadline false (endService h .runnable d)

/-! ## Landing (R123, R125 to R127, R131, R137, R142, R250) -/

/-- R123, R137: a new segment of home `h` begins, with its checkpoint. -/
def beginSegment (h : Chan) (ckpt : Context) (d : Device) : Device :=
  d.progUpd h (fun p =>
    let n := p.nextSeq
    { p with
      segs := p.segs ++ [{ seq := n, ckpt := ckpt, settled := settledOf p n, emits := 0, held := [], convs := []
                           epochs := [], ended := false, fault := none, stop := false
                           rerun := p.settled.any (fun x => x.1 == n) }]
      nextSeq := n + 1, settled := p.settled.filter (fun x => x.1 != n) })

/-- R131: conversions are tracked whole, up to four in a segment, and then by epoch alone. -/
def Segment.track (l : List Conv) (g : Segment) : Segment :=
  l.foldl (fun g c =>
    if g.convs.length < 4 then { g with convs := g.convs ++ [{ c with fresh := true }] }
    else { g with epochs := g.epochs ++ [(c.ax, c.epoch, true)] }) g

/-- R127, R128: a held effect takes its marks or its entries as it lands. -/
def landEffect (h : Chan) (x : HeldEff) (d : Device) : Device :=
  match x with
  | .cancel c i thr =>
    let d := d.progUpd h (fun p => { p with nextId := i + 1 })
    d.chnUpd c (fun x => { x with prov := x.prov.map (fun e => if cancels h thr e then { e with marks := e.marks ++ [i] } else e) })
  | .capt c n => d.pinUpd c (fun p => { p with capHeld := p.capHeld + n })
  | _ => d

/-- R142: the margin of an action written at `now`. -/
def noteMargin (c : Chan) (t now : Nat) (d : Device) : Device :=
  let i := commitAt t (d.lead c)
  if t = never ∨ i < (now : Int) then d
  else d.statUpd c (fun s => { s with margin := min s.margin ((i - (now : Int)) / 32).toNat })

/-- R89, R137: an action takes the entry of its placeholder, or a free one. -/
def landAction (c : Chan) (x : ProvEntry) (now : Nat) (d : Device) : Device :=
  let d := d.mapProv (fun _ l => l.filter (fun e => !holderAt x.home x.seq x.ord e))
  noteMargin c x.t now (d.chnUpd c (fun h => { h with prov := h.prov ++ [{ x with wrote := now }] }))

/-- R175: the service ends with a fault, held in its segment; the routine makes no write. -/
def landFault (h : Chan) (f : HeldFault) (d : Device) : Device :=
  endService h .stopped (d.progUpd h (Prog.lastSeg (fun g => { g with fault := some f })))

/-- R163, R175: how the service goes on after a routine that made its writes. -/
def landFinish (h : Chan) (r : Staged) (now : Nat) (d : Device) : Device :=
  match r.fin with
  | .go => d
  | .yield => yieldService h now d
  | .stop => endService h .stopped d
  | .block w => endService h w d
  | .fault f => landFault h f d
  | .preempt => preemptedEnd h d

/-- R201: the marks of a CANCEL are decided as it lands: with no action to mark it holds no effect, and Z says so. -/
def cancelNow (h : Chan) (r : Staged) (d : Device) : Staged :=
  r.held.foldl (fun r x =>
    match x with
    | .cancel c i thr =>
      let any := (d.chn.at c).prov.any (cancels h thr)
      { r with ctx := { r.ctx with z := if r.zmark then !any else r.ctx.z }, held := if any then r.held else r.held.filter (fun y => y != .cancel c i thr) }
    | _ => r) r

/-- R250: the writes of one routine land at `now`. -/
def landRoutine (h : Chan) (r : Staged) (now : Nat) (d : Device) : Device :=
  match r.fin with
  | .fault f => landFault h f d
  | _ =>
    let d := match r.newSeg with
      | some k => beginSegment h k (endSegment h d)
      | none => d
    let r := cancelNow h r d
    let d := d.progUpd h (fun p =>
      { p.lastSeg (fun g => Segment.track r.convs { g with
          emits := g.emits + r.emit.toNat, held := g.held ++ r.held, stop := g.stop || r.stop }) with
        ctx := r.ctx, again := false, svc := p.svc.map (fun s => if s.staged.isEmpty then { s with ctx := r.ctx } else s) })
    let d := r.held.foldl (fun d x => landEffect h x d) d
    let d := match r.act with
      | some (c, x) => landAction c x now d
      | none => d
    landFinish h r now d

/-- R250: the part of a routine that lands after COMMIT. -/
def Staged.head (r : Staged) : Staged := if r.tail.isSome then { r with fin := .go, tail := none } else r

/-- R250: the part of a routine that lands after END. -/
def Staged.rest (r : Staged) : List Staged :=
  match r.tail with
  | some (k, a) => [{ r with ctx := k, newSeg := none, emit := false, act := none, held := [], convs := [], stop := false
                             zmark := false, tail := none, late := true, at' := a }]
  | none => []

/-- R250: the oldest routine of home `h` whose COMMIT completed before `now` lands. -/
def landNext (h : Chan) (now : Nat) (d : Device) : Device :=
  match (d.chn.at h).prog.svc with
  | none => d
  | some s =>
    match s.staged with
    | r :: l =>
      if r.at' != now && due r.at' now then
        landRoutine h r.head now (d.progUpd h (fun p => { p with svc := p.svc.map (fun s => { s with staged := r.rest ++ l }) }))
      else d
    | [] => d

/-- R144 step 1: every routine due lands, and then the tests of R135 are made. -/
def landAll (h : Chan) (now : Nat) (d : Device) : Device :=
  match (d.chn.at h).prog.svc with
  | none => d
  | some s =>
    match s.staged with
    | [] => d
    | l => recomputeStale h now ((l ++ l).foldl (fun d _ => landNext h now d) d)

/-- The home channels with a running service. -/
def Device.serving (d : Device) : List Chan := (fins 512).filter (fun c => (d.chn.at c).prog.svc.isSome)

/-! ## Staged writes (R114, R121, R211) -/

/-- R121: the fields marked ST of a CHN register. -/
def stagedMask (off : Nat) : Word :=
  match off with
  | 0x04 => 0x0000_F770
  | 0x10 => 0x0000_07FF
  | 0x14 | 0x18 | 0x1C => 0xFFFF_FFFF
  | 0x20 => 0xFFFF_1FF3
  | 0x24 => 0x0000_011F
  | _ => 0

/-- R114: the fields of register `off` that `m` selects take those of `v` in a shadow set. -/
def StSet.write (off : Nat) (m v : Word) (s : StSet) : StSet :=
  let k := stagedMask off &&& m
  match off with
  | 0x04 => { s with cfg := mergeBits k s.cfg v }
  | 0x10 => { s with lead := mergeBits k s.lead v }
  | 0x14 => { s with per := mergeBits k s.per v }
  | 0x18 => { s with wid := mergeBits k s.wid v }
  | 0x1C => { s with phs := mergeBits k s.phs v }
  | 0x20 => { s with train := mergeBits k s.train v }
  | 0x24 => { s with trip := mergeBits k s.trip v }
  | _ => s

/-- R114: a write to the shadow of channel `c`, refused with STGREF while an apply is pending. -/
def stagedWrite (c : Chan) (off : Nat) (m v : Word) (d : Device) : Device :=
  let g := (d.chn.at c).cfg
  if g.pend.isSome || g.gpend then d.statUpd c (fun s => { s with stgref := true })
  else d.cfgUpd c (fun g => { g with shadow := g.shadow.write off m v })

/-! ## Faults (R170, R176) -/

/-- R176, R178: a fault of home `h` becomes final. The safe state is entered at the next boundary. -/
def faultFinal (h : Chan) (code : Nat) (pc : BitVec 15) (now : Nat) (d : Device) : Device :=
  let d := raiseChn 5 h 0x04 0x30 code now (stopProgram h d)
  d.chnUpd h (fun x => { x with
    prog := { x.prog with faultPc := pc, faultCode := code, faultValid := true }
    stat := { x.stat with safeDue := some (if code = fBank then .bankasleep else .progfault, addT now 32) } })

/-- R10, R260: HLM_MFAULT takes a MICRO fault as it becomes final. -/
def noteMicro (h : Chan) (f : HeldFault) (d : Device) : Device :=
  match f.ua with
  | some u => { d with hlm := { d.hlm with mfault := w32 (h.val + 512 * (f.sub % 64) + 65536 * (u % 65536)) } }
  | none => d

/-- R175: the held fault of the oldest unreleased segment becomes final. -/
def faultOldest (h : Chan) (now : Nat) (d : Device) : Device :=
  match (d.chn.at h).prog.segs with
  | g :: _ =>
    match g.fault with
    | some f => faultFinal h f.code f.pc now (noteMicro h f d)
    | none => d
  | [] => d

/-- R119 step 1: a safe-state entry that is due. -/
def safeEntry (c : Chan) (now : Nat) (d : Device) : Device :=
  match (d.chn.at c).stat.safeDue with
  | some (k, t) => if due t now then enterSafe 4 c k now (d.statUpd c (fun s => { s with safeDue := none })) else d
  | none => d

/-! ## Release (R126, R129, R170, R172, R177, R212) -/

/-- A delivery of STC: the receiver, its register and the value (R172). -/
structure Delivery where
  ch  : Chan
  reg : Fin 16
  val : Word
  deriving DecidableEq, Repr

/-- R116, R213: an APPLY of a program is released at `now`; one that the commit stage of this boundary already took is done. -/
def progApply (c : Chan) (m : BitVec 2) (a : Axis) (v now : Nat) (d : Device) : Device :=
  if (d.chn.at c).cfg.early then d.cfgUpd c (fun g => { g with early := false }) else startApply c m a v now d

/-- R126: one held effect of home `h`, other than STM and STC, takes place. -/
def releaseEffect (h : Chan) (x : HeldEff) (now : Nat) (c : Core) : Core :=
  match x with
  | .sig dt => c.mapDev (raise 5 (chnSource h) 0x01 (fld dt 15 8) (fld dt 7 0) now)
  | .xkick n => c.mapDev (kick n)
  | .lsend o v => c.mapRam (Ram.lbufWrite 8 o v.toNat)
  | .cfg ch off m v => c.mapDev (stagedWrite ch off.toNat m v)
  | .apply ch m v a => c.mapDev (progApply ch m a v.toNat now)
  | .cancel ch i _ => c.mapDev (fun d => d.chnUpd ch (fun x =>
      { x with prov := x.prov.filter (fun e => !(e.home == h && e.marks.contains i)) }))
  | .capt ch n => c.mapDev (fun d => d.pinUpd ch (fun p => { p with cap := p.cap.drop n, capHeld := p.capHeld - n }))
  | .stm _ _ _ _ => c
  | .stc _ _ _ => c

/-- R126, R170: held effects take place in program order; an STM whose bank is not on stops them and gives its
pc. STC writes are collected (R172). -/
def releaseEffects (h : Chan) (now : Nat) : List HeldEff → Core × List Delivery → (Core × List Delivery) × Option (BitVec 15)
  | [], r => (r, none)
  | x :: l, (c, ds) =>
    match x with
    | .stm a v half pc =>
      if c.dev.bankOn a then releaseEffects h now l (storeA (if half then 4 else 8) a v.toNat now c, ds)
      else ((c.mapDev (returnHeld l), ds), some pc)
    | .stc ch r v => releaseEffects h now l (c, ds ++ [⟨ch, r, v⟩])
    | _ => releaseEffects h now l (releaseEffect h x now c, ds)

/-- R129: the oldest segment of home `h` can be released. -/
def releasable (h : Chan) (d : Device) : Bool :=
  match (d.chn.at h).prog.segs with
  | g :: _ => g.ended && g.fault.isNone && !d.segHolds h g.seq
  | [] => false

/-- R177: the program stops at the release of its stop. -/
def programStop (h : Chan) (d : Device) : Device :=
  dropReq h (d.progUpd h (fun p => { p with running := false, wait := .stopped }))

/-- R129: the oldest segment of home `h` is released, if it can be. -/
def releaseOldest (h : Chan) (now : Nat) (c : Core) : Core × List Delivery :=
  match (c.dev.chn.at h).prog.segs with
  | [] => (c, [])
  | g :: l =>
    if releasable h c.dev then
      let c := c.mapDev (fun d => d.progUpd h (fun p => { p with segs := l }))
      let ((c, ds), bad) := releaseEffects h now g.held (c, [])
      match bad with
      | some pc => (c.mapDev (faultFinal h fBank pc now), ds)
      | none => (if g.stop then c.mapDev (programStop h) else c, ds)
    else (c, [])

/-- R129: every releasable segment of home `h`, oldest first. -/
def releaseAll (h : Chan) (now : Nat) (c : Core) : Core × List Delivery :=
  (nats 4).foldl (fun r _ =>
    let (c, ds) := releaseOldest h now r.1
    (c, r.2 ++ ds)) (c, [])

/-- R172: the write itself. -/
def stcWrite (x : Delivery) (d : Device) : Device :=
  d.progUpd x.ch (fun p => { p with ctx := { p.ctx with g := p.ctx.g.put x.reg x.val } })

/-- R147, R172: the write to a frozen receiver, which no rewind restores: it goes into every context of its program
(DEDUCED, log 77). -/
def stcFrozen (x : Delivery) (d : Device) : Device :=
  let w (k : Context) : Context := { k with g := k.g.put x.reg x.val }
  let staged (r : Staged) : Staged := { r with ctx := w r.ctx, newSeg := r.newSeg.map w, tail := r.tail.map (fun y => (w y.1, y.2)) }
  d.progUpd x.ch (fun p => { p with
    ctx := w p.ctx, segs := p.segs.map (fun g => { g with ckpt := w g.ckpt })
    svc := p.svc.map (fun s => { s with ctx := w s.ctx, staged := s.staged.map staged }) })

/-- R172: deliveries in order; each receiver with an unreleased segment is revised once, unless it is frozen. -/
def deliver (now : Nat) : List Delivery → List Chan → Device → Device
  | [], _, d => d
  | x :: l, done, d =>
    let h := d.chn.at x.ch
    if !h.cfg.en then deliver now l done d
    else
      match h.prog.segs with
      | [] => deliver now l done (stcWrite x d)
      | g :: _ =>
        if h.stat.frozen then deliver now l done (stcFrozen x d)
        else if done.contains x.ch then deliver now l done (stcWrite x d)
        else deliver now l (x.ch :: done) (stcWrite x (revise 5 x.ch g.seq d now d))

/-- R129, R172, R176: step 5 of R144: releases, then deliveries, then final faults. -/
def releaseStep (now : Nat) (c : Core) : Core :=
  let (c, ds) := c.dev.specHomes.foldl (fun r h =>
    let (c, ds) := releaseAll h now r.1
    (c, r.2 ++ ds)) (c, [])
  c.mapDev (fun d => (deliver now ds [] d).specHomes.foldl (fun d h => faultOldest h now d) (deliver now ds [] d))

/-! ## The commands -/

def execRoutineCommit (ch : Chan) (s : State) : Host.Outcome State Fault Refusal :=
  s.runDev (fun now d => recomputeStale ch now (landNext ch now d))
def execSegmentRelease (ch : Chan) (s : State) : Host.Outcome State Fault Refusal :=
  s.run (fun now c =>
    let (c, ds) := releaseOldest ch now c
    c.mapDev (deliver now ds []))
def execFaultFinal (ch : Chan) (s : State) : Host.Outcome State Fault Refusal := s.runDev (faultOldest ch)

end Sys2Proof.Machine
end

