-- ==== Sys2Proof/Machine/HelmSched.lean ====
section
/-! DEFINITION. The helm: waits, dispatch, preemption, limits and engines (R158, R159, R163 to R168, R233 to R245,
R260). -/

namespace Sys2Proof.Machine

open Sys2Proof

/-! ## Waits (R164 to R168) -/

/-- R151: the channel that is enabled member `m` of home `h` now. -/
def Device.memberNow (d : Device) (h : Chan) (m : Nat) : Option Chan :=
  if m = 0 then (if (d.chn.at h).cfg.en then some h else none)
  else (d.members h).find? (fun c => (d.chn.at c).cfg.midx == m)

/-- R164: free entries of a provisional queue. -/
def Channel.provFree (h : Channel) : Nat := 8 - h.prov.length

/-- R164: capture entries not held for consumption. -/
def Channel.capFree (h : Channel) : Nat := h.pin.cap.length - h.pin.capHeld

/-- R164: the condition of a wait kind on the state at `now`; `v` is the time or count it compares. -/
def kindHolds (h : Chan) (kind arg : Nat) (c : Chan) (v : DWord) (now : Nat) (d : Device) : Bool :=
  match kind with
  | 0 => decide (v.toNat ≤ now)
  | 1 => (d.axs.at (Fin.ofNat 64 arg)).est.epoch != v.truncate 32
  | 2 => countDiffers (v.truncate 32) (d.evc.src.at (Fin.ofNat 256 arg)).rcnt.toNat
  | 3 => countDiffers (v.truncate 32) (d.chn.at h).prog.dsig.toNat
  | 4 => decide ((d.chn.at c).cfg.live.capthr < (d.chn.at c).capFree)
  | _ => decide (fld (BitVec.ofNat 8 arg) 6 3 ≤ (d.chn.at c).provFree)

/-- R126: the effects that the unreleased segments of a program hold. -/
def Prog.heldCount (p : Prog) : Nat := (p.segs.flatMap (fun g => g.held)).length

/-- R249: a BLOCK of a micro-routine on WKIND `k`: the condition its TEST of that kind named, else not stated. -/
def microHolds (h : Chan) (k : Nat) (test : Option (Byte × DWord)) (now : Nat) (d : Device) : Bool :=
  match test with
  | some (arg, v) =>
    let c := if waitMember k then d.memberNow h (fld arg 2 0) else some h
    match c with
    | some c => kindHolds h k arg.toNat c v now d
    | none => false
  | none => Config.bit d.free

/-- R165, R167: what the program of home `h` waits for holds on the state at `now`. -/
def waitMet (h : Chan) (now : Nat) (d : Device) : Bool :=
  let p := (d.chn.at h).prog
  match p.wait with
  | .runnable => false
  | .stopped => false
  | .wait k reg arg c _ =>
    let v : DWord := if k = 0 then p.ctx.tr reg.val else (p.ctx.gr reg.val).zeroExtend 64
    kindHolds h k.val arg.toNat c v now d
  | .hold ax coast => !mustHold (d.axs.at ax) coast
  | .qspace c => decide (0 < (d.chn.at c).provFree)
  | .segSpace => decide (p.segs.length < 4)
  | .effSpace => decide (p.heldCount < 16)
  | .ckptSpace => decide (d.ckptUsed < 1024)
  | .applyPend c => !((d.chn.at c).cfg.pend.isSome || (d.chn.at c).cfg.gpend)
  | .micro k test => microHolds h k.toNat test now d

/-- R166: the timeout of a WAIT has come. -/
def timeoutMet (h : Chan) (now : Nat) (d : Device) : Bool :=
  let p := (d.chn.at h).prog
  match p.wait with
  | .wait _ _ _ _ (some r) => decide ((p.ctx.tr r.val).toNat ≤ now)
  | _ => false

/-- R249: a BLOCK whose condition is not stated takes a free value at each test. -/
def testTakesFree (w : WaitState) : Bool :=
  match w with
  | .micro _ none => true
  | _ => false

/-- R89: a wait on queue space. -/
def WaitState.isQueue (w : WaitState) : Bool :=
  match w with
  | .qspace _ => true
  | _ => false

/-- R165, R168: the helm raises the request of a wait that is satisfied. -/
def wakeProgram (h : Chan) (now : Nat) (d : Device) : Device :=
  let d := d.progUpd h (fun p => { p with wait := .runnable, again := p.wait.isQueue })
  request h (d.waitDeadline now h) false d

/-- The wait of home `h` is of the kind that `mine` accepts, no service runs, and `met` holds. -/
def wakeIf (mine : WaitState → Bool) (met : Chan → Nat → Device → Bool) (h : Chan) (now : Nat) (d : Device) : Device :=
  let p := (d.chn.at h).prog
  if mine p.wait && p.svc.isNone && p.running then
    let d' := if testTakesFree p.wait then d.freeTaken else d
    if met h now d then wakeProgram h now d' else d'
  else d

/-- R164: an explicit WAIT. -/
def WaitState.isWait (w : WaitState) : Bool :=
  match w with
  | .wait _ _ _ _ _ => true
  | _ => false

/-- R167: an implicit wait, or the BLOCK of a micro-routine. -/
def WaitState.isImplicit (w : WaitState) : Bool :=
  match w with
  | .runnable | .stopped | .wait _ _ _ _ _ => false
  | _ => true

/-- R165 to R167: the wait of home `h` is tested on the state after step 5 of `now`. -/
def testWait (h : Chan) (now : Nat) (d : Device) : Device :=
  let d := wakeIf WaitState.isWait waitMet h now d
  let d := wakeIf WaitState.isWait timeoutMet h now d
  wakeIf WaitState.isImplicit waitMet h now d

/-! ## Dispatch (R123, R124, R158, R159, R234 to R236) -/

/-- R159: committed state at boundary `now`, as a service of home `h` sees it. A switch whose S has come shows (R229). -/
def viewOf (h : Chan) (now : Nat) (d : Device) : View :=
  { at' := now
    axs := d.axs.map (fun x => ⟨x.est.st, x.est.nfix, x.est.epoch, x.reg.modulo, x.reg.m⟩)
    chn := d.chn.map (fun x =>
      { en := x.cfg.en, bound := x.cfg.bound
        member := if x.cfg.member && !x.cfg.bound then some (x.cfg.home, BitVec.ofNat 3 x.cfg.midx) else none
        mode := x.cfg.mode, free := x.provFree, capFree := x.capFree, capthr := x.cfg.live.capthr
        rel := x.prog.released })
    rcnt := d.evc.src.map (fun s => s.rcnt)
    dsig := (d.chn.at h).prog.dsig
    tabs := (forAll (fun n d => tableSwitch n now d) d).alm.map (fun t => ⟨t.defd, t.time, t.ax, t.lbase, t.llen⟩)
    almOn := d.pwr.alm == .on }

/-- R236, R260: free slots of an engine that takes dispatches. -/
def freeSlots (n : EngineNo) (d : Device) : Nat :=
  let e := d.hlm.eng.at n
  if d.hlm.emask.getLsbD n.val && e.insvc && !e.fail then ((fins 6).filter (fun k => (e.slots.at k).isNone)).length else 0

/-- R236: the engine with the most free slots, ties to the lower number. -/
def bestEngine (d : Device) : Option EngineNo :=
  (fins 16).foldl (fun b n =>
    if freeSlots n d = 0 then b
    else match b with
      | none => some n
      | some m => if freeSlots m d < freeSlots n d then some n else some m) none

/-- R235: request `a` stands before `b` in the queue. -/
def reqBefore (a b : Req) : Bool :=
  a.deadline < b.deadline ||
    (a.deadline == b.deadline && ((a.rev && !b.rev) || (a.rev == b.rev && decide (a.ch.val < b.ch.val))))

/-- R235: the queue in order of deadline. -/
def sortReqs (l : List Req) : List Req := l.foldl (fun q r => insertBefore (fun x => reqBefore r x) r q) []

/-- R124, R158, R235: the request's service could begin, an engine slot apart. -/
def reqReady (r : Req) (d : Device) : Bool :=
  let p := (d.chn.at r.ch).prog
  p.svc.isNone && p.running && p.wait != .stopped && decide (p.segs.length < 4) && decide (d.ckptUsed < 1024)

/-- R236: the lowest free slot of an engine. -/
def slotFor (n : EngineNo) (d : Device) : Fin 6 :=
  ((fins 6).find? (fun k => ((d.hlm.eng.at n).slots.at k).isNone)).getD 0

/-- R123, R159, R236: request `r` is dispatched to engine `n`. -/
def dispatchTo (r : Req) (n : EngineNo) (now : Nat) (d : Device) : Device :=
  let k := slotFor n d
  let slack := (r.deadline - now) / 32
  let d := { d with hlm := { d.hlm with
      q := d.hlm.q.filter (fun x => x.ch != r.ch)
      eng := d.hlm.eng.upd n (fun e => { e with slots := e.slots.put k (some r.ch) })
      slackmin := min d.hlm.slackmin slack }, turn := { d.turn with disp := d.turn.disp + 1 } }
  let ctx := (d.chn.at r.ch).prog.ctx
  let first := (d.chn.at r.ch).prog.nextSeq
  let v := viewOf r.ch now d
  let d := beginSegment r.ch ctx d
  d.progUpd r.ch (fun p => { p with
    wait := .runnable
    svc := some { eng := n, slot := k, deadline := r.deadline, first := first, view := v, count := 0, ctx := ctx
                  staged := [], retried := false } })

/-- R235: one dispatch: the first request in the queue that can be dispatched, of those not yet tried. -/
def dispatchFrom (now : Nat) : List Req → Device → Device × List Req
  | [], d => (d, [])
  | r :: l, d =>
    if !(d.chn.at r.ch).prog.running then dispatchFrom now l (dropReq r.ch d)
    else if reqReady r d then
      match bestEngine d with
      | some n => (dispatchTo r n now d, l)
      | none => (d, [])
    else dispatchFrom now l d

/-- R234, R235, R437: up to four requests are dispatched at a boundary; requests of disabled channels are dropped;
nothing is dispatched while the run gate is closed. -/
def dispatchStep (now : Nat) (d : Device) : Device :=
  let d := { d with hlm := { d.hlm with q := d.hlm.q.filter (fun r => (d.chn.at r.ch).cfg.en) } }
  if d.pwr.gate then ((nats (4 - d.turn.disp)).foldl (fun x _ => dispatchFrom now x.2 x.1) (d, sortReqs d.hlm.q)).1 else d

/-! ## Preemption and limits (R163, R242 to R244) -/

/-- A service that ends after the routines past their COMMIT: with none, at once. -/
def endAfter (h : Chan) (fin : Finish) (now : Nat) (d : Device) : Device :=
  match (d.chn.at h).prog.svc with
  | none => d
  | some s =>
    match s.staged.reverse with
    | [] => (match fin with
        | .yield => yieldService h now d
        | _ => preemptedEnd h d)
    | r :: l =>
      if r.fin = .go then
        d.progUpd h (fun p => { p with svc := p.svc.map (fun s => { s with staged := ({ r with fin := fin } :: l).reverse }) })
      else d

/-- The service goes on after its last routine. -/
def goesOn (s : Service) : Bool :=
  match s.staged.getLast? with
  | some r => r.fin == .go
  | none => true

/-- R163: a service that has executed 1,024 instructions ends as if by YIELD. -/
def serviceLimit (h : Chan) (now : Nat) (d : Device) : Device :=
  match (d.chn.at h).prog.svc with
  | none => d
  | some s =>
    if 1024 ≤ s.count && goesOn s then endAfter h .yield now (d.progUpd h (fun p => { p with long := true })) else d

/-- R242: the running service with the latest deadline, ties to the higher channel. -/
def latestService (d : Device) : Option (Chan × Nat) :=
  d.serving.foldl (fun b c =>
    match (d.chn.at c).prog.svc with
    | none => b
    | some s =>
      match b with
      | none => some (c, s.deadline)
      | some (c', t) => if t ≤ s.deadline then some (c, s.deadline) else some (c', t)) none

/-- R243: the routine in flight of the service of home `h`, if it has one to abandon, counts as abandoned. -/
def countAbandoned (h : Chan) (d : Device) : Device :=
  if ((d.chn.at h).prog.svc.map Service.inFlight).getD false then
    { d with hlm := { d.hlm with abncnt := satInc 32 d.hlm.abncnt } }
  else d

/-- R242: the helm preempts, with no enabled engine slot free, at most one service at a boundary. -/
def preemptStep (now : Nat) (d : Device) : Device :=
  match sortReqs d.hlm.q, bestEngine d, latestService d with
  | r :: _, none, some (c, dv) =>
    let margin := 32 * fld d.hlm.preempt 15 0
    let slack := 32 * fld d.hlm.preempt 31 16
    if !d.turn.pre && d.hlm.preemptEn && decide (r.deadline + margin ≤ dv) && decide (r.deadline ≤ now + slack) then
      let d := countAbandoned c { d with
        hlm := { d.hlm with precnt := satInc 32 d.hlm.precnt }, turn := { d.turn with pre := true } }
      endAfter c .preempt now d
    else d
  | _, _, _ => d

/-- R244: a routine that runs 4,096 microwords faults MICRO, subcode 0x3F. -/
def microLimit (h : Chan) (ua : BitVec 16) (now : Nat) (c : Core) : Core :=
  match (c.dev.chn.at h).prog.svc with
  | none => c
  | some s =>
    if canRun s then stage h now ⟨(envOf h s now c).fault fMicro 0x3F, [], some (0x3F, ua.toNat), 0⟩ c else c

/-! ## Engines (R240, R243, R245, R260) -/

/-- The services in an engine's slots. -/
def engineChans (n : EngineNo) (d : Device) : List Chan := (fins 6).filterMap (fun k => (d.hlm.eng.at n).slots.at k)

/-- R243, R250: an engine failure at `now`. A routine whose COMMIT completed before `now` lands its writes at `now`; one whose
COMMIT comes in the base period that begins is abandoned, and so is a tail that has not ended (log 51). -/
def Service.failed (s : Service) (now : Nat) : Service :=
  { s with staged := (s.staged.filter (fun r => r.at' != now && due r.at' now)).map (fun r => match r.tail with
      | some x => if x.2 != now && due x.2 now then r else { r with tail := none, fin := .go }
      | none => r) }

/-- R243: what an engine failure abandons of the service of home `h`. -/
def loseRoutines (h : Chan) (now : Nat) (d : Device) : Device :=
  let d : Device := { d with hlm := { d.hlm with abncnt := satInc 32 d.hlm.abncnt } }
  d.progUpd h (fun p => { p with svc := p.svc.map (fun s => s.failed now) })

/-- R243, R245, R259: engine `n` is declared failed. -/
def engineFail (n : EngineNo) (now : Nat) (d : Device) : Device :=
  if (d.hlm.eng.at n).fail then d
  else
    let d := { d with hlm := { d.hlm with eng := d.hlm.eng.upd n (fun e => { e with fail := true, insvc := false }) } }
    let d := (engineChans n d).foldl (fun d h => endAfter h .preempt now (loseRoutines h now d)) d
    raise 5 249 0x04 0x10 n.val now d

/-- R245: 1 ms, in ticks. -/
def oneMs : Nat := 8000000

/-- R243, R245, R259: an uncorrectable error in the instruction that the service of home `h` executes. -/
def eccUncorr (h : Chan) (now : Nat) (c : Core) : Core :=
  match (c.dev.chn.at h).prog.svc with
  | none => c
  | some s =>
    let n := s.eng
    let d := { c.dev with hlm := { c.dev.hlm with eccUnc := satInc 16 c.dev.hlm.eccUnc } }
    let d := raise 5 249 0x04 0x11 n.val now d
    let d : Device := { d with hlm := { d.hlm with eng := d.hlm.eng.upd n (fun e => { e with
        errs := now :: e.errs.filter (fun t => decide (now < t + oneMs)) }) } }
    let c := { c with dev := d }
    if 4 ≤ (d.hlm.eng.at n).errs.length then c.mapDev (engineFail n now)
    else if !canRun s then c
    else if !s.retried then
      c.mapDev (fun d => (countAbandoned h d).progUpd h (fun p => { p with svc := p.svc.map (fun s => { s with retried := true }) }))
    else
      let w := c.dev.freeWord
      let c := c.mapDev Device.freeTaken
      stage h now ⟨(envOf h s now c).fault fMicro (fld w 5 0), [], some (fld w 5 0, fld w 31 16), 0⟩ c

/-- R245, R445: a window's step time with the lengthening by thermal pacing divided out exceeds 10,400 ps. -/
def tooSlow (step : Nat) (d : Device) : Bool := decide (10400 * 16 < step * (16 - (if d.thm.stage = 4 then d.thm.pace else 0)))

/-- R240: the helm's planning pace of an engine, in ps: the largest of its last 16 windows, 2,600 until 1 ms is measured.
No rule says how it enters a dispatch or a preemption, and none of R235, R236 and R242 uses it (log 78). -/
def Engine.plan (e : Engine) : Nat := if e.meas < 16 then 2600 else e.wins.foldl max 0

/-- R240, R245: a pace window of engine `n` ends. -/
def paceWindow (n : EngineNo) (step now : Nat) (d : Device) : Device :=
  let d := { d with hlm := { d.hlm with eng := d.hlm.eng.upd n (fun e => { e with
      epace := step, emax := max e.emax step, wins := (step :: e.wins).take 16, meas := e.meas + 1 }) } }
  if tooSlow step d then engineFail n now d else d

/-- R260: an engine cleared in EMASK leaves service once its slots are empty. -/
def engineLeave (n : EngineNo) (d : Device) : Device :=
  if d.hlm.emask.getLsbD n.val || !(engineChans n d).isEmpty then d
  else { d with hlm := { d.hlm with eng := d.hlm.eng.upd n (fun e => { e with insvc := false }) } }

/-- R240, R260: a write of HLM_EMASK: an engine that enters service measures its pace afresh. -/
def writeEmask (v : BitVec 16) (d : Device) : Device :=
  let old := d.hlm.eng
  { d with hlm := { d.hlm with emask := v, eng := Vector.ofFn (fun n =>
      let e := old.at n
      if v.getLsbD n.val && !e.insvc && !e.fail then { e with insvc := true, meas := 0, wins := [] } else e) } }

/-- R165 to R167, R235, R242: the helm at a boundary, after step 5 of R144. -/
def helmStep (now : Nat) (d : Device) : Device :=
  let d := ((fins 512).filter (fun c => (d.chn.at c).prog.running)).foldl (fun d h => testWait h now d) d
  let d := forAll (fun n d => engineLeave n d) d
  preemptStep now (dispatchStep now d)

/-! ## The commands -/

def execServiceDispatch (s : State) : Host.Outcome State Fault Refusal := s.runDev dispatchStep
def execWaitSatisfied (ch : Chan) (s : State) : Host.Outcome State Fault Refusal :=
  s.runDev (wakeIf WaitState.isWait waitMet ch)
def execImplicitWaitSatisfied (ch : Chan) (s : State) : Host.Outcome State Fault Refusal :=
  s.runDev (wakeIf WaitState.isImplicit waitMet ch)
def execWaitTimeout (ch : Chan) (s : State) : Host.Outcome State Fault Refusal :=
  s.runDev (wakeIf WaitState.isWait timeoutMet ch)
def execServiceLimit (ch : Chan) (s : State) : Host.Outcome State Fault Refusal := s.runDev (serviceLimit ch)
def execPreemption (s : State) : Host.Outcome State Fault Refusal := s.runDev preemptStep
def execMicrowordLimit (ch : Chan) (uaddr : BitVec 16) (s : State) : Host.Outcome State Fault Refusal :=
  s.run (microLimit ch uaddr)
def execEccUncorr (ch : Chan) (s : State) : Host.Outcome State Fault Refusal := s.run (eccUncorr ch)
def execEngineFail (eng : EngineNo) (s : State) : Host.Outcome State Fault Refusal := s.runDev (engineFail eng)
def execPaceWindow (eng : EngineNo) (stepPs : BitVec 16) (s : State) : Host.Outcome State Fault Refusal :=
  s.runDev (paceWindow eng stepPs.toNat)
def execEngineLeaveService (eng : EngineNo) (s : State) : Host.Outcome State Fault Refusal :=
  s.runDev (fun _ => engineLeave eng)

end Sys2Proof.Machine
end

