-- ==== Sys2Proof/Machine/Events.lean ====
section
/-! DEFINITION. Levels, reservation, the log ring and the event controller's commands (R382 to R397, chapter 15). -/

namespace Sys2Proof.Machine

open Sys2Proof

/-! ## Levels (R385) -/

/-- R434: a monitored supply in use lies outside its window. A VIO bank is in use while an output channel is
enabled on it. -/
def pinBank (c : Chan) : Option (Fin 8) := if c.val < 256 then some (Fin.ofNat 8 (c.val / 32)) else none

/-- R434: an output channel is enabled on pin bank `k`. -/
def bankInUse (k : Fin 8) (d : Device) : Bool :=
  (fins 512).any (fun c => pinBank c == some k && (d.chn.at c).cfg.en && isOutMode (d.chn.at c).cfg.mode)

/-- R385: a monitored supply in use lies outside its window. -/
def supplyBad (d : Device) : Bool :=
  !d.pwr.vcoreOk || !d.pwr.vauxOk || (fins 8).any (fun k => !d.pwr.vioOk.getLsbD k.val && bankInUse k d)

/-- R424: DBG_STAT.STATE. -/
def dbgState (d : Device) : Nat :=
  if d.fuses.dbgPerm then 3
  else if !d.fuses.dbgClose then 0
  else if d.dbg.opened then 2
  else 1

/-- R385: the condition of source `s`. -/
def levelOf (s : Nat) (d : Device) : Bool :=
  if s < 64 then (fins 8).any (fun i =>
    let k := (d.chn.at (Fin.ofNat 512 (8 * s + i.val))).stat.code
    k.sticky || k == .linklost)
  else if s < 128 then
    let x := d.axs.at (Fin.ofNat 64 (s - 64))
    x.reg.en && (x.est.st == .nofix || x.est.fixlate)
  else if s < 160 then
    let x := d.glk.at (Fin.ofNat 32 (s - 128))
    x.en && x.st != .up
  else if s < 192 then
    let k := Fin.ofNat 32 (s - 160)
    lkEn (d.lko.at k).cfgE && (d.lko.at k).latch
  else if s < 224 then
    let x := d.xfr.ch.at (Fin.ofNat 32 (s - 192))
    x.st == .asleep || x.err
  else if s < 240 then
    (d.clv.at (Fin.ofNat 32 (2 * (s - 224)))).fault || (d.clv.at (Fin.ofNat 32 (2 * (s - 224) + 1))).fault
  else
    match s with
    | 240 => d.thm.caution || d.thm.stage != 0 || bitOf d.pwr.hfault 3
    | 241 => d.pwr.hfault != 0 || supplyBad d
    | 242 => d.keel.ctrLost || !d.fuses.bad.isEmpty || d.key.lockEnd.isSome
    | 243 => d.hps.berr || d.hps.wovf || d.hps.proto
    | 244 => bitOf d.stb.ctl 0 && d.stb.st != .locked
    | 245 => !d.stb.refOk || !d.stb.pllLock || !d.stb.icalOk
    | 246 => d.mem.ww != 0
    | 247 => (fins 16).any (fun b => (d.mem.bank.at b).unrep || (d.mem.bank.at b).loss)
    | 248 => d.evc.full
    | 249 => d.hlm.mode == .recovery || (fins 16).any (fun n => (d.hlm.eng.at n).fail)
    | 250 => (fins 64).any (fun n => (d.alm.at n).err)
    | 251 => d.snd.wout != 0 || d.snd.fovf
    | 252 => dbgState d == 2 || d.dbg.extest
    | _ => false

/-- R385: the levels are sampled. -/
def sampleLevels (d : Device) : Device :=
  { d with evc := { d.evc with src := Vector.ofFn (fun s => { d.evc.src.at s with level := levelOf s.val d }) } }

/-! ## Reservation (R383, R384, R386, R388, R393) -/

/-- A source's next record, and the source once it is reserved. -/
structure NextRec where
  kind   : Byte
  detail : BitVec 16
  stamp  : Nat
  after  : Source
  deriving DecidableEq, Repr

/-- R383: the next record of an edge source. -/
def nextEdge (x : Source) : Option NextRec :=
  if x.ovf then some ⟨0x12, detailOf 1 x.drop, x.dropAt, { x with ovf := false, drop := 0, dropAt := 0 }⟩
  else
    match x.q with
    | c :: l => some ⟨c.kind, c.detail, c.stamp, { x with q := l, ovf := l.isEmpty && x.drop != 0 }⟩
    | [] => none

/-- R384, R386: the next record of a level source at `now`. -/
def nextLevel (x : Source) (now : Nat) : Option NextRec :=
  match x.soft with
  | some (dt, t) => some ⟨0x11, dt, t, { x with soft := none, claim := true }⟩
  | none =>
    if x.level && !x.claim then
      match x.latch with
      | some c => some ⟨c.kind, c.detail, c.stamp, { x with latch := none, claim := true, prev := some (c.kind, c.detail) }⟩
      | none =>
        match x.prev with
        | some (k, dt) => some ⟨k, dt, now, { x with claim := true }⟩
        | none => some ⟨0x13, detailOf 1 0, now, { x with claim := true, prev := some (0x13, detailOf 1 0) }⟩
    else none

/-- The next record of source `s`. -/
def nextRec (s : SourceNo) (now : Nat) (e : Evc) : Option NextRec :=
  if e.isLevel s then nextLevel (e.src.at s) now else nextEdge (e.src.at s)

/-- R391: the number of records the ring holds. -/
def Evc.slots (e : Evc) : Nat := 2 ^ e.size.toNat

/-- R393: the ring is full. -/
def Evc.ringFull (e : Evc) : Bool := (e.rsv - e.rp).toNat == e.slots

/-- R388: sources with a record to reserve, unmasked, with their records. -/
def candidates (now : Nat) (e : Evc) : List (SourceNo × NextRec) :=
  (fins 256).filterMap (fun s => if e.isMasked s then none else (nextRec s now e).map (fun r => (s, r)))

/-- R391: the byte address of record number `q`. -/
def Evc.slotAddr (e : Evc) (q : Word) : Nat :=
  e.rbase.toNat + (if e.layout then 128 else 16) * (q.toNat % e.slots)

/-- R388: the order of candidates: earliest stamp, then sources 240 to 255, then the lower number. -/
def recKey (x : SourceNo × NextRec) : Nat := x.2.stamp * 512 + (if 240 ≤ x.1.val then 0 else 256) + x.1.val

/-- R388, R393: at most one record is reserved at a boundary, here of those that `ok` admits; a full ring withholds it. -/
def reserve (ok : NextRec → Bool) (now : Nat) (d : Device) : Device :=
  let e := d.evc
  if !e.en || d.turn.rsv then d
  else
    match leastBy recKey ((candidates now e).filter (fun x => ok x.2)) with
    | none => d
    | some (s, r) =>
      if e.ringFull then
        if e.full then d else raise 7 248 0x12 0x02 0 now { d with evc := { e with full := true } }
      else
        { d with
          turn := { d.turn with rsv := true }
          evc := { e with
            src := e.src.put s r.after, rsv := e.rsv + 1
            due := e.due ++ [⟨e.rsv, s.val, r.kind, r.detail, r.stamp, e.slotAddr e.rsv, false⟩] } }

/-- R393: FULL clears when the ring is no longer full. -/
def Evc.unfull (e : Evc) : Evc := { e with full := e.full && e.ringFull }

/-- R396: EVT_N. -/
def Evc.drive (e : Evc) : Evc := { e with evtLow := e.en && e.wp != e.rp }

/-! ## Writing a record (R390, R391, R393) -/

/-- R390: the two 64-bit words of a record. -/
def Rec.low (r : Rec) : Nat :=
  r.seq.toNat + 4294967296 * (16777216 * (r.source % 256) + 65536 * r.kind.toNat + r.detail.toNat)
def Rec.high (r : Rec) : Nat := r.stamp % two64

/-- R392, R393: the oldest reserved record is written, and WP goes up, but for a record of an earlier ring. -/
def recordWrite (now : Nat) (c : Core) : Core :=
  match c.dev.evc.due with
  | [] => c
  | r :: l =>
    let c := storeB 2 8 (r.addr + 8) r.high now (storeB 2 8 r.addr r.low now c)
    c.mapDev (fun d => { d with evc :=
      ({ d.evc with due := l, wp := if r.stale then d.evc.wp else d.evc.wp + 1 }).drive })

/-! ## Host operations (R386, R387, R389, R392, R395) -/

/-- R386: a software set of source `s` at `now`. -/
def softSet (s : SourceNo) (dt : BitVec 16) (now : Nat) (d : Device) : Device :=
  let e := d.evc
  let x := e.src.at s
  if e.isLevel s then d.srcUpd s (fun x => { x with soft := some (dt, now) }.count)
  else
    let d := if Source.drops false x then { d with evc := { e with drops := satInc 32 e.drops } } else d
    d.srcUpd s (Source.take false ⟨0x11, dt, now, now, 2⟩)

/-- R387: EVC_DONE. -/
def evcDone (s : SourceNo) (d : Device) : Device :=
  if d.evc.isLevel s then d.srcUpd s (fun x => { x with claim := false }) else d

/-- R387: EVC_CLR. -/
def evcClr (s : SourceNo) (d : Device) : Device := d.srcUpd s Source.clear

/-- R387: a write of EVC_MODEi clears each source whose mode it changes. -/
def evcMode (i : Fin 8) (v : Word) (d : Device) : Device :=
  let old := d.evc.mode.at i
  let d := (fins 32).foldl (fun d j =>
    if bitOf old j.val != bitOf v j.val then evcClr (Fin.ofNat 256 (32 * i.val + j.val)) d else d) d
  { d with evc := { d.evc with mode := d.evc.mode.put i v } }

/-- R389: a write of EVC_MASKi lands; the port completes it only once WP equals RSV. -/
def evcMask (i : Fin 8) (v : Word) (d : Device) : Device :=
  { d with evc := { d.evc with mask := d.evc.mask.put i v, maskWait := d.evc.wp != d.evc.rsv } }

/-- R397: the address of EVC_MASKi. -/
def maskAddr (i : Fin 8) : Word := w32 (0x003B_0100 + 4 * i.val)

/-- R389, R405: the host writes EVC_MASKi. It waits behind earlier accesses, and holds the port until it completes. -/
def maskWrite (i : Fin 8) (v : Word) (d : Device) : Device :=
  let put (d : Device) : Device := { d with hps := { d.hps with q := d.hps.q ++ [.write (maskAddr i) v] } }
  if d.hps.q.isEmpty then
    let d := evcMask i v d
    if d.evc.maskWait then put d else d
  else put d

/-- R395: a write of EVC_RP, or its refusal. -/
def evcRp (v : Word) (d : Device) : Device :=
  let e := d.evc
  if (v - e.rp).toNat ≤ (e.wp - e.rp).toNat then { d with evc := ({ e with rp := v }.unfull).drive }
  else { d with evc := { e with rpref := true } }

/-- R391, R392: EN may be set: SIZE, BASE and the banks of the ring. -/
def ringOk (d : Device) : Bool :=
  let e := d.evc
  let b := e.rbase.toNat
  let n := e.slots
  decide (6 ≤ e.size.toNat ∧ e.size.toNat ≤ 12) &&
  (if e.layout then b % 16 == 0 && decide (b + 128 * n ≤ 0x200000) else b % (16 * n) == 0 && decide (b + 16 * n ≤ 0x200000)) &&
  (fins 16).all (fun k => !ringUses k { e with en := true } || (d.mem.bank.at k).st == .on)

/-- R392: EN goes from 0 to 1, or the enable is refused. -/
def ringEnable (d : Device) : Device :=
  if ringOk d then
    { d with evc := ({ d.evc with en := true, wp := 0, rp := 0, rsv := 0
                                  due := d.evc.due.map (fun (r : Rec) => { r with stale := true }) }.unfull).drive }
  else { d with evc := { d.evc with cfgref := true } }

/-- R392: EN goes from 1 to 0. -/
def ringDisable (d : Device) : Device := { d with evc := ({ d.evc with en := false }).drive }

/-- R392, R397: a write of EVC_RCFG. -/
def writeRcfg (v : Word) (d : Device) : Device :=
  let e := d.evc
  let size : BitVec 4 := BitVec.ofNat 4 (fld v 3 0)
  let lay := bitOf v 4
  let on := bitOf v 5
  let other := size != e.size || lay != e.layout
  if e.en then
    let d := if other then { d with evc := { e with cfgref := true } } else d
    if on then d else ringDisable d
  else
    let d := { d with evc := { e with size := size, layout := lay } }
    if on then ringEnable d else d

/-- R392: a write of EVC_RBASE. -/
def writeRbase (v : Word) (d : Device) : Device :=
  let b := v &&& 0x001F_FFF0
  if d.evc.en then (if b != d.evc.rbase then { d with evc := { d.evc with cfgref := true } } else d)
  else { d with evc := { d.evc with rbase := b } }

/-- R385, R388: the event controller after step 6 of `now`. -/
def evcStep (now : Nat) (d : Device) : Device := reserve (fun _ => true) now (sampleLevels { d with evc := d.evc.unfull })

/-- R388: the reservation of this boundary, made before its steps 3 to 6: of a record that no cause of those steps, which
carries this boundary as its stamp, can precede. -/
def reserveEarly (now : Nat) (d : Device) : Device :=
  reserve (fun r => decide (r.stamp < now)) now (sampleLevels { d with evc := d.evc.unfull })

/-! ## The commands -/

def execRecordReservation (s : State) : Host.Outcome State Fault Refusal := s.runDev reserveEarly
def execRecordWrite (s : State) : Host.Outcome State Fault Refusal := s.run recordWrite
def execSoftwareSet (src : SourceNo) (detail : BitVec 16) (s : State) : Host.Outcome State Fault Refusal :=
  s.runDev (softSet src detail)
def execEvcDone (src : SourceNo) (s : State) : Host.Outcome State Fault Refusal := s.runDev (fun _ => evcDone src)
def execEvcClr (src : SourceNo) (s : State) : Host.Outcome State Fault Refusal := s.runDev (fun _ => evcClr src)
def execEvcMode (i : Fin 8) (v : Word) (s : State) : Host.Outcome State Fault Refusal := s.runDev (fun _ => evcMode i v)
def execEvcMask (i : Fin 8) (v : Word) (s : State) : Host.Outcome State Fault Refusal := s.runDev (fun _ => maskWrite i v)
def execEvcRp (v : Word) (s : State) : Host.Outcome State Fault Refusal := s.runDev (fun _ => evcRp v)
def execRingEnable (size : BitVec 4) (layout : Bool) (s : State) : Host.Outcome State Fault Refusal :=
  s.runDev (fun _ => writeRcfg (w32 (size.toNat + 16 * layout.toNat + 32)))
def execRingDisable (s : State) : Host.Outcome State Fault Refusal :=
  s.runDev (fun _ d => if d.evc.en then ringDisable d else d)

end Sys2Proof.Machine
end

