-- ==== Sys2Proof/Machine/Image.lean ====
section
/-! DEFINITION. The open-store image: its layout, the lint and the load (R251 to R259). -/

namespace Sys2Proof.Machine

open Sys2Proof

/-! ## The image (R256) -/

/-- R256: the header fields of an image, big-endian. -/
structure ImgHead where
  magic  : Nat
  fver   : Nat
  flags  : Nat
  target : Nat
  step   : Nat
  svn    : Nat
  paylen : Nat
  iv     : List Byte
  nw     : Nat
  nd     : Nat
  zero   : List Byte
  qx     : Nat
  qy     : Nat
  deriving DecidableEq, Repr

/-- R256: bytes 0 to 127. -/
def imgHead (b : List Byte) : ImgHead :=
  let f (lo n : Nat) : Nat := octNat (octets b lo n)
  { magic := f 0 4, fver := f 4 2, flags := f 6 2, target := f 8 4, step := f 12 4, svn := f 16 4, paylen := f 20 4
    iv := octets b 24 12, nw := f 36 4, nd := f 40 4, zero := octets b 44 20, qx := f 64 32, qy := f 96 32 }

/-- R257: the total length of an image. -/
def ImgHead.total (h : ImgHead) : Nat := 128 + h.paylen + 80

def imgMagic : Nat := 0x4D4C_4D53
/-- R2: SYS_ID and SYS_STEP. -/
def sysId : Nat := 0x4D4C_5120
def sysStep : Nat := 0xB1
/-- R254: microwords of the open store, and its first micro-address. -/
def storeWords : Nat := 24576
def storeBase : Nat := 0xA000
/-- R256: the largest image. -/
def imgMax : Nat := 128 + 8 * 191 + 4 * storeWords + 80

/-- R256: a dispatch record: opcode and entry word. -/
def imgRec (b : List Byte) : Nat × Word := ((b.getD 0 0).toNat, w32 (octNat (octets b 4 4)))

/-- R256: the records of a decrypted payload. -/
def imgRecs (nd : Nat) (p : List Byte) : List (Nat × Word) := (blocksOf 8 nd p).map imgRec

/-- R256: the microwords of a decrypted payload. -/
def imgWords (nd nw : Nat) (p : List Byte) : List Word := (blocksOf 4 nw (p.drop (8 * nd))).map (fun b => w32 (octNat b))

/-! ## Dispatch records (R252, R253) -/

def entUaddr (w : Word) : Nat := fld w 15 0
def entFmt (w : Word) : Nat := fld w 18 16
def entX (w : Word) : Bool := bitOf w 19
def entValid (w : Word) : Bool := bitOf w 20

/-- R252: FMT and X of the ROM entry; an opcode without a routine has an empty entry. -/
def romEntFmt (op : Nat) : Nat := if romValid op then romFmt op else 0
def romEntX (op : Nat) : Bool := romValid op && romX op

/-- R257 step 9: one record. -/
def recOk (nw : Nat) (r : Nat × Word) : Bool :=
  let op := r.1
  let custom := 0xE0 ≤ op && op ≤ 0xFF
  let patch := 1 ≤ op && op ≤ 0x9F
  (custom || patch) && storeBase ≤ entUaddr r.2 && entUaddr r.2 < storeBase + nw && entFmt r.2 ≤ 5 &&
    (custom || (entFmt r.2 == romEntFmt op && entX r.2 == romEntX op))

/-- R257 step 9: no opcode twice. -/
def opsDistinct : List (Nat × Word) → Bool
  | [] => true
  | r :: l => l.all (fun x => x.1 != r.1) && opsDistinct l

/-- R252, R253: the entry that a record loads. -/
def recEntry (r : Nat × Word) : DispRec :=
  ⟨BitVec.ofNat 8 r.1, BitVec.ofNat 16 (entUaddr r.2), BitVec.ofNat 3 (entFmt r.2), entX r.2⟩

/-- R252: HLM_DTAB[n] of a ROM routine; its micro-address is open. -/
def romEntry (op : Nat) : Word :=
  if romValid op then
    w32 ((Config.romUaddr (BitVec.ofNat 8 op)).toNat % storeBase + 65536 * romFmt op + 524288 * (romX op).toNat + 1048576)
  else 0

/-- R252, R253: HLM_DTAB[n], as masked in the current MODE. -/
def Helm.dtab (h : Helm) (op : Nat) : Word :=
  match h.openRec op with
  | some r => w32 (r.uaddr.toNat + 65536 * r.fmt.toNat + 524288 * r.x.toNat + 3145728)
  | none => romEntry op

/-! ## The lint (R246 to R251, R257 step 10) -/

def mDst : Nat := 0x03E0_0000
def mA : Nat := 0x001F_0000
def mB : Nat := 0x0000_F800

/-- R249: the bits of a microword that its operation uses, besides the op; none for an unassigned op. -/
def uUsed (w : Word) : Option Nat :=
  let idx := if bitOf w 8 then mA + 0x700 else 0x70F
  match uOp w with
  | 0x00 | 0x39 | 0x3E | 0x3F => some 0
  | 0x01 | 0x02 | 0x03 | 0x04 | 0x05 | 0x06 | 0x07 | 0x08 | 0x09 | 0x0A | 0x0B | 0x0C =>
    some (mDst + mA + 0x7C0 + (if bitOf w 6 then 0x3F else mB))
  | 0x0D => some (mA + 0x7C0 + (if bitOf w 6 then 0x3F else mB))
  | 0x0E => some (mDst + 0x7FF)
  | 0x0F | 0x10 | 0x11 | 0x28 => some (mDst + mA + 0x7FF)
  | 0x12 => some (mDst + mA + mB + 0x7FF)
  | 0x13 => some (mDst + 0xF)
  | 0x14 => some (0x01E0_0000 + 0x7FF)
  | 0x15 | 0x1A | 0x27 | 0x2C => some mDst
  | 0x18 => some (mDst + idx)
  | 0x19 => some (mB + idx)
  | 0x1B => some (mA + 0xF)
  | 0x1C => some mA
  | 0x20 => some (mDst + mA + 1)
  | 0x21 => some (mDst + mA + (if bitOf w 8 then 0x700 else 0x70F))
  | 0x22 => some (mDst + mA + 0x3FC)
  | 0x23 | 0x24 => some (mDst + mA + 0x7F)
  | 0x25 => some (mDst + 0x3F)
  | 0x26 => some (mDst + 7)
  | 0x2D => some (mDst + mA + mB + 0x7F)
  | 0x2E => some (mDst + mA + 0xF)
  | 0x2F => some (mDst + 0xF)
  | 0x30 =>
    match fld w 2 0 with
    | 0 | 2 => some (mA + mB + 7)
    | 1 => some (mA + 7)
    | 3 => some (mA + mB + 0xF)
    | 4 => some (mA + mB + 0xF7)
    | 5 => some 7
    | _ => none
  | 0x31 => some (mDst + mA + mB + 7)
  | 0x32 => some (mA + 0x7FF)
  | 0x38 => some 0xF
  | 0x3A => some 0x7FF
  | _ => none

/-- R247, R249: the values rejected at load: W 3, a field past bit 63, WRR of class 3, CAPQ into m31. -/
def uValueOk (w : Word) : Bool :=
  let op := uOp w
  if 0x01 ≤ op && op ≤ 0x0D then fld w 10 9 != 3
  else if op == 0x10 || op == 0x11 || op == 0x12 then decide (uLsb w + uLen w ≤ 64)
  else if op == 0x19 then fld w 10 9 != 3
  else if op == 0x2F then decide (uDst w ≤ 30)
  else true

/-- R257 step 10: an assigned op with its reserved fields 0. -/
def uWordOk (w : Word) : Bool :=
  match uUsed w with
  | some m => w.toNat % 67108864 &&& m == w.toNat % 67108864 && uValueOk w
  | none => false

/-- R249: the operation may stand after COMMIT. -/
def uTail (w : Word) : Bool :=
  let op := uOp w
  op ≤ 0x15 || (0x18 ≤ op && op ≤ 0x1C) || op == 0x3F

/-- R257: the operation ends a path. -/
def uEnds (w : Word) : Bool := uOp w == 0x3F || uOp w == 0x38 || uOp w == 0x3A

/-- A place on a path: word index, and how many microwords may still follow COMMIT (none before it). -/
structure LintAt where
  i    : Nat
  tail : Option Nat
  deriving DecidableEq, Repr

/-- The word indexes that may follow word `i` (BR with condition AL only branches). -/
def uNexts (i : Nat) (w : Word) : List Int :=
  if uEnds w then []
  else if uOp w = 0x14 then
    let t := (i : Int) + 1 + signedOf 11 (uCtl w)
    if fld w 24 21 = 0 then [t] else [t, (i : Int) + 1]
  else [(i : Int) + 1]

/-- R251, R257: the places after a place, or none where the path breaks a rule. -/
def lintNext (ws : List Word) (p : LintAt) : Option (List LintAt) :=
  match ws[p.i]? with
  | none => none
  | some w =>
    let inTail := p.tail.isSome
    let ns := uNexts p.i w
    if !uWordOk w || (inTail && !uTail w) || p.tail == some 0 then none
    else if inTail && ns.any (fun n => decide (n ≤ (p.i : Int))) then none
    else if ns.any (fun n => decide (n < 0) || decide ((ws.length : Int) ≤ n)) then none
    else
      let t := if uOp w = 0x3E then some 16 else p.tail.map (· - 1)
      some (ns.map (fun n => ⟨n.toNat, t⟩))

/-- The places reached from a work list, with those already seen; none where a path breaks a rule. -/
def lintWalk (ws : List Word) : Nat → List LintAt → List LintAt → Option (List LintAt)
  | 0, _, _ => none
  | _ + 1, seen, [] => some seen
  | f + 1, seen, p :: l =>
    if seen.contains p then lintWalk ws f seen l
    else match lintNext ws p with
      | none => none
      | some ns => lintWalk ws f (p :: seen) (ns ++ l)

/-- The places from which a path ends, grown `f` times. -/
def lintEnds (ws : List Word) (all : List LintAt) : Nat → List LintAt → List LintAt
  | 0, e => e
  | f + 1, e =>
    let more := all.filter (fun p => !e.contains p && ((lintNext ws p).getD []).any (fun n => e.contains n))
    if more.isEmpty then e else lintEnds ws all f (more ++ e)

/-- R257 step 10: every path from every record's UADDR. A word is reached before COMMIT, or with 0 to 16 microwords
left after it, so there are at most 18 places a word. -/
def lintOk (ws : List Word) (recs : List (Nat × Word)) : Bool :=
  let start := recs.map (fun r => (⟨entUaddr r.2 - storeBase, none⟩ : LintAt))
  match lintWalk ws (3 * 18 * ws.length + recs.length + 1) [] start with
  | none => false
  | some all =>
    let ends := all.filter (fun p => match ws[p.i]? with | some w => uEnds w | none => false)
    (lintEnds ws all all.length ends).length == all.length

/-! ## The load (R257) -/

/-- R422: a fuse slot that failed its check counts as unprogrammed. -/
def Fuses.good {α : Type} (f : Fuses) (sel : Fin 5) (slot : Fin 4) (v : Option α) : Option α :=
  if f.bad.contains ⟨sel, slot⟩ then none else v

/-- R423: the image key and the public-key hash in use. -/
def Fuses.imageKey (f : Fuses) : Option (BitVec 128) := f.good 3 (Fin.ofNat 4 f.ikslot.val) (f.ikey.at f.ikslot)
def Fuses.imageHash (f : Fuses) : Option (BitVec 256) := f.good 4 (Fin.ofNat 4 f.ikslot.val) (f.pkh.at f.ikslot)

/-- R257 steps 2 to 8 on an image of `len` bytes: the ERR code of the first that fails. -/
def imgCheck (f : Fuses) (b : List Byte) (len : Nat) : Nat :=
  let h := imgHead b
  let text := b.take (128 + h.paylen)
  let tag := octets b (128 + h.paylen) 16
  let sig := octets b (144 + h.paylen) 64
  if h.magic ≠ imgMagic ∨ h.fver ≠ 1 ∨ 2 ≤ h.flags ∨ h.zero.any (· != 0) then 1
  else if h.target ≠ sysId ∨ sysStep < h.step then 2
  else if storeWords < h.nw ∨ 191 < h.nd ∨ h.paylen ≠ 8 * h.nd + 4 * h.nw ∨ len ≠ h.total then 3
  else if h.svn < f.svnmin then 4
  else if f.imageHash.map (fun k => beBytes 32 k.toNat) ≠ some (sha256 (octets b 64 64)) then 5
  else if !ecdsaVerify h.qx h.qy (text ++ tag) (octNat (octets sig 0 32)) (octNat (octets sig 32 32)) then 6
  else match f.imageKey with
    | none => 7
    | some k => if gcmTag (beBytes 16 k.toNat) h.iv (b.take 128) (text.drop 128) = tag then 0 else 7

/-- R257 step 8: the decrypted payload. -/
def imgPayload (f : Fuses) (b : List Byte) : List Byte :=
  let h := imgHead b
  match f.imageKey with
  | none => []
  | some k => gcmCrypt (beBytes 16 k.toNat) h.iv (octets b 128 h.paylen)

/-- R257 steps 9 and 10. -/
def payloadCheck (recs : List (Nat × Word)) (ws : List Word) : Nat :=
  if !recs.all (recOk ws.length) || !opsDistinct recs then 8 else if !lintOk ws recs then 9 else 0

/-- R259: a SECURITY record of source 249. -/
def raiseLoad (cause arg now : Nat) (d : Device) : Device := raise 2 249 0x0D cause arg now d

/-- R257: the load stops with an ERR code; MODE is RECOVERY. -/
def loadFail (err now : Nat) (c : Core) : Core :=
  c.mapDev (fun d => raiseLoad 1 err now { d with hlm := { d.hlm with
    err := err, mode := .recovery, waithost := false, reload := false } })

/-- R257 step 11: the microwords are written. -/
def storeLoad (ws : List Word) (r : Ram) : Ram :=
  (List.zip (nats ws.length) ws).foldl (fun r x => r.storeWrite 4 (4 * x.1) x.2.toNat) { r with store := [] }

/-- R257 step 12: the store is locked and the OPEN entries are loaded. -/
def loadDone (h : ImgHead) (recs : List (Nat × Word)) (now : Nat) (c : Core) : Core :=
  { c with
    dev := raiseLoad 2 0 now { c.dev with hlm := { c.dev.hlm with
      loaded := true, locked := true, waithost := false, err := 0, svn := h.svn, nw := h.nw, nd := h.nd
      readable := decide (h.flags % 2 = 1), recs := (recs.filter (fun r => entValid r.2)).map recEntry } } }

/-- R257 steps 2 to 12 on an image of `len` bytes; `storeOk`: the microwords read back as they were written. -/
def loadImage (b : List Byte) (len : Nat) (storeOk : Bool) (now : Nat) (c : Core) : Core :=
  let e := imgCheck c.dev.fuses b len
  if e ≠ 0 then loadFail e now c
  else
    let h := imgHead b
    let p := imgPayload c.dev.fuses b
    let recs := imgRecs h.nd p
    let ws := imgWords h.nd h.nw p
    let e := payloadCheck recs ws
    if e ≠ 0 then loadFail e now c
    else
      let c := c.mapRam (storeLoad ws)
      if storeOk then loadDone h recs now c else loadFail 11 now c

/-- R257 step 1: the image comes from the boot port, or the boot ROM waits for the host. A flash that ends inside
the image is a SOURCE failure. -/
def loadFlash (flash : List Byte) (storeOk : Bool) (now : Nat) (c : Core) : Core :=
  let h := imgHead flash
  if flash.length < 4 ∨ h.magic ≠ imgMagic then
    c.mapDev (fun d => { d with hlm := { d.hlm with waithost := true } })
  else
    let c := c.mapDev (fun d => { d with hlm := { d.hlm with src := 1 } })
    if flash.length < 128 ∨ flash.length < min h.total imgMax then loadFail 10 now c
    else loadImage (flash.take h.total) h.total storeOk now c

/-- R257 step 1: the image that the host placed in the data banks. -/
def loadHost (storeOk : Bool) (now : Nat) (c : Core) : Core :=
  let n := c.dev.hlm.len
  let c := c.mapDev (fun d => { d with hlm := { d.hlm with src := 2 } })
  if (fins 16).all (fun b => bankPowered? c.dev b) then
    loadImage ((nats (max n 128)).map (fun a => BitVec.ofNat 8 (c.ram.bankRead 1 a))) n storeOk now c
  else loadFail 10 now c
where
  bankPowered? (d : Device) (b : BankNo) : Bool := d.bankOn (8 * b.val)

/-- R257: HLM_OS_CTL.HOSTGO. -/
def hostGo (storeOk : Bool) (now : Nat) (c : Core) : Core :=
  if c.dev.hlm.waithost then loadHost storeOk now c else c

/-- R257: HLM_OS_CTL.SKIP. -/
def hostSkip (d : Device) : Device :=
  if d.hlm.waithost then
    { d with hlm := { d.hlm with waithost := false, err := 0, mode := .recovery, reload := false } }
  else d

/-- R258: a load after STORELOAD that locked the store sets MODE to NORMAL at the first boundary after the lock. -/
def reloadStep (d : Device) : Device :=
  if d.hlm.reload && d.hlm.locked then { d with hlm := { d.hlm with reload := false, mode := .normal } } else d

def execHostgo (storeOk : Bool) (s : State) : Host.Outcome State Fault Refusal := s.run (hostGo storeOk)
def execSkip (s : State) : Host.Outcome State Fault Refusal := s.runDev (fun _ => hostSkip)

end Sys2Proof.Machine
end

