-- ==== Sys2Proof/Machine/Keyed.lean ====
section
/-! DEFINITION. Keyed commands (R409 to R423) and the debug response (R426). -/

namespace Sys2Proof.Machine

open Sys2Proof

/-! ## Records (R428) -/

def raiseKey (cause arg now : Nat) (d : Device) : Device := raise 2 242 0x0D cause arg now d
def raiseDbg (cause arg now : Nat) (d : Device) : Device := raise 2 252 0x0D cause arg now d

/-! ## Keys, nonce and counter -/

/-- R421: a new nonce is drawn. -/
def drawNonce (d : Device) : Device :=
  { d with key := { d.key with nonce := Config.nonce d.free }, free := d.free + 1 }

/-- R423: the command key in effect; with PROV = 1 and no good slot there is none. -/
def Fuses.commandKey (f : Fuses) : Option (BitVec 128) :=
  if f.prov then f.good 1 f.ckslot (f.ckey.at f.ckslot) else some 0

/-- R423: the debug key in effect. -/
def Fuses.debugKey (f : Fuses) : Option (BitVec 128) := f.good 2 f.dkslot (f.dkey.at f.dkslot)

/-- R412: the command counter. -/
def Keel.counter (k : Keel) : DWord := k.ctr.at k.ctrCur

/-- R412: the counter is written into the older slot, which becomes current. -/
def Keel.setCounter (v : DWord) (k : Keel) : Keel :=
  let o : Fin 2 := if k.ctrCur = 0 then 1 else 0
  { k with ctr := k.ctr.put o v, ctrCur := o }

/-! ## The block (R409, R410) -/

/-- A command block of 16 words. -/
abbrev Block := Tab Word 16

def Block.word (b : Block) (i : Nat) : Word := b.at (Fin.ofNat 16 i)
def Block.opc (b : Block) : Nat := fld (b.word 0) 7 0
def Block.alen (b : Block) : Nat := fld (b.word 0) 15 8
def Block.cnt (b : Block) : DWord := BitVec.ofNat 64 (join64 (b.word 1) (b.word 2))
def Block.arg (b : Block) (i : Nat) : Word := b.word (3 + i)
def Block.args (b : Block) : List Word := (nats b.alen).map b.arg
def Block.mac (b : Block) : List Byte := [12, 13, 14, 15].flatMap (fun i => beBytes 4 (b.word i).toNat)

/-- R409: the block that the host writes for a command. -/
def Block.make (opc : Nat) (cnt : DWord) (args : List Word) (mac : BitVec 128) : Block :=
  Vector.ofFn (fun i =>
    if i.val = 0 then w32 (opc + 256 * (args.length % 256))
    else if i.val = 1 then lo32 cnt.toNat
    else if i.val = 2 then hi32 cnt.toNat
    else if i.val < 12 then args.getD (i.val - 3) 0
    else w32 (mac.toNat >>> (32 * (15 - i.val))))

/-- R410: CTRSEED and DBGOPEN cover the nonce. -/
def coversNonce (opc : Nat) : Bool := opc == 9 || opc == 6

/-- R410: the message of the MAC. -/
def Block.message (b : Block) (d : Device) : List Byte :=
  beBytes 4 0x4D4C_4B43 ++ beBytes 8 d.fuses.duid.toNat ++ beBytes 1 b.opc ++ beBytes 1 b.alen ++ [0, 0] ++
    beBytes 8 b.cnt.toNat ++ b.args.flatMap (fun w => beBytes 4 w.toNat) ++
    (if coversNonce b.opc then beBytes 16 d.key.nonce.toNat else [])

/-- R411 step 6. -/
def Block.macOk (b : Block) (d : Device) : Bool :=
  match d.fuses.commandKey with
  | some k => cmac (beBytes 16 k.toNat) (b.message d) == b.mac
  | none => false

/-- R415: ALEN of a command. -/
def alenOk (opc n : Nat) : Bool :=
  match opc with
  | 3 => n == 3
  | 4 | 8 => n == 1
  | 5 => 1 ≤ n && n ≤ 9
  | 6 | 7 => n == 4
  | _ => n == 0

/-- R411 step 2. -/
def Block.formatOk (b : Block) : Bool :=
  alenOk b.opc b.alen && fld (b.word 0) 31 16 == 0 &&
    (nats 9).all (fun i => decide (i < b.alen) || b.arg i == 0)

/-- R411 steps 1 to 6: the result, 0 when all pass. -/
def blockCheck (b : Block) (d : Device) : Nat :=
  if ¬ (1 ≤ b.opc ∧ b.opc ≤ 9) then 1
  else if !b.formatOk then 2
  else if d.key.lockEnd.isSome then 3
  else if d.keel.ctrLost ∧ b.opc ≠ 9 then 4
  else if !d.keel.ctrLost ∧ b.opc = 9 then 7
  else if b.opc ≠ 9 ∧ b.cnt.toNat ≤ d.keel.counter.toNat then 5
  else if !b.macOk d then 6
  else 0

/-! ## The debug response (R426) -/

/-- R426: the response that opens the port. -/
def debugResponse (d : Device) : Option (List Byte) :=
  d.fuses.debugKey.map (fun k =>
    cmac (beBytes 16 k.toNat) (beBytes 4 0x4D4C_4442 ++ beBytes 8 d.fuses.duid.toNat ++ beBytes 16 d.key.nonce.toNat))

/-- R426: a response is checked in CLOSED; `how` is 0 for the TAP and 1 for DBGOPEN. -/
def checkResponse (resp : BitVec 128) (how now : Nat) (d : Device) : Device :=
  if debugResponse d = some (beBytes 16 resp.toNat) then
    raiseDbg 1 how now { d with dbg := { d.dbg with opened := true } }
  else
    let t := d.dbg.tries + 1
    let d := raiseDbg 2 t now { d with dbg := { d.dbg with tries := t } }
    if t = 8 then raiseDbg 3 0 now { d with dbg := { d.dbg with exhausted := true } } else d

/-! ## The commands' own checks (R411 step 8, R415 to R420) -/

/-- R440: an ARM is refused unless all of these hold. -/
def armOk (d : Device) : Bool :=
  d.hlm.mode == .normal && d.pwr.hfault == 0 && !d.dbg.extest && d.pwr.vcoreOk && d.pwr.vauxOk

def safeFirst (w : Word) : Nat := fld w 8 0
def safeCount (w : Word) : Nat := fld w 25 16
def safeKind (w : Word) : Bool := bitOf w 31

/-- R416: SAFECFG names a range and a mask. -/
def safecfgOk (a0 a2 : Word) : Bool :=
  let top := if safeKind a0 then 31 else 511
  safeCount a0 != 0 && safeFirst a0 + safeCount a0 ≤ top + 1 && fld a2 2 0 != 0 && !(safeKind a0 && bitOf a2 0)

/-- R418: fuse slots of one kind: programmed and good. -/
def Fuses.slotUsed (f : Fuses) (sel idx : Nat) : Bool :=
  match sel with
  | 1 => (f.good 1 (Fin.ofNat 4 idx) (f.ckey.at (Fin.ofNat 4 idx))).isSome
  | 2 => (f.good 2 (Fin.ofNat 4 idx) (f.dkey.at (Fin.ofNat 4 idx))).isSome
  | 3 => (f.good 3 (Fin.ofNat 4 idx) (f.ikey.at (Fin.ofNat 2 idx))).isSome
  | _ => (f.good 4 (Fin.ofNat 4 idx) (f.pkh.at (Fin.ofNat 2 idx))).isSome

/-- R378: the soft mappings of a bank: spares in use and not fused. -/
def softSpares (b : Bank) : List (Fin 2 × Fin 256) :=
  ((fins 2).filter (fun k => (b.spares.at k).valid && !(b.spares.at k).fused)).map (fun k => (k, (b.spares.at k).row))

/-- R418: SEL, INDEX and ALEN of a FUSE; ARG0 and the number of data words. -/
def fuseNamed (sel idx n : Nat) : Bool :=
  match sel with
  | 1 | 2 => idx ≤ 3 && n == 4
  | 3 => idx ≤ 1 && n == 4
  | 4 => idx ≤ 1 && n == 8
  | 5 => idx == 0 && n == 1
  | 6 => idx ≤ 15 && n == 0
  | 7 | 8 | 9 => idx == 0 && n == 0
  | 10 => idx ≤ 7 && n == 1
  | _ => false

def fuseSel (a0 : Word) : Nat := fld a0 7 0
def fuseIdx (a0 : Word) : Nat := fld a0 15 8

/-- R418: the environment of a burn: Tj as measured, and VAUX, which `vaux` says lies in 1.71 V to 1.89 V. -/
def fuseEnv (vaux : Bool) (d : Device) : Bool := decide (d.thm.tj ≤ 840) && d.pwr.vauxOk && vaux

/-- R418: the result of a FUSE's own checks; the field exists, then its environment, then its column. -/
def fuseCheck (b : Block) (vaux : Bool) (d : Device) : Nat :=
  let sel := fuseSel (b.arg 0)
  let idx := fuseIdx (b.arg 0)
  let f := d.fuses
  if !fuseNamed sel idx (b.alen - 1) then 8
  else if !fuseEnv vaux d then 10
  else match sel with
    | 1 | 2 | 3 | 4 => if f.prov then 7 else if f.slotUsed sel idx then 9 else 0
    | 5 => if (b.arg 1).toNat < f.svnmin ∨ 64 < (b.arg 1).toNat then 8 else 0
    | 6 => if (softSpares (d.mem.bank.at (Fin.ofNat 16 idx))).isEmpty then 8 else 0
    | 7 => if f.dbgClose then 9 else 0
    | 8 => if f.dbgClose then 0 else 7
    | 9 => if f.slotUsed 1 0 then 0 else 7
    | _ => 0

/-- R419: the next higher good slot of a class, below `n`. -/
def nextSlot (good : Nat → Bool) (cur n : Nat) : Option Nat :=
  (nats n).find? (fun j => decide (cur < j) && good j)

/-- R419: the slot that KEYROLL moves to. -/
def rollTo (cls : Nat) (f : Fuses) : Option Nat :=
  match cls with
  | 0 => nextSlot (f.slotUsed 1) f.ckslot.val 4
  | 1 => nextSlot (f.slotUsed 2) f.dkslot.val 4
  | 2 => nextSlot (fun j => f.slotUsed 3 j && f.slotUsed 4 j) f.ikslot.val 2
  | _ => none

/-- R411 step 8: the result of the command's own checks before it acts. -/
def cmdCheck (b : Block) (vaux : Bool) (d : Device) : Nat :=
  match b.opc with
  | 1 => if armOk d then 0 else 7
  | 3 => if safecfgOk (b.arg 0) (b.arg 2) then 0 else 8
  | 4 => if d.hlm.mode = .boot then 7 else if fld (b.arg 0) 1 0 = 1 ∨ fld (b.arg 0) 1 0 = 2 then 0 else 8
  | 5 => fuseCheck b vaux d
  | 6 =>
    match dbgState d with
    | 3 => 12
    | 1 => if d.dbg.exhausted then 12 else 0
    | _ => 7
  | 7 =>
    let ty := fld (b.arg 0) 15 8
    if ty < 1 ∨ 0x0F < ty then 8
    else if (d.glk.at (Fin.ofNat 32 (fld (b.arg 0) 4 0))).kmsg.isSome then 7 else 0
  | 8 => if (rollTo (fld (b.arg 0) 1 0) d.fuses).isSome then 0 else 8
  | _ => 0

/-! ## The commands' effects (R411 step 9) -/

/-- R440: ARM. -/
def armAct (now : Nat) (d : Device) : Device :=
  if d.pwr.armed then d
  else raise 2 241 0x0C 0x03 1 now { d with pwr := { d.pwr with armed := true, gate := true, permit := true } }

/-- R416: the masked fields of one channel. -/
def safeWrite (v m : Word) (old : Word) : Word :=
  mergeBits ((if bitOf m 0 then 3 else 0) ||| (if bitOf m 1 then 0xF0 else 0) ||| (if bitOf m 2 then 0x100 else 0)) old v

/-- R416: the masked fields of one lookout. -/
def lkoSafeWrite (v m : Word) (old : Word) : Word :=
  mergeBits ((if bitOf m 1 then 0xF else 0) ||| (if bitOf m 2 then 0x10 else 0)) old v

/-- R416: SAFECFG. -/
def safecfgAct (a0 a1 a2 : Word) (d : Device) : Device :=
  let named (i : Nat) : Bool := safeFirst a0 ≤ i && i < safeFirst a0 + safeCount a0
  if safeKind a0 then
    { d with lko := d.lko.mapIdx (fun i l => if named i then { l with safe := lkoSafeWrite a1 a2 l.safe } else l) }
  else
    { d with chn := d.chn.mapIdx (fun i h =>
        if named i then { h with cfg := { h.cfg with safe := safeWrite a1 a2 h.cfg.safe } } else h) }

/-- R258: STORELOAD: channels disabled, PERMIT dropped, the run gate closed, the store reset, and the load begun. -/
def storeloadAct (src now : Nat) (c : Core) : Core :=
  let d := forAll (fun n d => chanDisable n d) c.dev
  let d := dropPermit 2 now d
  { ram := { c.ram with store := [] }
    dev := { d with
      pwr := { d.pwr with gate := false }
      hlm := { d.hlm with
        mode := .recovery, loaded := false, locked := false, waithost := decide (src = 2), err := 0, src := 0, svn := 0
        nw := 0, nd := 0, readable := false, recs := [], reload := true } } }

/-- R418: key words, most significant first. -/
def wordsBits (n : Nat) (l : List Word) : BitVec n := BitVec.ofNat n (l.foldl (fun a w => 4294967296 * a + w.toNat) 0)

/-- R422: a key or hash slot, as its check names it. -/
def fuseField (sel idx : Nat) : FuseCheck := ⟨Fin.ofNat 5 sel, Fin.ofNat 4 idx⟩

/-- R418: the field is burned. -/
def fuseAct (b : Block) (d : Device) : Device :=
  let sel := fuseSel (b.arg 0)
  let idx := fuseIdx (b.arg 0)
  let data := b.args.drop 1
  let f := d.fuses
  let f := if sel < 5 then
      { f with bad := f.bad.filter (fun x => x != fuseField sel idx), cut := f.cut.filter (fun x => x != fuseField sel idx) }
    else f
  match sel with
  | 1 => { d with fuses := { f with ckey := f.ckey.put (Fin.ofNat 4 idx) (some (wordsBits 128 data)) } }
  | 2 => { d with fuses := { f with dkey := f.dkey.put (Fin.ofNat 4 idx) (some (wordsBits 128 data)) } }
  | 3 => { d with fuses := { f with ikey := f.ikey.put (Fin.ofNat 2 idx) (some (wordsBits 128 data)) } }
  | 4 => { d with fuses := { f with pkh := f.pkh.put (Fin.ofNat 2 idx) (some (wordsBits 256 data)) } }
  | 5 => { d with fuses := { f with svnmin := (b.arg 1).toNat } }
  | 6 =>
    let k : BankNo := Fin.ofNat 16 idx
    let soft := softSpares (d.mem.bank.at k)
    { d with fuses := { f with repair := f.repair.upd k (fun l => l ++ soft) } }.bankUpd k (fun x =>
      { x with spares := x.spares.map (fun (s : Spare) => if s.valid then { s with fused := true } else s) })
  | 7 => { d with fuses := { f with closeC := 7 } }
  | 8 => { d with fuses := { f with permC := 7 } }
  | 9 => { d with fuses := { f with provC := 7 } }
  | _ => { d with fuses := { f with ufuse := f.ufuse.upd (Fin.ofNat 8 idx) (fun w => w ||| b.arg 1) } }

/-- R419, R422: a thermometer is burned up to slot `j`, all three copies of each bit, or those that `m` reaches. -/
def burnTo {n : Nat} (j : Nat) (m : Nat → BitVec 3) (t : Tab (BitVec 3) n) : Tab (BitVec 3) n :=
  t.mapIdx (fun i x => if i < j then x ||| m i else x)

/-- R419: the selector of class `cls` is burned up to slot `j`. -/
def rollSlot (cls j : Nat) (m : Nat → BitVec 3) (f : Fuses) : Fuses :=
  match cls with
  | 0 => { f with ckT := burnTo j m f.ckT }
  | 1 => { f with dkT := burnTo j m f.dkT }
  | _ => { f with ikT := burnTo j m f.ikT }

/-- R419: KEYROLL. -/
def keyrollAct (cls : Nat) (d : Device) : Device :=
  match rollTo cls d.fuses with
  | none => d
  | some j => { d with fuses := rollSlot cls j (fun _ => 7) d.fuses }

/-- R420: CTRSEED. -/
def ctrseedAct (cnt : DWord) (d : Device) : Device :=
  { d with keel := { d.keel with ctr := Tab.all cnt, ctrLost := false } }

/-- R417: the ten body bytes of ARG1 to ARG3. -/
def linkcfgBody (b : Block) : Tab Byte 10 :=
  let l := beBytes 4 (b.arg 1).toNat ++ beBytes 4 (b.arg 2).toNat ++ beBytes 4 (b.arg 3).toNat
  Vector.ofFn (fun i => l.getD i.val 0)

/-- R411 step 9: what the command does at A. -/
def cmdAct (b : Block) (now : Nat) (c : Core) : Core :=
  match b.opc with
  | 1 => c.mapDev (armAct now)
  | 2 => c.mapDev (dropPermit 2 now)
  | 3 => c.mapDev (safecfgAct (b.arg 0) (b.arg 1) (b.arg 2))
  | 4 => storeloadAct (fld (b.arg 0) 1 0) now c
  | 5 => c.mapDev (fuseAct b)
  | 6 => c.mapDev (checkResponse (wordsBits 128 b.args) 1 now)
  | 7 => c.mapDev (queueKeyed (Fin.ofNat 32 (fld (b.arg 0) 4 0)) (BitVec.ofNat 8 (fld (b.arg 0) 15 8)) (linkcfgBody b))
  | 8 => c.mapDev (keyrollAct (fld (b.arg 0) 1 0))
  | _ => c.mapDev (ctrseedAct b.cnt)

/-- R411, R426: the result once the command has acted: a wrong debug response is RESP. -/
def cmdResult (b : Block) (d : Device) : Nat := if b.opc = 6 ∧ !d.dbg.opened then 11 else 0

/-! ## Processing a block (R411 to R414) -/

/-- R414: DONE, the result, and the ACCEPTED or REFUSED record; the nonce of R421. -/
def cmdEnd (b : Block) (res : Nat) (reached6 : Bool) (now : Nat) (d : Device) : Device :=
  let d := if coversNonce b.opc && reached6 then drawNonce d else d
  let d := { d with key := { d.key with job := none, done := true, result := res, opc := b.opc } }
  if res = 0 then raiseKey 1 b.opc now d else raiseKey 2 res now d

/-- R411: a BADMAC counts, and the eighth in a row starts a lockout of 1 s. -/
def badMac (now : Nat) (d : Device) : Device :=
  let n := min 8 (d.key.badmac + 1)
  let d := { d with key := { d.key with badmac := n } }
  if n = 8 then raiseKey 5 0 now { d with key := { d.key with lockEnd := some (now + 8000000000) } } else d

/-- R411: the block is processed, and the command acts at the boundary `now`. -/
def runBlock (b : Block) (vaux : Bool) (now : Nat) (c : Core) : Core :=
  let r := blockCheck b c.dev
  if r ≠ 0 then
    c.mapDev (fun d => cmdEnd b r (r == 6) now (if r = 6 then badMac now d else d))
  else
    let c := c.mapDev (fun d => { d with
      keel := d.keel.setCounter b.cnt, key := { d.key with badmac := 0 } })
    let r := cmdCheck b vaux c.dev
    if r ≠ 0 then c.mapDev (cmdEnd b r true now)
    else
      let c := cmdAct b now c
      c.mapDev (fun d => cmdEnd b (cmdResult b d) true now d)

/-- R409, R413, R414: a keyed command, from its block and GO to its boundary A, which is `now` (log 55); unless CMDBUSY. -/
def keyedCommand (b : Block) (vaux : Bool) (now : Nat) (c : Core) : Core :=
  if c.dev.key.job.isSome then c.mapDev (fun d => { d with hps := { d.hps with cmdref := true } })
  else runBlock b vaux now (c.mapDev (fun d => { d with key := { d.key with buf := b } }))

/-- R409, R414: HPS_CMD.GO written 1: the block in HPS_CMDBUF is taken for processing. -/
def cmdGo (now : Nat) (d : Device) : Device :=
  if d.key.job.isSome then { d with hps := { d.hps with cmdref := true } }
  else { d with key := { d.key with job := some d.key.buf, goAt := now } }

/-- R413: the block in process acts at the first boundary after that of its GO, by which its keel write has completed (log 55).
Whether VAUX then lies in the narrower window of R418 is open (log entry 3). -/
def jobStep (now : Nat) (c : Core) : Core :=
  match c.dev.key.job with
  | none => c
  | some b => if c.dev.key.goAt = now then c else runBlock b (Config.bit c.dev.free) now (c.mapDev Device.freeTaken)

/-! ## Burns cut off by power loss (R412, R422) -/

/-- R422: the copies of a single-bit fuse that a burn cut off has reached: a free value. -/
def cutCopies (d : Device) (i : Nat) : BitVec 3 := BitVec.ofNat 3 (d.freeWord.toNat / 8 ^ i)

/-- R422: a FUSE is cut off by power loss: a key or hash slot becomes unusable, and of every other field some bits have been
burned (free values). -/
def fuseCut (b : Block) (d : Device) : Device :=
  let sel := fuseSel (b.arg 0)
  let idx := fuseIdx (b.arg 0)
  let f := d.fuses
  let part := d.freeWord &&& b.arg 1
  if sel < 5 then
    let d := fuseAct b d
    { d with fuses := { d.fuses with bad := d.fuses.bad ++ [fuseField sel idx], cut := d.fuses.cut ++ [fuseField sel idx] } }
  else
    match sel with
    | 5 => { d with fuses := { f with svnmin := f.svnmin + d.freeWord.toNat % ((b.arg 1).toNat - f.svnmin + 1) } }
    | 6 => if Config.bit d.free then fuseAct b d else d
    | 7 => { d with fuses := { f with closeC := f.closeC ||| cutCopies d 0 } }
    | 8 => { d with fuses := { f with permC := f.permC ||| cutCopies d 0 } }
    | 9 => { d with fuses := { f with provC := f.provC ||| cutCopies d 0 } }
    | _ => { d with fuses := { f with ufuse := f.ufuse.upd (Fin.ofNat 8 idx) (fun w => w ||| part) } }

/-- R412, R422: power is lost while block `b` is in process: how far it had come is open; a count that was not written leaves
the counter as it was. -/
def blockCut (b : Block) (d : Device) : Device :=
  let t := d.freeTaken
  if blockCheck b d ≠ 0 || Config.bit d.free then t
  else
    let e := { t.freeTaken with keel := d.keel.setCounter b.cnt }
    if cmdCheck b true d ≠ 0 || Config.bit t.free then e
    else
      match b.opc with
      | 5 => (fuseCut b e).freeTaken
      | 8 =>
        match rollTo (fld (b.arg 0) 1 0) d.fuses with
        | some j => { e.freeTaken with fuses := rollSlot (fld (b.arg 0) 1 0) j (cutCopies e) e.fuses }
        | none => e
      | _ => e

/-- R412, R422: power is lost; a block in process is cut off. -/
def jobCut (d : Device) : Device :=
  match d.key.job with
  | none => d
  | some b => blockCut b d

/-- R411: the lockout ends at its time. -/
def lockoutEnds (now : Nat) (d : Device) : Device :=
  match d.key.lockEnd with
  | some t => if t ≤ now then { d with key := { d.key with lockEnd := none } } else d
  | none => d

/-! ## The commands -/

def execArm (cnt : DWord) (mac : BitVec 128) (s : State) : Host.Outcome State Fault Refusal :=
  s.run (keyedCommand (Block.make 1 cnt [] mac) true)
def execDisarm (cnt : DWord) (mac : BitVec 128) (s : State) : Host.Outcome State Fault Refusal :=
  s.run (keyedCommand (Block.make 2 cnt [] mac) true)
def execSafecfg (cnt : DWord) (mac : BitVec 128) (arg0 arg1 arg2 : Word) (s : State) :
    Host.Outcome State Fault Refusal := s.run (keyedCommand (Block.make 3 cnt [arg0, arg1, arg2] mac) true)
def execStoreload (cnt : DWord) (mac : BitVec 128) (arg0 : Word) (s : State) : Host.Outcome State Fault Refusal :=
  s.run (keyedCommand (Block.make 4 cnt [arg0] mac) true)
def execFuse (cnt : DWord) (mac : BitVec 128) (args : List Word) (vaux : Bool) (s : State) :
    Host.Outcome State Fault Refusal := s.run (keyedCommand (Block.make 5 cnt args mac) vaux)
def execDbgopen (cnt : DWord) (mac : BitVec 128) (resp : BitVec 128) (s : State) :
    Host.Outcome State Fault Refusal :=
  s.run (keyedCommand (Block.make 6 cnt
    [w32 (resp.toNat >>> 96), w32 (resp.toNat >>> 64), w32 (resp.toNat >>> 32), w32 resp.toNat] mac) true)
def execLinkcfg (cnt : DWord) (mac : BitVec 128) (arg0 arg1 arg2 arg3 : Word) (s : State) :
    Host.Outcome State Fault Refusal := s.run (keyedCommand (Block.make 7 cnt [arg0, arg1, arg2, arg3] mac) true)
def execKeyroll (cnt : DWord) (mac : BitVec 128) (arg0 : Word) (s : State) : Host.Outcome State Fault Refusal :=
  s.run (keyedCommand (Block.make 8 cnt [arg0] mac) true)
def execCtrseed (cnt : DWord) (mac : BitVec 128) (s : State) : Host.Outcome State Fault Refusal :=
  s.run (keyedCommand (Block.make 9 cnt [] mac) true)
def execLockoutEnd (s : State) : Host.Outcome State Fault Refusal := s.runDev lockoutEnds

end Sys2Proof.Machine
end

