-- ==== Sys2Proof/Machine/Power.lean ====
section
/-! DEFINITION. Resets, the boot flow, supplies, power domains, HALT-class faults and the thermal governor
(R431 to R450). -/

namespace Sys2Proof.Machine

open Sys2Proof

/-- R449: records of the power controller and of the governor. -/
def raisePwr (kind cause arg now : Nat) (d : Device) : Device := raise 2 241 kind cause arg now d
def raiseThm (cause arg now : Nat) (d : Device) : Device := raise 2 240 0x0B cause arg now d

def Device.pwrUpd (f : Pwr → Pwr) (d : Device) : Device := { d with pwr := f d.pwr }
def Device.thmUpd (f : Thermal → Thermal) (d : Device) : Device := { d with thm := f d.thm }

/-! ## Resets (R433, R435) -/

/-- What lies outside the logic and outlasts every reset: KEEL, the fuses, the supplies and what holds the device in
reset, the lookout inputs and the count of free values. -/
def Device.keepAcross (old d : Device) : Device :=
  { d with keel := old.keel, fuses := old.fuses, free := old.free
           pwr := { d.pwr with vcoreIn := old.pwr.vcoreIn, vauxIn := old.pwr.vauxIn, vioIn := old.pwr.vioIn
                               hold := old.pwr.hold }
           lko := d.lko.mapIdx (fun i l => { l with uv := if h : i < 32 then (old.lko.at ⟨i, h⟩).uv else 0 }) }

/-- R435: the memories after a reset: the open store is cleared (R254); the others are defined by the boot flow. -/
def Ram.afterReset (r : Ram) : Ram := { r with store := [] }

/-- R435: a cold reset with PWR_RSTCAUSE `cause`; R422: a burn under way is cut off. -/
def coldReset (cause : BitVec 4) (c : Core) : Core :=
  { ram := c.ram.afterReset
    dev := ((jobCut c.dev).keepAcross Device.reset).pwrUpd (fun p => { p with rstcause := cause }) }

/-- R435: a warm reset keeps KEEL and the sextant; the boot flow starts with FUSE (R436), or waits for the first lock still. -/
def warmReset (c : Core) : Core :=
  { ram := c.ram.afterReset
    dev := { (c.dev.keepAcross Device.reset) with stb := c.dev.stb, port := c.dev.port }.pwrUpd (fun p =>
      { p with rstcause := 4, phase := if c.dev.pwr.phase = Phase.pll then Phase.pll else Phase.fuse }) }

/-- R433, R435: bit `i` of what holds the device in reset. -/
def holdReset (i : Nat) (on : Bool) (d : Device) : Device :=
  d.pwrUpd (fun p => { p with hold := setFld p.hold i i on.toNat })

/-- R433, R435: PORST_N or a power-up resets the device, which stays in cold reset until PORST_N rises. -/
def porst (why : ColdCause) (low : Bool) (c : Core) : Core :=
  if low then (coldReset (match why with | .porstPin => 2 | .powerUp => 1) c).mapDev (holdReset 0 true)
  else c.mapDev (holdReset 0 false)

/-- R435: RST_N low while PORST_N is high. -/
def rstPin (low : Bool) (c : Core) : Core :=
  if !low then c.mapDev (holdReset 1 false)
  else if bitOf c.dev.pwr.hold 0 then c
  else (warmReset c).mapDev (holdReset 1 true)

/-- R433, R434: a core supply below its window: cold reset, which lasts until it is back. -/
def brownOut (w : CoreSupply) (c : Core) : Core :=
  (coldReset 8 c).mapDev (fun d => match w with
    | .vcore => holdReset 2 true (d.pwrUpd (fun p => { p with vcoreIn := false }))
    | .vaux => holdReset 3 true (d.pwrUpd (fun p => { p with vauxIn := false })))

/-! ## Boot flow (R436, R437) -/

/-- R398, R421, R422, R434: the FUSE phase ends. -/
def bootFuse (par : Bool) (bad : List FuseCheck) (vio33 : Byte) (now : Nat) (d : Device) : Device :=
  if d.pwr.phase = .fuse then
    let d := drawNonce { d with
      fuses := { d.fuses with bad := bad ++ d.fuses.cut.filter (fun x => !bad.contains x) }, hps := { d.hps with par := par }
      pwr := { d.pwr with phase := .test, vcoreOk := d.pwr.vcoreIn, vauxOk := d.pwr.vauxIn
                          vioOk := d.pwr.vioIn, vio33 := vio33 } }
    let d := d.fuses.bad.foldl (fun d f => raiseKey 4 f.sel.val now d) d
    if d.keel.ctrLost then raiseKey 3 0 now d else d
  else d

/-- R376, R436: the TEST phase ends. -/
def bootTest (fails : List RowFault) (bad : List SpareFault) (now : Nat) (c : Core) : Core :=
  if c.dev.pwr.phase = .test then
    (startUpRepair fails bad now c).mapDev (Device.pwrUpd (fun p => { p with phase := .clear }))
  else c

/-- R436: the CLEAR phase ends: program memory, almanac, clove LUTs and link buffers are zero. -/
def bootClear (c : Core) : Core :=
  if c.dev.pwr.phase = .clear then
    { ram := { c.ram.clearAlm with prog := [], lut := [], lbuf := [] }
      dev := c.dev.pwrUpd (fun p => { p with phase := .load }) }
  else c

/-- R257, R258: the boot ROM stands before step 1 of a load: in LOAD, or after a STORELOAD. -/
def loadWaits (d : Device) : Bool :=
  !d.hlm.locked && !d.hlm.waithost &&
    ((d.pwr.phase == .load && d.hlm.mode == .boot) || d.hlm.reload)

/-- R257, R471: the boot port answers with what the flash holds; with the supply of its bank absent it reads nothing. -/
def bootLoad (flash : List Byte) (storeOk : Bool) (now : Nat) (c : Core) : Core :=
  if loadWaits c.dev then loadFlash (if bitOf c.dev.pwr.vioIn 6 then flash else []) storeOk now c else c

/-- R260: the engines named by EMASK are in service once the helm runs. -/
def helmStart (d : Device) : Device :=
  { d with hlm := { d.hlm with eng := d.hlm.eng.mapIdx (fun i e =>
      if d.hlm.emask.getLsbD i && !e.fail then { e with insvc := true } else e) } }

def OsMode.num (m : OsMode) : Nat := match m with | .boot => 0 | .normal => 1 | .recovery => 2

/-- R436, R449: READY: MODE, the RESET and BOOTDONE records. -/
def bootReady (now : Nat) (d : Device) : Device :=
  if d.pwr.phase = .load ∧ !d.hlm.waithost ∧ (d.hlm.loaded ∨ d.hlm.mode = .recovery) then
    let m : OsMode := if d.hlm.loaded then .normal else .recovery
    let d := helmStart { d with pwr := { d.pwr with phase := .ready }, hlm := { d.hlm with mode := m } }
    raisePwr 0x0C 0x02 m.num now (raisePwr 0x0C 0x01 d.pwr.rstcause.toNat now d)
  else d

/-- R436: one phase of the boot flow ends. A device held in reset does not boot (R433, R435). -/
def bootFlow (st : BootStage) (now : Nat) (c : Core) : Core :=
  if c.dev.pwr.hold ≠ 0 then c else
  match st with
  | .fuse par bad vio33 => c.mapDev (bootFuse par bad vio33 now)
  | .test fails bad => bootTest fails bad now c
  | .clear => bootClear c
  | .load flash storeOk => bootLoad flash storeOk now c
  | .ready => c.mapDev (bootReady now)

/-- R437: PWR_CTL.ROMRUN. -/
def romRun (d : Device) : Device :=
  if d.hlm.mode = .recovery then d.pwrUpd (fun p => { p with gate := true }) else d

/-! ## Supplies (R434, R442) -/

/-- R434: VCORE or VAUX rises above its window. -/
def supplyHigh (w : CoreSupply) (now : Nat) (d : Device) : Device :=
  match w with
  | .vcore =>
    let d := d.pwrUpd (fun p => { p with vcoreIn := false })
    if d.pwr.vcoreOk then
      haltAll 2 4 now (raisePwr 0x0C 0x05 0 now (d.pwrUpd (fun p => { p with vcoreOk := false }))) else d
  | .vaux =>
    let d := d.pwrUpd (fun p => { p with vauxIn := false })
    if d.pwr.vauxOk then
      haltAll 2 4 now (raisePwr 0x0C 0x05 1 now (d.pwrUpd (fun p => { p with vauxOk := false }))) else d

/-- R434, R442: VIOk leaves its window; before the end of FUSE nothing monitors it. -/
def vioLost (k : Fin 8) (now : Nat) (d : Device) : Device :=
  let d := d.pwrUpd (fun p => { p with vioIn := setFld p.vioIn k.val k.val 0 })
  if d.pwr.vioOk.getLsbD k.val then
    let used := bankInUse k d
    let d := d.pwrUpd (fun p => { p with vioOk := setFld p.vioOk k.val k.val 0 })
    if used then
      let d := raisePwr 0x0C 0x05 (2 + k.val) now d
      let d := d.pwrUpd (fun p => { p with ioLost := setFld p.ioLost k.val k.val 1 })
      setHFault 2 5 0 now (haltChannels (d.enabled.filter (fun c => pinBank c == some k)) d)
    else d
  else d

/-- R434: the monitors show the supplies once FUSE has ended (log 58). -/
def Pwr.monitors (p : Pwr) : Bool := !(p.phase == .pll || p.phase == .fuse)

/-- R433, R434, R443: a supply returns inside its window. -/
def supplyBack (w : Supply) (d : Device) : Device :=
  match w with
  | .core .vcore =>
    holdReset 2 false (d.pwrUpd (fun p => { p with vcoreIn := true, vcoreOk := p.vcoreOk || p.monitors }))
  | .core .vaux =>
    holdReset 3 false (d.pwrUpd (fun p => { p with vauxIn := true, vauxOk := p.vauxOk || p.monitors }))
  | .vio k => d.pwrUpd (fun p => { p with
      vioIn := setFld p.vioIn k.val k.val 1
      vioOk := if p.monitors then setFld p.vioOk k.val k.val 1 else p.vioOk })
  | .vkeel => vkeelBack d

/-! ## Switched domains (R432) -/

def DomSt.num (s : DomSt) : Nat := match s with | .off => 0 | .powering => 1 | .on => 2
def domBit (x : PowerDomain) : Nat := match x with | .alm => 0 | .link => 1 | .ana => 2

def Pwr.dom (p : Pwr) (x : PowerDomain) : DomSt := match x with | .alm => p.alm | .link => p.link | .ana => p.ana
def Pwr.setDom (p : Pwr) (x : PowerDomain) (s : DomSt) : Pwr :=
  match x with | .alm => { p with alm := s } | .link => { p with link := s } | .ana => { p with ana := s }

/-- R432: turning the domain off is refused. -/
def domainInUse (x : PowerDomain) (d : Device) : Bool :=
  match x with
  | .alm => (fins 64).any (fun n => (d.alm.at n).defd)
  | .link => (fins 32).any (fun l => (d.glk.at l).en)
  | .ana => (fins 32).any (fun k => lkEn (d.lko.at k).cfg) || d.snd.en

/-- R432: a request for one domain, or its refusal. -/
def domainAsk (v : BitVec 3) (d : Device) (x : PowerDomain) : Device :=
  let on := v.getLsbD (domBit x)
  if !on && d.pwr.dctl.getLsbD (domBit x) && domainInUse x d then d.pwrUpd (fun p => { p with dref := true })
  else d.pwrUpd (fun p => { p with dctl := setFld p.dctl (domBit x) (domBit x) on.toNat })

/-- R432, R450: a write of PWR_DCTL, domain by domain. -/
def domainRequest (v : BitVec 3) (d : Device) : Device := [.alm, .link, .ana].foldl (domainAsk v) d

/-- R449: the DOMAIN record. -/
def raiseDomain (x : PowerDomain) (s : DomSt) (now : Nat) (d : Device) : Device :=
  raisePwr 0x0C 0x04 (16 * (domBit x) + s.num) now d

/-- R432: a requested change takes effect. -/
def domainChange (x : PowerDomain) (now : Nat) (c : Core) : Core :=
  let s := c.dev.pwr.dom x
  if c.dev.pwr.dctl.getLsbD (domBit x) then
    if s = .off then c.mapDev (fun d => raiseDomain x .powering now (d.pwrUpd (fun p => p.setDom x .powering))) else c
  else if s = .off then c
  else c.mapDev (fun d =>
    let d := raiseDomain x .off now (d.pwrUpd (fun p => p.setDom x .off))
    if x = .link then linksSilent now d else d)

/-- R432, R315, R476: a powering domain reaches ON. -/
def domainOn (x : PowerDomain) (now : Nat) (c : Core) : Core :=
  if c.dev.pwr.dom x = .powering then
    let c := c.mapDev (fun d => raiseDomain x .on now (d.pwrUpd (fun p => p.setDom x .on)))
    match x with
    | .alm => c.mapRam Ram.loseAlm
    | .link => { ram := { c.ram with lbuf := [] }, dev := linksStart now c.dev }
    | .ana => c.mapDev lookoutsTripped
  else c

/-! ## HALT-class faults (R442) -/

/-- R450: the caution threshold. -/
def cautAt (w : Word) : Int := min 920 (signedOf 12 (fld w 11 0))

/-- R442: the clear condition of a bit of PWR_HFAULT. -/
def hfaultMayClear (b : Nat) (d : Device) : Bool :=
  match b with
  | 0 => true
  | 1 => (fins 32).all (fun k => !bitOf d.pwr.lkoSet k.val || !(d.lko.at k).latch)
  | 2 => d.stb.refOk && d.stb.pllLock
  | 3 => decide (d.thm.tj < cautAt d.thm.tcfg)
  | 4 => d.pwr.vcoreOk && d.pwr.vauxOk
  | _ => d.pwr.ioLost &&& ~~~ d.pwr.vioOk == 0

/-- R442: a write of 1 to one bit. -/
def hfaultClear1 (mask : BitVec 6) (d : Device) (b : Nat) : Device :=
  if mask.getLsbD b && d.pwr.hfault.getLsbD b && hfaultMayClear b d then
    d.pwrUpd (fun p => { p with
      hfault := setFld p.hfault b b 0
      lkoSet := if b = 1 then 0 else p.lkoSet, ioLost := if b = 5 then 0 else p.ioLost })
  else d

/-- R442: a write to PWR_HFAULT. -/
def hfaultClear (mask : BitVec 6) (d : Device) : Device := (nats 6).foldl (hfaultClear1 mask) d

/-! ## Thermal governor (R444 to R448) -/

/-- R448: thermal shutdown; it acts once until HFAULT.THERM is cleared. -/
def thermalShutdown (now : Nat) (d : Device) : Device :=
  if d.pwr.hfault.getLsbD 3 then d else raiseThm 4 0 now (haltAll 2 3 now d)

/-- The middle of three. -/
def median3 (a b c : Int) : Int := max (min a b) (min (max a b) c)

/-- R444: sensor `i` is valid. -/
def sensorOk (s : Tab Int 4) (i : Fin 4) : Bool :=
  let x := s.at i
  let m := median3 (s.at (i + 1)) (s.at (i + 2)) (s.at (i + 3))
  decide (-440 ≤ x) && decide (x ≤ 1200) && decide ((x - m).natAbs ≤ 80)

/-- R447: CAUTION and LIMIT. -/
def crossings (tj : Int) (now : Nat) (d : Device) : Device :=
  let caut := cautAt d.thm.tcfg
  let d :=
    if !d.thm.caution && decide (caut ≤ tj) then raiseThm 1 1 now (d.thmUpd (fun t => { t with caution := true }))
    else if d.thm.caution && decide (tj ≤ caut - 8) then raiseThm 1 0 now (d.thmUpd (fun t => { t with caution := false }))
    else d
  if !d.thm.limit && decide (920 ≤ tj) then raiseThm 2 1 now (d.thmUpd (fun t => { t with limit := true }))
  else if d.thm.limit && decide (tj ≤ 912) then raiseThm 2 0 now (d.thmUpd (fun t => { t with limit := false }))
  else d

/-- R446: stage and PACE after an evaluation at junction temperature `tj`. -/
def Thermal.govern (t : Thermal) (tj : Int) (now : Nat) : Nat × Nat :=
  let thys : Nat := max 1 (fld t.tcfg 19 12)
  let pmax := fld t.tcfg 23 20
  let hold := min 6000 t.phold
  let after (n : Nat) : Bool := decide (t.chgAt + n ≤ now)
  if t.stage = 0 then (if 920 ≤ tj then (1, t.pace) else (0, t.pace))
  else if 920 - (thys : Int) < tj then
    if hold < t.p ∧ after 8000000 then
      if t.stage < 3 then (t.stage + 1, t.pace)
      else if t.stage = 3 then (if pmax = 0 then (3, t.pace) else (4, 1))
      else (4, if t.pace < pmax then t.pace + 1 else t.pace)
    else if t.stage = 4 ∧ t.p + 250 < hold ∧ after 8000000 then (4, max 1 (t.pace - 1))
    else (t.stage, t.pace)
  else if after 80000000 then
    if t.stage = 4 ∧ 1 < t.pace then (4, t.pace - 1) else (t.stage - 1, 0)
  else (t.stage, t.pace)

/-- R445, R446: the governor acts. -/
def governStep (tj : Int) (now : Nat) (d : Device) : Device :=
  let r := d.thm.govern tj now
  if r.1 = d.thm.stage ∧ r.2 = d.thm.pace then d
  else
    let d := d.thmUpd (fun t => { t with stage := r.1, pace := r.2, chgAt := now })
    macePause (raiseThm 3 (16 * r.1 + r.2) now d)

/-- R450: TTIME counts an evaluation interval at stage 1 or above, 100 to the millisecond, saturating. -/
def Thermal.tick (t : Thermal) : Thermal :=
  { t with ttime := if t.stage = 0 then t.ttime else min 429496729599 (t.ttime + 1) }

/-- R444 to R448: one evaluation of the governor, which keeps its stage throughout a thermal shutdown. -/
def thermalEvaluation (s : Tab Int 4) (p : Nat) (now : Nat) (d : Device) : Device :=
  let ok := (fins 4).filter (sensorOk s)
  let d := d.thmUpd (fun t => { t.tick with p := p, sfail := t.sfail || decide (ok.length < 4) })
  let bad := (fins 4).filter (fun i => !sensorOk s i)
  match ok.map s.at with
  | [] => thermalShutdown now (raiseThm 5 4 now d)
  | x :: l =>
    let tj := l.foldl max x
    let d := bad.foldl (fun d i => raiseThm 5 i.val now d) d
    let d := d.thmUpd (fun t => { t with
      tj := tj, tmax := some (match t.tmax with | some m => max m tj | none => tj) })
    let d := crossings tj now d
    if 1000 ≤ tj then thermalShutdown now d
    else if d.pwr.hfault.getLsbD 3 then d
    else governStep tj now d

/-! ## The commands -/

def execPorst (why : ColdCause) (low : Bool) (s : State) : Host.Outcome State Fault Refusal :=
  .next { s with mt := if low then 0 else s.mt, core := porst why low s.core }
def execWarmReset (low : Bool) (s : State) : Host.Outcome State Fault Refusal := s.run (fun _ => rstPin low)
/-- R434: either supply below its window. -/
def execBrown (which : CoreSupply) (s : State) : Host.Outcome State Fault Refusal :=
  .next { s with mt := 0, core := brownOut which s.core }
def execSupply (which : CoreSupply) (s : State) : Host.Outcome State Fault Refusal := s.runDev (supplyHigh which)
def execIoloss (k : Fin 8) (s : State) : Host.Outcome State Fault Refusal := s.runDev (vioLost k)
def execSupplyRestored (which : Supply) (s : State) : Host.Outcome State Fault Refusal :=
  s.runDev (fun _ => supplyBack which)
def execBootFlow (stage : BootStage) (s : State) : Host.Outcome State Fault Refusal := s.run (bootFlow stage)
def execRomrun (s : State) : Host.Outcome State Fault Refusal := s.runDev (fun _ => romRun)
def execDomainRequest (v : BitVec 3) (s : State) : Host.Outcome State Fault Refusal :=
  s.runDev (fun _ => domainRequest v)
def execDomainStateChange (dom : PowerDomain) (s : State) : Host.Outcome State Fault Refusal :=
  s.run (domainChange dom)
def execDomainPowerComplete (dom : PowerDomain) (s : State) : Host.Outcome State Fault Refusal :=
  s.run (domainOn dom)
def execHfaultClear (mask : BitVec 6) (s : State) : Host.Outcome State Fault Refusal :=
  s.runDev (fun _ => hfaultClear mask)
def execThermalEvaluation (sensors : Tab Int 4) (powerMw : BitVec 16) (s : State) :
    Host.Outcome State Fault Refusal := s.runDev (thermalEvaluation sensors powerMw.toNat)
def execShutdown (s : State) : Host.Outcome State Fault Refusal := s.runDev thermalShutdown

end Sys2Proof.Machine
end

