-- ==== Sys2Proof/Machine/RegRead.lean ====
section
/-! DEFINITION. Register reads (R8, R9, R472 to R490 and each chapter's register tables): what a read returns and
what it latches or consumes. `none` is an address that no table lists (R474). -/

namespace Sys2Proof.Machine

open Sys2Proof

/-- A read: the word and the device after it. -/
abbrev Rd := Option (Word × Device)

/-- A read without side effects. -/
def rd (d : Device) (w : Word) : Rd := some (w, d)
def rdN (d : Device) (n : Nat) : Rd := some (w32 n, d)
def rdI (d : Device) (i : Int) : Rd := some (w32i i, d)

/-- A number placed at bit `k`. -/
def sh (k n : Nat) : Nat := n * 2 ^ k
def shB (k : Nat) (b : Bool) : Nat := if b then 2 ^ k else 0

/-- 32 bits of a map, bit `j` lowest first. -/
def bitMap (f : Nat → Bool) : Word := w32 ((nats 32).foldl (fun a j => a + shB j (f j)) 0)

/-- The entry of a group of registers at stride 4. -/
def idx4 (off base n : Nat) : Option (Fin n) :=
  if h : base ≤ off ∧ off % 4 = 0 ∧ (off - base) / 4 < n then some ⟨(off - base) / 4, h.2.2⟩ else none

/-! ## SYS (R477) -/

def readSys (off : Nat) (d : Device) : Rd :=
  let s := d.sys
  match off with
  | 0x000 => rdN d sysId
  | 0x004 => rdN d sysStep
  | 0x010 => rd d 0
  | 0x014 => rdN d s.snapcnt
  | 0x018 => some (lo32 s.snapt, { d with sys := { s with snaptHi := hi32 s.snapt } })
  | 0x01C => rd d s.snaptHi
  | 0x140 => rdN d (shB 1 s.gatmode + shB 8 s.gp.isSome + shB 9 s.gerr + shB 10 s.gref + sh 16 s.gerrch)
  | 0x148 => rd d s.gatLo
  | 0x14C => rd d s.gatHi
  | _ => (idx4 off 0x100 16).bind (fun i => rd d (s.gmask.at i))

/-! ## STB (R50, R479) -/

def stbStat (d : Device) : Word :=
  let s := d.stb
  w32 (s.st.code + shB 3 s.pllLock + shB 4 s.refOk + shB 5 s.ppsOk + shB 6 s.ttodOk + shB 7 s.ptValid +
    shB 8 s.ptCoarse + shB 9 s.rateClamped + shB 10 s.icalOk)

def readStb (off now : Nat) (d : Device) : Rd :=
  let s := d.stb
  let p := d.port
  let k := d.keel
  let a := k.anc.at k.ancCur
  match off with
  | 0x000 => rd d s.ctl
  | 0x004 => rd d (stbStat d)
  | 0x008 => let d := readMtLo now d; rd d d.hps.dout
  | 0x00C => rd d p.mtHi
  | 0x010 => rd d p.ptNs
  | 0x014 => rd d p.ptSecLo
  | 0x018 => rd d p.ptSecHi
  | 0x020 => rdI d s.rate
  | 0x024 => rdI d s.rateMan
  | 0x028 => rd d s.servo
  | 0x02C => rd d s.thr
  | 0x030 => rd d s.stepthr
  | 0x034 => rd d s.pdly
  | 0x038 => rdI d s.pherr
  | 0x03C => rdI d s.lstep
  | 0x040 => some (lo32 p.pps, { d with port := { p with ppsHi := hi32 p.pps } })
  | 0x044 => rd d p.ppsHi
  | 0x048 => some (lo32 p.todSec, { d with port := { p with todHi := hi32 p.todSec } })
  | 0x04C => rd d p.todHi
  | 0x050 => rd d p.todInfo
  | 0x054 => rd d p.errcnt
  | 0x058 => rdN d p.holdsec
  | 0x060 => let d := readOfsLo d; rd d d.hps.dout
  | 0x064 => rd d p.ofsHi
  | 0x068 => rd d p.epLo
  | 0x06C => rd d p.epHi
  | 0x070 => rd d p.ical
  | 0x100 => rdN d (shB 0 k.keelLost + shB 1 k.ancValid + shB 2 k.xcalValid)
  | 0x104 => some (lo32 k.kcnt, { d with keel := { k with kcntHi := k.kcnt / 4294967296 } })
  | 0x108 => rdN d k.kcntHi
  | 0x10C => rd d (lo32 a.cnt)
  | 0x110 => rd d (hi32 a.cnt)
  | 0x114 => rd d (lo32 a.sec)
  | 0x118 => rd d (hi32 a.sec)
  | 0x11C => rdN d a.ns
  | 0x120 => rdN d k.kxcal.toNat
  | 0x124 => rdN d k.cptNs
  | 0x128 => rd d (lo32 k.cptSec)
  | 0x12C => rd d (hi32 k.cptSec)
  | _ => none

/-! ## AXS (R81, R480) -/

/-- R478: the SN fields before the first snapshot. -/
def AxSnap.zero : AxSnap := ⟨0, 0, 0, 0, 0, 0, 0, 0⟩

/-- R21: what the current copy holds of an axis. -/
def Device.axCopy (d : Device) (a : Axis) : AxSnap :=
  match d.sys.snap with | some s => s.axs.at a | none => AxSnap.zero

def readAxs (a : Axis) (off : Nat) (d : Device) : Rd :=
  let x := d.axs.at a
  let r := x.reg
  let s := d.axCopy a
  match off with
  | 0x00 => rdN d (shB 0 (r.enPend.getD r.en))
  | 0x04 => rd d r.cfg
  | 0x08 => rd d r.modLo
  | 0x0C => rd d r.modHi
  | 0x10 => rd d r.gainAB
  | 0x14 => rd d r.gainG
  | 0x18 => rd d r.tol
  | 0x1C => rd d r.vmax
  | 0x20 => rd d r.amax
  | 0x24 => rd d r.vres
  | 0x28 => rd d r.lim
  | 0x2C => rd d r.quad
  | 0x30 => rd d r.zpos
  | 0x34 => rd d r.ser
  | 0x40 => rd d (mergeBits 0xF00 s.stat (axsStatWord x.est))
  | 0x44 => rd d s.epoch
  | 0x48 => rd d (lo32 s.tf)
  | 0x4C => rd d (hi32 s.tf)
  | 0x50 => rd d (lo32 (lowBits 64 s.x))
  | 0x54 => rd d (hi32 (lowBits 64 s.x))
  | 0x58 => rdI d s.turns
  | 0x5C => rd d (lo32 (lowBits 64 s.v))
  | 0x60 => rd d (hi32 (lowBits 64 s.v))
  | 0x64 => rd d (lo32 (lowBits 64 s.a))
  | 0x68 => rd d (hi32 (lowBits 64 s.a))
  | 0x6C => rdI d s.res
  | 0x70 => rdN d (x.est.rejCnt + sh 16 (x.est.rejCause % 256) + sh 24 (x.est.consec % 16))
  | 0x80 => rd d r.vmPosLo
  | 0x84 => rd d r.vmPosHi
  | 0x88 => rd d r.vmTLo
  | 0x8C => rd d r.vmTHi
  | 0x90 => rd d r.vmNs
  | 0x94 => rd d 0
  | _ => none

/-! ## CHN (R121, R148, R178, R481) -/

/-- R478: the SN fields of a channel before the first snapshot. -/
def ChSnap.zero : ChSnap := ⟨0, 0x000F_0000, 0, never, StSet.reset, Context.clear⟩

/-- R21: what the current copy holds of a channel. -/
def Device.chCopy (d : Device) (c : Chan) : ChSnap :=
  match d.sys.snap with | some s => s.chn.at c | none => ChSnap.zero

/-- The CHN block (R121). A field marked ST reads its shadow; its value in effect is kept in the snapshot, and no address
returns it (DEDUCED, log 76). -/
def readChn (c : Chan) (off : Nat) (d : Device) : Rd :=
  let h := d.chn.at c
  let g := h.cfg
  let t := h.stat
  let s := d.chCopy c
  match off with
  | 0x00 => rdN d (shB 0 (match g.enPend.getLast? with | some x => x.1 | none => g.en))
  | 0x04 => rd d (g.shadow.cfg ||| w32 g.mode.toNat)
  | 0x08 => rd d g.pin
  | 0x0C => rd d g.safe
  | 0x10 => rd d g.shadow.lead
  | 0x14 => rd d g.shadow.per
  | 0x18 => rd d g.shadow.wid
  | 0x1C => rd d g.shadow.phs
  | 0x20 => rd d g.shadow.train
  | 0x24 => rd d g.shadow.trip
  | 0x28 => rd d g.prog
  | 0x2C => rd d g.even
  | 0x30 => rdN d (sh 1 g.atmode.toNat + sh 8 g.axis.toNat + shB 16 g.pend.isSome + shB 17 g.gpend)
  | 0x34 => rd d g.atLo
  | 0x38 => rd d g.atHi
  | 0x3C => rd d (if g.member then 0x000F_0000 else mergeBits 0xFF20_0000 s.pstat (pstatWord c d))
  | 0x40 => rd d (mergeBits 0x1F60 s.stat (chnStatWord c d))
  | 0x44 => rdN d h.prov.length
  | 0x48 => rdN d t.rev
  | 0x4C => rdN d t.margin
  | 0x50 => rdN d t.latecnt
  | 0x54 => rdN d t.tripcnt
  | 0x58 => rdN d (fld g.revlim 9 0 + sh 16 (t.run % 256) + shB 24 t.frozen)
  | 0x5C => rdN d (h.prog.faultPc.toNat + sh 16 (h.prog.faultCode % 32) + shB 31 (h.prog.faultValid && !g.member))
  | 0x60 => let d := capAttrRead c d; rd d d.hps.dout
  | 0x64 => rd d (lo32 h.pin.stampL)
  | 0x68 => rd d (hi32 h.pin.stampL)
  | 0x6C => rdN d h.pin.valL
  | 0x70 => rd d (lo32 s.edge)
  | 0x74 => rd d (hi32 s.edge)
  | 0x78 => rd d (lo32 s.next)
  | 0x7C => rd d (hi32 s.next)
  | _ => none

/-! ## HLM (R260, R482) -/

/-- R240, R260: every engine in service has 1 ms of measurement, sixteen windows of 64 µs; with none in service there is none. -/
def paceOk (d : Device) : Bool :=
  (fins 16).any (fun n => (d.hlm.eng.at n).insvc) && (fins 16).all (fun n => !(d.hlm.eng.at n).insvc || decide (16 ≤ (d.hlm.eng.at n).meas))

/-- R260: running services. -/
def inFlight (d : Device) : Nat := ((fins 512).filter (fun c => (d.chn.at c).prog.svc.isSome)).length

def readHlm (off : Nat) (d : Device) : Rd :=
  let h := d.hlm
  match off with
  | 0x000 => rdN d h.preemptEn.toNat
  | 0x004 => rdN d h.emask.toNat
  | 0x008 => rdN d (shB 0 (paceOk d) + sh 8 (inFlight d) + sh 16 h.q.length)
  | 0x00C => rd d h.preempt
  | 0x010 => rdN d h.svccnt
  | 0x014 => rdN d h.precnt
  | 0x018 => rdN d h.abncnt
  | 0x01C => rdN d h.slackmin
  | 0x020 => rdN d (h.eccCorr + sh 16 h.eccUnc)
  | 0x024 => rd d h.mfault
  | 0x040 => rd d 0
  | 0x044 => rdN d (h.mode.num + shB 2 h.loaded + shB 3 h.locked + shB 4 h.waithost + sh 8 h.err + sh 12 h.src)
  | 0x048 => rdN d h.len
  | 0x04C => rdN d h.svn
  | 0x050 => rdN d (h.nw + sh 16 h.nd)
  | _ =>
    match idx4 off 0x100 16, idx4 off 0x140 16, idx4 off 0x400 256 with
    | some i, _, _ => rdN d ((h.eng.at i).epace % 65536 + sh 16 ((h.eng.at i).emax % 65536))
    | _, some i, _ =>
      let e := h.eng.at i
      rdN d (((fins 6).filter (fun k => (e.slots.at k).isSome)).length + shB 8 e.insvc + shB 9 e.fail)
    | _, _, some i => rd d (h.dtab i.val)
    | _, _, _ => none

/-! ## CLV (R277, R483) -/

def clvStat (c : Clove) : Word :=
  w32 (shB 0 c.run + shB 1 c.pend + shB 2 c.fault + sh 3 c.st.toNat + sh 9 c.scnt + sh 15 c.shifted +
    sh 21 c.flagsW.toNat + sh 28 c.rx.length)

def readClv (n : CloveNo) (off : Nat) (d : Device) : Rd :=
  let c := d.clv.at n
  match off with
  | 0x00 => rdN d (shB 0 c.en + shB 1 c.bank)
  | 0x04 => rd d c.cfg
  | 0x08 => rd d (clvStat c)
  | 0x0C => rd d c.init
  | 0x10 => rd d c.sr
  | 0x14 => rdN d c.out.toNat
  | 0x18 => rdN d c.flag.toNat
  | 0x1C => rdN d c.flag.toNat
  | 0x20 => rd d 0
  | 0x24 => let d := rxdRead n d; rd d d.hps.dout
  | 0x28 => rd d (lo32 c.rxt)
  | 0x2C => rd d (hi32 c.rxt)
  | 0x30 => some (lo32 c.ent, d.clvUpd n (fun c => { c with entHi := hi32 c.ent }))
  | 0x34 => rd d c.entHi
  | 0x38 => some (lo32 c.stmp, d.clvUpd n (fun c => { c with stmpHi := hi32 c.stmp }))
  | 0x3C => rd d c.stmpHi
  | _ =>
    match idx4 off 0x40 2, idx4 off 0x50 4, idx4 off 0x60 8, idx4 off 0x80 8 with
    | some i, _, _, _ => rd d (c.tim.at i)
    | _, some i, _, _ => rd d (c.tofs.at i)
    | _, _, some i, _ => rd d (c.line.at i)
    | _, _, _, some i => rd d (c.omap.at i)
    | _, _, _, _ => none

/-! ## GLK (R309, R484) -/

def readGlk (l : LinkNo) (off : Nat) (d : Device) : Rd :=
  let x := d.glk.at l
  match off with
  | 0x000 => rdN d (shB 0 x.en + shB 1 x.autore)
  | 0x004 => rd d x.cfg
  | 0x008 => rdN d (x.st.num + shB 3 x.quiet.isSome + sh 4 x.lcause + sh 8 x.lep.toNat)
  | 0x00C => rd d x.asym
  | 0x010 => rdN d (lowBits 24 x.dq)
  | 0x014 => rdI d x.rtt
  | 0x018 => rdN d x.turn
  | 0x01C => rd d x.epid
  | 0x020 => rd d x.epcap
  | 0x024 => rd d (x.epst.at 0)
  | 0x028 => rd d (x.epst.at 1)
  | 0x02C => rd d (x.epst.at 2)
  | 0x030 => rdN d x.epflag.toNat
  | 0x034 => rdN d (x.err.at 0 + sh 8 (x.err.at 1) + sh 16 (x.err.at 2) + sh 24 (x.err.at 3))
  | 0x038 => rdN d x.txlate
  | 0x03C => rdN d x.hold
  | 0x040 => rdN d (x.kseq.toNat + sh 8 x.kack.toNat + shB 16 x.kmsg.isSome + sh 24 (x.ktry % 4))
  | 0x044 => rdN d (x.txIdx + sh 6 x.txSent)
  | 0x048 => rdN d (x.rxIdx + sh 6 x.rxLap)
  | _ => none

/-! ## LKO and SND (R328, R329, R485) -/

def readLko (k : LkNo) (off : Nat) (d : Device) : Rd :=
  let l := d.lko.at k
  match off with
  | 0x00 => rd d l.cfg
  | 0x04 => rd d l.dac
  | 0x08 => rd d l.ramp
  | 0x0C => rd d l.rdly
  | 0x10 => rd d 0
  | 0x14 => rdN d (shB 0 l.latch + shB 1 l.fout + shB 2 l.inband + shB 3 l.chkerr + shB 4 l.clrref + sh 16 l.rcode)
  | 0x18 => rdN d l.cnt
  | 0x1C => rd d l.safe
  | _ => none

def readSnd (off : Nat) (d : Device) : Rd :=
  let s := d.snd
  match off with
  | 0x000 => rd d s.ctl
  | 0x004 => rdN d (shB 0 s.conv.isSome + shB 1 s.fovf + sh 8 s.skip + sh 16 s.wout.toNat)
  | 0x008 => rdN d (s.reqMux.toNat + shB 16 s.reqDone)
  | 0x00C => rdN d (s.resVal + sh 16 s.resMux)
  | 0x020 => let d := sndFifoRead d; rd d d.hps.dout
  | 0x024 => rdN d s.chkcnt
  | _ =>
    match idx4 off 0x010 3, idx4 off 0x100 16, idx4 off 0x200 80 with
    | some i, _, _ => rd d (s.bgen.at i)
    | _, some i, _ => rd d (s.win.at i)
    | _, _, some i => rdN d (match s.data.at i with | some v => v + sh 31 1 | none => 0)
    | _, _, _ => none

/-- R473, R485: the LKO and SND window. -/
def readAna (off : Nat) (d : Device) : Rd :=
  if off < 0x800 then readLko (Fin.ofNat 32 (off / 0x40)) (off % 0x40) d
  else if off = 0x1000 then rd d (bitMap (fun k => (d.lko.at (Fin.ofNat 32 k)).latch))
  else if off = 0x1004 then rd d 0
  else if 0x8000 ≤ off then readSnd (off - 0x8000) d
  else none

/-! ## XFR (R357, R486) -/

def XferSt.num (s : XferSt) : Nat :=
  match s with
  | .idle => 0 | .run => 1 | .wreq => 2 | .wkick => 3 | .wtime => 4 | .atend => 5 | .asleep => 6 | .plane => 7
  | .abort => 8

def xfrStat (n : XcNo) (d : Device) : Word :=
  let x := d.xfr.ch.at n
  w32 (x.st.num + shB 4 x.bell + shB 5 x.err + shB 6 x.ref + shB 7 x.sigref + shB 8 x.markfail + shB 9 (thold n d) +
    shB 10 x.stfail + sh 12 x.abank + sh 16 x.kcnt + sh 24 x.kdrop)

def readXc (n : XcNo) (off : Nat) (d : Device) : Rd :=
  let x := d.xfr.ch.at n
  match off with
  | 0x00 => rdN d (shB 3 x.autoresume)
  | 0x04 => rd d x.cfg
  | 0x08 => rd d (xfrStat n d)
  | 0x0C => rd d x.pc
  | 0x10 => rd d 0
  | 0x14 => rd d 0
  | 0x18 => rd d x.sptr
  | 0x1C => rd d x.dptr
  | 0x20 => rd d x.res
  | 0x24 => rd d (x.lc.at 0)
  | 0x28 => rd d (x.lc.at 1)
  | 0x2C => rd d x.staddr
  | 0x30 => rd d x.badaddr
  | 0x34 => rd d x.bytes
  | _ => none

/-- R473, R486: the XFR window. -/
def readXfr (off : Nat) (d : Device) : Rd :=
  if off < 0x2000 then readXc (Fin.ofNat 32 (off / 0x100)) (off % 0x100) d
  else if off = 0x2000 then
    rdN d (shB 0 (tdefer d) + shB 1 (d.xfr.plane.at 0).isSome + shB 2 (d.xfr.plane.at 1).isSome)
  else
    match idx4 off 0x2004 3, idx4 off 0x2100 96 with
    | some i, _ => rd d (bitMap (fun j => (d.xfr.lines.at (Fin.ofNat 96 (32 * i.val + j))).presents d))
    | _, some i =>
      let q := d.xfr.lines.at i
      rdN d (q.kind.toNat + sh 8 q.cnt + sh 16 q.idx.toNat)
    | _, _ => none

/-! ## MEM (R232, R380, R487) -/

/-- R437: from TEST until CLEAR ends, MEM_BSTAT reports every bank as OFFLINE. -/
def inBootTest (d : Device) : Bool := d.pwr.phase == .test || d.pwr.phase == .clear

def MaceSt.num (s : MaceSt) : Nat := match s with | .idle => 0 | .run => 1 | .paused => 2
def SwSt.num (s : SwSt) : Nat := match s with | .idle => 0 | .check => 1 | .pend => 2 | .drain => 3

/-- R380: one spare of MEM_REPAIR. -/
def Spare.word (s : Spare) : Nat := s.row.val + shB 8 s.valid + shB 9 s.fused + shB 10 s.bad

def readBank (b : BankNo) (off : Nat) (d : Device) : Rd :=
  let k := d.mem.bank.at b
  match off with
  | 0x0 => rdN d (k.req.toNat + shB 4 k.autowake + shB 5 k.offline)
  | 0x4 => rdN d ((if inBootTest d then 5 else k.st.num) + shB 3 k.pend + shB 4 k.ref + shB 5 k.unrep)
  | 0x8 => rdN d ((k.spares.at 0).word + sh 16 (k.spares.at 1).word)
  | 0xC => rdN d (k.frow + sh 8 k.nfail + shB 16 k.skip + shB 17 k.intr + shB 18 k.loss + shB 31 k.valid)
  | _ => none

def readTable (n : TableNo) (off : Nat) (d : Device) : Rd :=
  let t := d.alm.at n
  match off with
  | 0x00 => rdN d (shB 0 t.defd + shB 1 t.time + sh 8 t.ax.val)
  | 0x04 => rdN d (t.lbase + sh 16 t.llen)
  | 0x08 => rdN d (t.sbase + sh 16 t.slen)
  | 0x0C => rdN d (sh 1 t.atmode.toNat + sh 8 t.swax.val + sh 16 t.lead.toNat)
  | 0x10 => rd d t.atLo
  | 0x14 => rd d t.atHi
  | 0x18 => rdN d (t.st.num + shB 2 t.ref + shB 3 t.err + sh 4 t.ecode + sh 8 t.eidx)
  | 0x1C => rd d t.gen
  | 0x20 => let w := switchShown n d; some (lo32 w, d.tabUpd n (fun t => { t with swtHi := hi32 w }))
  | 0x24 => rd d t.swtHi
  | _ => none

/-- R473, R487: the MEM window. -/
def readMem (off : Nat) (d : Device) : Rd :=
  if off < 0x100 then readBank (Fin.ofNat 16 (off / 0x10)) (off % 0x10) d
  else if 0x4000 ≤ off ∧ off < 0x5000 then readTable (Fin.ofNat 64 ((off - 0x4000) / 0x40)) (off % 0x40) d
  else
    match off with
    | 0x100 => rdN d (d.mem.ww + sh 16 d.mem.rw')
    | 0x104 => rdN d d.mem.collAddr
    | 0x110 => rd d d.mem.mctl
    | 0x114 => rdN d (d.mem.mst.num + shB 2 d.mem.merr + shB 3 d.mem.tpause + sh 4 d.mem.mbank + sh 8 d.mem.mrow +
        shB 16 d.mem.borrow + sh 24 d.mem.lrow)
    | _ => none

/-! ## EVC (R397, R488) -/

/-- R397: EVC_SRC[s]. -/
def evcSrcWord (s : SourceNo) (e : Evc) : Word :=
  let x := e.src.at s
  let lv := e.isLevel s
  w32 (x.rcnt.toNat + sh 16 (if lv then 0 else x.q.length) + shB 19 x.soft.isSome + shB 20 x.claim +
    shB 21 (x.pending lv) + sh 24 x.drop)

/-- 32 sources of a map. -/
def srcMap (i : Fin 8) (f : SourceNo → Bool) : Word := bitMap (fun j => f (Fin.ofNat 256 (32 * i.val + j)))

def readEvc (off : Nat) (d : Device) : Rd :=
  let e := d.evc
  match off with
  | 0x000 => rdN d (e.size.toNat + shB 4 e.layout + shB 5 e.en)
  | 0x004 => rd d e.rbase
  | 0x008 => rdN d (shB 0 e.full + shB 1 e.cfgref + shB 2 e.rpref + sh 16 ((e.wp - e.rp).toNat % 8192))
  | 0x00C => rd d e.wp
  | 0x010 => rd d e.rp
  | 0x014 => rd d e.rsv
  | 0x018 => rd d 0
  | 0x01C => rd d 0
  | 0x020 => rd d 0
  | 0x024 => rdN d e.drops
  | _ =>
    match idx4 off 0x100 8, idx4 off 0x120 8, idx4 off 0x140 8, idx4 off 0x160 8, idx4 off 0x180 8, idx4 off 0x400 256 with
    | some i, _, _, _, _, _ => rd d (e.mask.at i)
    | _, some i, _, _, _, _ => rd d (e.mode.at i)
    | _, _, some i, _, _, _ => rd d (srcMap i (fun s => (e.src.at s).pending (e.isLevel s)))
    | _, _, _, some i, _, _ => rd d (srcMap i (fun s => (e.src.at s).level))
    | _, _, _, _, some i, _ => rd d (srcMap i (fun s => (e.src.at s).claim))
    | _, _, _, _, _, some s => rd d (evcSrcWord s e)
    | _, _, _, _, _, _ => none

/-! ## HPS, PWR and DBG (R429, R430, R450, R489, R490) -/

/-- R429: a bit for each key slot: CKEY in [3:0], DKEY in [7:4], IKEY in [9:8], PKH in [11:10]. -/
def slotMap (f : Nat → Nat → Bool) : Nat :=
  (nats 4).foldl (fun a i => a + shB i (f 1 i) + shB (4 + i) (f 2 i)) 0 +
    (nats 2).foldl (fun a i => a + shB (8 + i) (f 3 i) + shB (10 + i) (f 4 i)) 0

def hpsStat (h : Hps) : Word :=
  w32 (shB 0 h.par + shB 1 h.berr + shB 2 h.wovf + shB 3 h.proto + shB 4 h.cmdref)

def readHps (off : Nat) (d : Device) : Rd :=
  let h := d.hps
  let k := d.key
  let f := d.fuses
  match off with
  | 0x000 => rd d (hpsStat h)
  | 0x004 => rd d h.berrInfo
  | 0x008 => rd d h.berrAddr
  | 0x010 => rd d h.dptr
  | 0x014 => rdN d h.width.toNat
  | 0x020 => rd d 0
  | 0x024 => rdN d (shB 0 k.job.isSome + shB 1 k.done + sh 8 k.result + sh 16 k.opc + shB 24 k.lockEnd.isSome +
      sh 28 k.badmac)
  | 0x080 => rd d (lo32 f.duid.toNat)
  | 0x084 => rd d (hi32 f.duid.toNat)
  | 0x0A0 => rdN d (shB 0 f.prov + shB 1 f.dbgClose + shB 2 f.dbgPerm + sh 4 f.ckslot.val + sh 6 f.dkslot.val +
      sh 8 f.ikslot.val + sh 16 f.svnmin + shB 31 (!f.bad.isEmpty))
  | 0x0A4 => rdN d (slotMap f.slotUsed +
      sh 16 (slotMap (fun sel i => f.bad.contains ⟨Fin.ofNat 5 sel, Fin.ofNat 4 i⟩)))
  | 0x100 => rdN d d.keel.ctrLost.toNat
  | 0x104 => some (lo32 d.keel.counter.toNat, { d with keel := { d.keel with ctrHi := hi32 d.keel.counter.toNat } })
  | 0x108 => rd d d.keel.ctrHi
  | _ =>
    match idx4 off 0x040 16, idx4 off 0x090 4, idx4 off 0x0C0 8 with
    | some i, _, _ => rd d (k.buf.at i)
    | _, some i, _ => rdN d (k.nonce.toNat >>> (32 * (3 - i.val)))
    | _, _, some i => rd d (f.ufuse.at i)
    | _, _, _ => none

def Phase.num (p : Phase) : Nat :=
  match p with | .pll => 0 | .fuse => 1 | .test => 2 | .clear => 3 | .load => 4 | .ready => 5

def readPwr (off : Nat) (d : Device) : Rd :=
  let p := d.pwr
  let t := d.thm
  match off with
  | 0x000 => rdN d (p.phase.num + shB 3 p.armed + shB 4 p.permit + shB 5 p.gate + shB 8 p.vcoreOk + shB 9 p.vauxOk +
      sh 16 p.vioOk.toNat + sh 24 p.vio33.toNat)
  | 0x004 => rd d 0
  | 0x008 => rdN d p.rstcause.toNat
  | 0x00C => rdN d (p.hfault.toNat + sh 16 p.first)
  | 0x010 => rdN d p.dctl.toNat
  | 0x014 => rdN d (p.alm.num + sh 2 p.link.num + sh 4 p.ana.num + shB 8 p.dref)
  | 0x020 => rdN d (lowBits 12 t.tj + sh 12 t.stage + sh 16 t.pace + shB 20 t.caution + shB 21 t.limit + shB 22 t.sfail)
  | 0x024 => rd d t.tcfg
  | 0x028 => rdN d (t.p % 65536 + sh 16 (t.phold % 65536))
  | 0x02C => rdN d (lowBits 12 (t.tmax.getD 0))
  | 0x030 => rdN d (t.ttime / 100)
  | 0x040 => rdN d (shB 0 d.keel.vkeelOk + shB 1 d.keel.xkeelRun)
  | _ => none

def readDbg (off : Nat) (d : Device) : Rd :=
  if off = 0 then
    rdN d (dbgState d + sh 4 d.dbg.tries + shB 8 d.dbg.exhausted + shB 9 d.dbg.extest)
  else none

/-! ## The map (R473, R474) -/

/-- R473: a read of the register at address `a`, a multiple of 4, other than HPS_DATA. -/
def regRead (a now : Nat) (d : Device) : Rd :=
  let off := a % 0x10000
  match a / 0x10000 with
  | 0x30 => readSys off d
  | 0x31 => readStb off now d
  | 0x32 => if off < 0x4000 then readAxs (Fin.ofNat 64 (off / 0x100)) (off % 0x100) d else none
  | 0x34 => readChn (Fin.ofNat 512 (off / 0x80)) (off % 0x80) d
  | 0x35 => readHlm off d
  | 0x36 => if off < 0x2000 then readClv (Fin.ofNat 32 (off / 0x100)) (off % 0x100) d else none
  | 0x37 => if off < 0x4000 then readGlk (Fin.ofNat 32 (off / 0x200)) (off % 0x200) d else none
  | 0x38 => readAna off d
  | 0x39 => readXfr off d
  | 0x3A => readMem off d
  | 0x3B => readEvc off d
  | 0x3C => readHps off d
  | 0x3D => readPwr off d
  | 0x3E => readDbg off d
  | _ => none

end Sys2Proof.Machine
end

