-- ==== Sys2Proof/Machine/RegWrite.lean ====
section
/-! DEFINITION. Register writes (R8, R9, R492, R472 to R490 and each chapter's register tables), serviced in step 2 of
a boundary (R405). `none` is an address that no table lists (R474). -/

namespace Sys2Proof.Machine

open Sys2Proof

/-- A write that acts on the blocks. -/
abbrev Wr := Option (Device → Device)

/-- R9: a write that every field ignores. -/
def ignored : Wr := some id

/-- R492: a register with locked fields `lock` among its fields `all`: what it holds after a write of `v` while the
instance is enabled or not, and whether a locked field kept its value. -/
def lockedWrite (en : Bool) (lock all old v : Word) : Word × Bool :=
  let keep := if en then lock else 0
  (mergeBits (all &&& ~~~ keep) old v, (old ^^^ v) &&& all &&& keep != 0)

/-! ## SYS (R118, R477, R478) -/

/-- R118: a write of SYS_GAPPLY. -/
def writeGapply (v : Word) (now : Nat) (d : Device) : Device :=
  let d := { d with sys := { d.sys with
    gatmode := bitOf v 1, gerr := d.sys.gerr && !bitOf v 9, gref := d.sys.gref && !bitOf v 10 } }
  if bitOf v 0 then gapplyGo (bitOf v 1) (bitOf v 2) now d else if bitOf v 2 then gapplyCancel d else d

def writeSys (off : Nat) (v : Word) (now : Nat) : Wr :=
  match off with
  | 0x000 | 0x004 | 0x014 | 0x018 | 0x01C => ignored
  | 0x010 => some (fun d => if bitOf v 0 then { d with sys := { d.sys with snapReq := true } } else d)
  | 0x140 => some (writeGapply v now)
  | 0x148 => some (fun d => { d with sys := { d.sys with gatLo := v } })
  | 0x14C => some (fun d => { d with sys := { d.sys with gatHi := v } })
  | _ => (idx4 off 0x100 16).map (fun i d => { d with sys := { d.sys with gmask := d.sys.gmask.put i v } })

/-! ## STB (R50) -/

/-- Write 1 to any bit of a byte field clears it. -/
def clearBytes (old v : Word) : Word :=
  old &&& ~~~ (w32 ((nats 4).foldl (fun a i => a + if fld v (8 * i + 7) (8 * i) = 0 then 0 else 255 * 2 ^ (8 * i)) 0))

def writeStb (off : Nat) (v : Word) (now : Nat) : Wr :=
  match off with
  | 0x000 => some (writeStbCtl v now)
  | 0x024 => some (writeRateMan v)
  | 0x028 => some (fun d => { d with stb := { d.stb with servo := v } })
  | 0x02C => some (fun d => { d with stb := { d.stb with thr := v } })
  | 0x030 => some (fun d => { d with stb := { d.stb with stepthr := v } })
  | 0x034 => some (fun d => { d with stb := { d.stb with pdly := v } })
  | 0x054 => some (fun d => { d with port := { d.port with errcnt := clearBytes d.port.errcnt v } })
  | 0x070 => some (fun d => if bitOf v 31 then { d with port := { d.port with ical := setFld d.port.ical 31 31 0 } } else d)
  | 0x100 => some (fun d => if bitOf v 0 then { d with keel := { d.keel with keelLost := false } } else d)
  | 0x004 | 0x008 | 0x00C | 0x010 | 0x014 | 0x018 | 0x020 | 0x038 | 0x03C | 0x040 | 0x044 | 0x048 | 0x04C | 0x050
  | 0x058 | 0x060 | 0x064 | 0x068 | 0x06C | 0x104 | 0x108 | 0x10C | 0x110 | 0x114 | 0x118 | 0x11C | 0x120 | 0x124
  | 0x128 | 0x12C => ignored
  | _ => none

/-! ## AXS (R51, R72, R81) -/

def Device.axReg (a : Axis) (f : AxRegs → AxRegs) (d : Device) : Device := d.axUpd a (fun x => { x with reg := f x.reg })

/-- R51, R492: a write of a register with locked fields. -/
def axLocked (a : Axis) (lock all old v : Word) (put : Word → AxRegs → AxRegs) (d : Device) : Device :=
  let r := lockedWrite (d.axs.at a).reg.en lock all old v
  let d := d.axReg a (put r.1)
  if r.2 then axCfgign a d else d

/-- R72: a write of AXS_CTL. -/
def writeAxsCtl (a : Axis) (v : Word) (d : Device) : Device :=
  d.axReg a (fun r => { r with
    enPend := if bitOf v 0 = r.en then none else some (bitOf v 0), clrPend := r.clrPend || bitOf v 1 })

def writeAxs (a : Axis) (off : Nat) (v : Word) (now : Nat) : Wr :=
  match off with
  | 0x00 => some (writeAxsCtl a v)
  | 0x04 => some (fun d => axLocked a 0x03FF_03F7 0x03FF_03FF (d.axs.at a).reg.cfg v (fun w r => { r with cfg := w }) d)
  | 0x08 => some (fun d => axLocked a 0xFFFF_FFFF 0xFFFF_FFFF (d.axs.at a).reg.modLo v (fun w r => { r with modLo := w }) d)
  | 0x0C => some (fun d => axLocked a 0xFFFF 0xFFFF (d.axs.at a).reg.modHi v (fun w r => { r with modHi := w }) d)
  | 0x10 => some (Device.axReg a (fun r => { r with gainAB := v }))
  | 0x14 => some (Device.axReg a (fun r => { r with gainG := v &&& 0xFFFF }))
  | 0x18 => some (Device.axReg a (fun r => { r with tol := v &&& 0xFFFF }))
  | 0x1C => some (Device.axReg a (fun r => { r with vmax := v }))
  | 0x20 => some (Device.axReg a (fun r => { r with amax := v }))
  | 0x24 => some (Device.axReg a (fun r => { r with vres := v }))
  | 0x28 => some (Device.axReg a (fun r => { r with lim := v &&& 0xFFFF_000F }))
  | 0x2C => some (Device.axReg a (fun r => { r with quad := v }))
  | 0x30 => some (Device.axReg a (fun r => { r with zpos := v }))
  | 0x34 => some (fun d => axLocked a 0x13F 0x13F (d.axs.at a).reg.ser v (fun w r => { r with ser := w }) d)
  | 0x40 => some (Device.estUpd a (fun e => { e with
      ovr := e.ovr && !bitOf v 9, qerr := e.qerr && !bitOf v 10, cfgign := e.cfgign && !bitOf v 11 }))
  | 0x70 => some (Device.estUpd a (fun e => { e with rejCnt := if fld v 15 0 = 0 then e.rejCnt else 0 }))
  | 0x80 => some (Device.axReg a (fun r => { r with vmPosLo := v }))
  | 0x84 => some (Device.axReg a (fun r => { r with vmPosHi := v &&& 0xFFFF }))
  | 0x88 => some (Device.axReg a (fun r => { r with vmTLo := v }))
  | 0x8C => some (Device.axReg a (fun r => { r with vmTHi := v }))
  | 0x90 => some (Device.axReg a (fun r => { r with vmNs := v &&& 0x3FFF_FFFF }))
  | 0x94 => some (vmGo a (bitOf v 0) now)
  | 0x44 | 0x48 | 0x4C | 0x50 | 0x54 | 0x58 | 0x5C | 0x60 | 0x64 | 0x68 | 0x6C => ignored
  | _ => none

/-! ## CHN (R83, R85, R114, R121, R148, R178) -/

def chCfgign (c : Chan) (on : Bool) (d : Device) : Device :=
  if on then d.statUpd c (fun s => { s with cfgign := true }) else d

/-- R85: a write of CHN_CTL: EN takes effect at the first boundary after `now`. -/
def writeChnCtl (c : Chan) (v : Word) (now : Nat) (d : Device) : Device :=
  d.cfgUpd c (fun g =>
    let t := addT now 32
    let l := g.enPend.filter (fun x => x.2 != t)
    let last := match l.getLast? with
      | some x => x.1
      | none => g.en
    { g with enPend := if bitOf v 0 = last then l else l ++ [(bitOf v 0, t)] })

/-- R85: MODE of a disabled channel; a non-output mode gives up the ball. -/
def setMode (m : BitVec 4) (h : Channel) : Channel :=
  if isOutMode m then { h with cfg := { h.cfg with mode := m } }
  else { h with
    cfg := { h.cfg with mode := m }, stat := { h.stat with driven := false }, pin := { h.pin with drive := .undriven } }

/-- R83, R114: a write of CHN_CFG: MODE is locked, the other fields are staged. -/
def writeChnCfg (c : Chan) (v : Word) (d : Device) : Device :=
  let g := (d.chn.at c).cfg
  let m : BitVec 4 := BitVec.ofNat 4 (fld v 3 0)
  let d := if g.en then chCfgign c (m != g.mode) d else d.chnUpd c (setMode m)
  stagedWrite c 0x04 0xFFFF_FFFF v d

/-- R83, R178: a register whose every field is locked. -/
def chLocked (c : Chan) (all old v : Word) (put : Word → ChnCfg → ChnCfg) (d : Device) : Device :=
  let r := lockedWrite (d.chn.at c).cfg.en all all old v
  chCfgign c r.2 (d.cfgUpd c (put r.1))

/-- R114, R116: a write of CHN_APPLY. -/
def writeApply (c : Chan) (v : Word) (now : Nat) (d : Device) : Device :=
  let m : BitVec 2 := BitVec.ofNat 2 (fld v 2 1)
  let a : Axis := Fin.ofNat 64 (fld v 13 8)
  if bitOf v 0 then hostApply c m a (bitOf v 3) now d
  else
    let d := if bitOf v 3 then cancelApply c d else d
    let g := (d.chn.at c).cfg
    if g.pend.isSome || g.gpend then (if bitOf v 3 then d else d.statUpd c (fun s => { s with stgref := true }))
    else d.cfgUpd c (fun g => { g with atmode := m, axis := BitVec.ofNat 6 a.val })

/-- A counter that a 1 in any bit clears. -/
def anyClears (v : Word) (old dflt : Nat) : Nat := if v = 0 then old else dflt

def writeChn (c : Chan) (off : Nat) (v : Word) (now : Nat) : Wr :=
  match off with
  | 0x00 => some (writeChnCtl c v now)
  | 0x04 => some (writeChnCfg c v)
  | 0x08 => some (fun d => chLocked c 0x00FF_0F3F (d.chn.at c).cfg.pin v (fun w g => { g with pin := w }) d)
  | 0x10 | 0x14 | 0x18 | 0x1C | 0x20 | 0x24 => some (stagedWrite c off 0xFFFF_FFFF v)
  | 0x28 => some (fun d => chLocked c 0x1FFF_FFFF (d.chn.at c).cfg.prog v (fun w g => { g with prog := w }) d)
  | 0x2C => some (Device.cfgUpd c (fun g => { g with even := v &&& 7 }))
  | 0x30 => some (writeApply c v now)
  | 0x34 => some (Device.cfgUpd c (fun g => { g with atLo := v }))
  | 0x38 => some (Device.cfgUpd c (fun g => { g with atHi := v }))
  | 0x3C => some (Device.progUpd c (fun p => { p with long := p.long && !bitOf v 21 }))
  | 0x40 => some (Device.statUpd c (fun s => { s with
      done := s.done && !bitOf v 6, narrow := s.narrow && !bitOf v 8, covf := s.covf && !bitOf v 9
      cfgerr := s.cfgerr && !bitOf v 10, cfgign := s.cfgign && !bitOf v 11, stgref := s.stgref && !bitOf v 12 }))
  | 0x48 => some (Device.statUpd c (fun s => { s with rev := anyClears v s.rev 0 }))
  | 0x4C => some (Device.statUpd c (fun s => { s with margin := anyClears v s.margin 0xFFFF_FFFF }))
  | 0x50 => some (Device.statUpd c (fun s => { s with latecnt := anyClears v s.latecnt 0 }))
  | 0x54 => some (Device.statUpd c (fun s => { s with tripcnt := anyClears v s.tripcnt 0 }))
  | 0x58 => some (Device.cfgUpd c (fun g => { g with revlim := v &&& 0x3FF }))
  | 0x0C | 0x44 | 0x5C | 0x60 | 0x64 | 0x68 | 0x6C | 0x70 | 0x74 | 0x78 | 0x7C => ignored
  | _ => none

/-! ## HLM (R260) -/

def Device.hlmUpd (f : Helm → Helm) (d : Device) : Device := { d with hlm := f d.hlm }

def writeHlm (off : Nat) (v : Word) : Wr :=
  match off with
  | 0x000 => some (Device.hlmUpd (fun h => { h with preemptEn := bitOf v 0 }))
  | 0x004 => some (writeEmask (BitVec.ofNat 16 (fld v 15 0)))
  | 0x00C => some (Device.hlmUpd (fun h => { h with preempt := v }))
  | 0x014 => some (Device.hlmUpd (fun h => { h with precnt := anyClears v h.precnt 0 }))
  | 0x018 => some (Device.hlmUpd (fun h => { h with abncnt := anyClears v h.abncnt 0 }))
  | 0x01C => some (Device.hlmUpd (fun h => { h with slackmin := anyClears v h.slackmin 0xFFFF_FFFF }))
  | 0x020 => some (Device.hlmUpd (fun h => { h with
      eccCorr := if fld v 15 0 = 0 then h.eccCorr else 0, eccUnc := if fld v 31 16 = 0 then h.eccUnc else 0 }))
  | 0x048 => some (Device.hlmUpd (fun h => { h with len := fld v 16 0 }))
  | 0x008 | 0x010 | 0x024 | 0x044 | 0x04C | 0x050 => ignored
  | _ =>
    match idx4 off 0x100 16, idx4 off 0x140 16, idx4 off 0x400 256 with
    | some i, _, _ => some (Device.hlmUpd (fun h => { h with
        eng := h.eng.upd i (fun e => { e with emax := if fld v 31 16 = 0 then e.emax else 0 }) }))
    | _, some _, _ => ignored
    | _, _, some _ => ignored
    | _, _, _ => none

/-- R257, R260: a write of HLM_OS_CTL; SKIP ends a load that still waits. Whether the store then reads back as written is open (log
entry 3). -/
def writeOsCtl (v : Word) (now : Nat) (c : Core) : Core :=
  let c := if bitOf v 0 then hostGo (Config.bit c.dev.free) now (c.mapDev Device.freeTaken) else c
  if bitOf v 1 then c.mapDev hostSkip else c

/-! ## CLV (R271, R273, R277) -/

/-- R277: WREF. -/
def clvRef (n : CloveNo) (on : Bool) (d : Device) : Device := if on then cloveFlag n 0 d else d

/-- R273, R277: a write of CLV_CTL. BANK is written while EN = 0, then EN, CANCEL, SWAP and FORCE_SWAP act. -/
def writeClvCtl (n : CloveNo) (v : Word) (now : Nat) (d : Device) : Device :=
  let c := d.clv.at n
  let d := if c.en then clvRef n (bitOf v 1 != c.bank) d else d.clvUpd n (fun c => { c with bank := bitOf v 1 })
  let d := if bitOf v 0 then cloveEnable n now d else if c.en then cloveDisable n d else d
  let d := if bitOf v 4 then d.clvUpd n (fun c => { c with pend := false }) else d
  let d := if bitOf v 2 then d.clvUpd n (fun c => { c with pend := true }) else d
  if bitOf v 3 then forceSwap n now d else d

/-- R277, R492: a write of CLV_CFG. -/
def writeClvCfg (n : CloveNo) (v : Word) (d : Device) : Device :=
  let c := d.clv.at n
  let r := lockedWrite c.en 0x0003_3F77 0x0033_3F77 c.cfg v
  clvRef n r.2 (d.clvUpd n (fun c => { c with cfg := r.1 }))

/-- R277, R492: a write of CLV_INIT: the byte of the active bank is refused while EN = 1. -/
def writeClvInit (n : CloveNo) (v : Word) (d : Device) : Device :=
  let c := d.clv.at n
  let r := lockedWrite c.en (if c.bank then 0xFF00 else 0xFF) 0xFFFF c.init v
  clvRef n r.2 (d.clvUpd n (fun c => { c with init := r.1 }))

/-- R277, R492: a write of CLV_LINE or CLV_OMAP, locked while EN = 1. -/
def clvLocked (n : CloveNo) (all old v : Word) (put : Word → Clove → Clove) (d : Device) : Device :=
  let r := lockedWrite (d.clv.at n).en all all old v
  clvRef n r.2 (d.clvUpd n (put r.1))

def writeClv (n : CloveNo) (off : Nat) (v : Word) (now : Nat) : Wr :=
  match off with
  | 0x00 => some (writeClvCtl n v now)
  | 0x04 => some (writeClvCfg n v)
  | 0x08 => some (Device.clvUpd n (fun c => { c with flagsW := c.flagsW &&& ~~~ (BitVec.ofNat 7 (fld v 27 21)) }))
  | 0x0C => some (writeClvInit n v)
  | 0x18 => some (flagsSet n (BitVec.ofNat 8 (fld v 7 0)))
  | 0x1C => some (flagsClear n (BitVec.ofNat 8 (fld v 7 0)))
  | 0x20 => some (txdWrite n v)
  | 0x10 | 0x14 | 0x24 | 0x28 | 0x2C | 0x30 | 0x34 | 0x38 | 0x3C => ignored
  | _ =>
    match idx4 off 0x40 2, idx4 off 0x50 4, idx4 off 0x60 8, idx4 off 0x80 8 with
    | some i, _, _, _ => some (Device.clvUpd n (fun c => { c with tim := c.tim.put i (v &&& 0x00FF_FFFF) }))
    | _, some i, _, _ => some (Device.clvUpd n (fun c => { c with tofs := c.tofs.put i v }))
    | _, _, some i, _ => some (fun d => clvLocked n 0xFF07 ((d.clv.at n).line.at i) v (fun w c => { c with line := c.line.put i w }) d)
    | _, _, _, some i => some (fun d => clvLocked n 0x1FF ((d.clv.at n).omap.at i) v (fun w c => { c with omap := c.omap.put i w }) d)
    | _, _, _, _ => none

/-! ## GLK (R292, R309) -/

/-- R292: a write of GLK_CTL. -/
def writeGlkCtl (l : LinkNo) (v : Word) (now : Nat) (d : Device) : Device :=
  let was := (d.glk.at l).en
  let d := d.glkUpd l (fun x => { x with autore := bitOf v 1 })
  let d := if bitOf v 0 then linkEnable l now d else linkDisable l now d
  if bitOf v 2 && was then retrain l now d else d

/-- R309: the byte counters of GLK_ERR. -/
def clearErr (v : Word) (e : Tab Nat 4) : Tab Nat 4 :=
  e.mapIdx (fun i n => if fld v (8 * i + 7) (8 * i) = 0 then n else 0)

def writeGlk (l : LinkNo) (off : Nat) (v : Word) (now : Nat) : Wr :=
  match off with
  | 0x000 => some (writeGlkCtl l v now)
  | 0x004 => some (Device.glkUpd l (fun x => { x with cfg := v &&& 0x1_FFFF }))
  | 0x00C => some (Device.glkUpd l (fun x => { x with asym := v &&& 0xFFFF }))
  | 0x030 => some (Device.glkUpd l (fun x => { x with epflag := x.epflag &&& ~~~ (BitVec.ofNat 5 (fld v 4 0)) }))
  | 0x034 => some (Device.glkUpd l (fun x => { x with err := clearErr v x.err }))
  | 0x038 => some (Device.glkUpd l (fun x => { x with txlate := anyClears v x.txlate 0 }))
  | 0x03C => some (Device.glkUpd l (fun x => { x with hold := anyClears v x.hold 0 }))
  | 0x008 | 0x010 | 0x014 | 0x018 | 0x01C | 0x020 | 0x024 | 0x028 | 0x02C | 0x040 | 0x044 | 0x048 => ignored
  | _ => none

/-! ## LKO and SND (R328, R329) -/

def writeLko (k : LkNo) (off : Nat) (v : Word) : Wr :=
  match off with
  | 0x00 => some (Device.lkoUpd k (fun l => { l with cfg := v &&& 0x0007_FFFF }))
  | 0x04 => some (Device.lkoUpd k (fun l => { l with dac := v &&& 0x3FF }))
  | 0x08 => some (Device.lkoUpd k (fun l => { l with ramp := v &&& 0x03FF_FFFF }))
  | 0x0C => some (Device.lkoUpd k (fun l => { l with rdly := v &&& 0xFFFF }))
  | 0x10 => some (fun d => if bitOf v 0 then hostClear k d else d)
  | 0x14 => some (Device.lkoUpd k (fun l => { l with chkerr := l.chkerr && !bitOf v 3, clrref := l.clrref && !bitOf v 4 }))
  | 0x18 => some (Device.lkoUpd k (fun l => { l with cnt := anyClears v l.cnt 0 }))
  | 0x1C => ignored
  | _ => none

/-- R322, R329: a write of SND_REQ. -/
def writeSndReq (v : Word) (d : Device) : Device :=
  let m : BitVec 7 := BitVec.ofNat 7 (fld v 6 0)
  if bitOf v 8 then hostConversion m d else d.sndUpd (fun s => { s with reqMux := m })

def writeSnd (off : Nat) (v : Word) : Wr :=
  match off with
  | 0x000 => some (writeSndCtl v)
  | 0x004 => some (Device.sndUpd (fun s => { s with
      fovf := s.fovf && !bitOf v 1, skip := if fld v 15 8 = 0 then s.skip else 0 }))
  | 0x008 => some (writeSndReq v)
  | 0x024 => some (Device.sndUpd (fun s => { s with chkcnt := anyClears v s.chkcnt 0 }))
  | 0x00C | 0x020 => ignored
  | _ =>
    match idx4 off 0x010 3, idx4 off 0x100 16, idx4 off 0x200 80 with
    | some i, _, _ => some (Device.sndUpd (fun s => { s with bgen := s.bgen.put i (if i = 2 then v &&& 0xFFFF else v) }))
    | _, some i, _ => some (Device.sndUpd (fun s => { s with win := s.win.put i (v &&& 0x0FFF_0FFF) }))
    | _, _, some _ => ignored
    | _, _, _ => none

def writeAna (off : Nat) (v : Word) : Wr :=
  if off < 0x800 then writeLko (Fin.ofNat 32 (off / 0x40)) (off % 0x40) v
  else if off = 0x1000 then ignored
  else if off = 0x1004 then some (clearMask v)
  else if 0x8000 ≤ off then writeSnd (off - 0x8000) v
  else none

/-! ## XFR (R350, R357) -/

/-- R350, R357: a register that accepts writes only in IDLE; an ignored write sets REF. -/
def xcIdle (n : XcNo) (f : Xfer → Xfer) (d : Device) : Device :=
  d.xcUpd n (fun x => if x.st = .idle then f x else { x with ref := true })

/-- R350, R351, R355: a write of XFR_CTL. -/
def writeXcCtl (n : XcNo) (v : Word) (d : Device) : Device :=
  let d := d.xcUpd n (fun x => { x with autoresume := bitOf v 3 })
  let d := if bitOf v 0 then xGo n d else d
  let d := if bitOf v 1 then xAbort n d else d
  if bitOf v 2 then xResume n d else d

def writeXc (n : XcNo) (off : Nat) (v : Word) : Wr :=
  match off with
  | 0x00 => some (writeXcCtl n v)
  | 0x04 => some (xcIdle n (fun x => { x with cfg := v &&& 0x37F }))
  | 0x08 => some (Device.xcUpd n (fun x => { x with
      err := x.err && !bitOf v 5, ref := x.ref && !bitOf v 6, sigref := x.sigref && !bitOf v 7
      markfail := x.markfail && !bitOf v 8, stfail := x.stfail && !bitOf v 10
      kdrop := if fld v 31 24 = 0 then x.kdrop else 0 }))
  | 0x0C => some (xcIdle n (fun x => { x with pc := v &&& 0xFFFF_FFF8 }))
  | 0x10 => some (bell n)
  | 0x14 => some (fun d => if bitOf v 0 then kick n d else d)
  | 0x18 => some (xcIdle n (fun x => { x with sptr := v }))
  | 0x1C => some (xcIdle n (fun x => { x with dptr := v }))
  | 0x2C => some (Device.xcUpd n (fun x => { x with staddr := v &&& 0xFFFF_FFF8 }))
  | 0x20 | 0x24 | 0x28 | 0x30 | 0x34 => ignored
  | _ => none

/-- R346: a write of XFR_RQSEL clears the count of its line. -/
def writeRqsel (i : Fin 96) (v : Word) (d : Device) : Device :=
  { d with xfr := { d.xfr with lines := d.xfr.lines.put i ⟨BitVec.ofNat 4 (fld v 3 0), BitVec.ofNat 9 (fld v 24 16), 0⟩ } }

def writeXfr (off : Nat) (v : Word) : Wr :=
  if off < 0x2000 then writeXc (Fin.ofNat 32 (off / 0x100)) (off % 0x100) v
  else if off = 0x2000 then ignored
  else
    match idx4 off 0x2004 3, idx4 off 0x2100 96 with
    | some _, _ => ignored
    | _, some i => some (writeRqsel i v)
    | _, _ => none

/-! ## MEM (R226, R230, R232, R364, R380) -/

def writeBank (b : BankNo) (off : Nat) (v : Word) (now : Nat) : Wr :=
  match off with
  | 0x0 => some (bctlWrite b v now)
  | 0x4 => some (Device.bankUpd b (fun x => { x with ref := x.ref && !bitOf v 4 }))
  | 0x8 => ignored
  | 0xC => some (Device.bankUpd b (fun x => { x with loss := x.loss && !bitOf v 18 }))
  | _ => none

/-- R230: a write outside IDLE is ignored and sets REF. -/
def tabIdle (n : TableNo) (f : Device → Device) (d : Device) : Device :=
  if (d.alm.at n).st = .idle then f d else d.tabUpd n (fun t => { t with ref := true })

/-- R230, R232: a write of MEM_ACFG in IDLE: KIND and AXIS while DEF = 0, then DEF. -/
def writeAcfg (n : TableNo) (v : Word) (d : Device) : Device :=
  let d := if (d.alm.at n).defd then d
    else d.tabUpd n (fun t => { t with time := bitOf v 1, ax := Fin.ofNat 64 (fld v 13 8) })
  if bitOf v 0 then tableDefine n d else tableUndefine n d

/-- R226, R230: a write of MEM_ASW outside IDLE: GO and a change of the other fields are refused with REF, and CANCEL acts. -/
def aswBusy (n : TableNo) (v : Word) (d : Device) : Device :=
  let t := d.alm.at n
  let other := bitOf v 0 || fld v 2 1 != t.atmode.toNat || fld v 13 8 != t.swax.val || fld v 26 16 != t.lead.toNat
  let d := if bitOf v 3 then switchCancel n d else d
  if other || !bitOf v 3 then d.tabUpd n (fun t => { t with ref := true }) else d

/-- R226, R230, R232: a write of MEM_ASW: in IDLE the other fields, then GO; CANCEL acts in the other states. -/
def writeAsw (n : TableNo) (v : Word) (d : Device) : Device :=
  let m : BitVec 2 := BitVec.ofNat 2 (fld v 2 1)
  let a : Axis := Fin.ofNat 64 (fld v 13 8)
  let l : BitVec 11 := BitVec.ofNat 11 (fld v 26 16)
  if (d.alm.at n).st ≠ .idle then aswBusy n v d
  else if bitOf v 0 then switchGo n m a l d
  else d.tabUpd n (fun t => { t with atmode := m, swax := a, lead := l })

def writeTable (n : TableNo) (off : Nat) (v : Word) : Wr :=
  match off with
  | 0x00 => some (tabIdle n (writeAcfg n v))
  | 0x08 => some (tabIdle n (Device.tabUpd n (fun t => { t with sbase := fld v 13 0, slen := fld v 30 16 })))
  | 0x0C => some (writeAsw n v)
  | 0x10 => some (tabIdle n (Device.tabUpd n (fun t => { t with atLo := v })))
  | 0x14 => some (tabIdle n (Device.tabUpd n (fun t => { t with atHi := v })))
  | 0x18 => some (Device.tabUpd n (fun t => { t with ref := t.ref && !bitOf v 2, err := t.err && !bitOf v 3 }))
  | 0x04 | 0x1C | 0x20 | 0x24 => ignored
  | _ => none

def Device.memUpd (f : MemBlk → MemBlk) (d : Device) : Device := { d with mem := f d.mem }

def writeMem (off : Nat) (v : Word) (now : Nat) : Wr :=
  if off < 0x100 then writeBank (Fin.ofNat 16 (off / 0x10)) (off % 0x10) v now
  else if 0x4000 ≤ off ∧ off < 0x5000 then writeTable (Fin.ofNat 64 ((off - 0x4000) / 0x40)) (off % 0x40) v
  else
    match off with
    | 0x100 => some (Device.memUpd (fun m => { m with
        ww := if fld v 15 0 = 0 then m.ww else 0, rw' := if fld v 31 16 = 0 then m.rw' else 0 }))
    | 0x104 => ignored
    | 0x114 => some (Device.memUpd (fun m => { m with merr := m.merr && !bitOf v 2 }))
    | _ => none

/-! ## EVC (R386, R387, R389, R392, R395, R397) -/

def writeEvc (off : Nat) (v : Word) (now : Nat) : Wr :=
  match off with
  | 0x000 => some (writeRcfg v)
  | 0x004 => some (writeRbase v)
  | 0x008 => some (fun d => { d with evc := { d.evc with
      cfgref := d.evc.cfgref && !bitOf v 1, rpref := d.evc.rpref && !bitOf v 2 } })
  | 0x010 => some (evcRp v)
  | 0x018 => some (softSet (Fin.ofNat 256 (fld v 7 0)) (BitVec.ofNat 16 (fld v 31 16)) now)
  | 0x01C => some (evcDone (Fin.ofNat 256 (fld v 7 0)))
  | 0x020 => some (evcClr (Fin.ofNat 256 (fld v 7 0)))
  | 0x024 => some (fun d => { d with evc := { d.evc with drops := anyClears v d.evc.drops 0 } })
  | 0x00C | 0x014 => ignored
  | _ =>
    match idx4 off 0x100 8, idx4 off 0x120 8, idx4 off 0x140 24, idx4 off 0x400 256 with
    | some i, _, _, _ => some (evcMask i v)
    | _, some i, _, _ => some (evcMode i v)
    | _, _, some _, _ => ignored
    | _, _, _, some _ => ignored
    | _, _, _, _ => none

/-! ## HPS, PWR and DBG (R408, R414, R429, R430, R450) -/

def Device.hpsUpd (f : Hps → Hps) (d : Device) : Device := { d with hps := f d.hps }

/-- R414: a write of HPS_CMDBUF. -/
def writeCmdbuf (i : Fin 16) (v : Word) (d : Device) : Device :=
  if d.key.job.isSome then d.hpsUpd (fun h => { h with cmdref := true })
  else { d with key := { d.key with buf := d.key.buf.put i v } }

def writeHps (off : Nat) (v : Word) (now : Nat) : Wr :=
  match off with
  | 0x000 => some (Device.hpsUpd (fun h => { h with
      berr := h.berr && !bitOf v 1, wovf := h.wovf && !bitOf v 2, proto := h.proto && !bitOf v 3
      cmdref := h.cmdref && !bitOf v 4 }))
  | 0x010 => some (Device.hpsUpd (fun h => { h with dptr := v, half := none }))
  | 0x014 => some (Device.hpsUpd (fun h => { h with width := bitOf v 0, half := none }))
  | 0x020 => some (fun d => if d.key.job.isSome || bitOf v 0 then cmdGo now d else d)
  | 0x024 => some (fun d => { d with key := { d.key with done := d.key.done && !bitOf v 1 } })
  | 0x004 | 0x008 | 0x080 | 0x084 | 0x0A0 | 0x0A4 | 0x100 | 0x104 | 0x108 => ignored
  | _ =>
    match idx4 off 0x040 16, idx4 off 0x090 4, idx4 off 0x0C0 8 with
    | some i, _, _ => some (writeCmdbuf i v)
    | _, some _, _ => ignored
    | _, _, some _ => ignored
    | _, _, _ => none

def writePwr (off : Nat) (v : Word) : Wr :=
  match off with
  | 0x004 => some (fun d => if bitOf v 0 then romRun d else d)
  | 0x008 => some (Device.pwrUpd (fun p => { p with rstcause := p.rstcause &&& ~~~ (BitVec.ofNat 4 (fld v 3 0)) }))
  | 0x00C => some (hfaultClear (BitVec.ofNat 6 (fld v 5 0)))
  | 0x010 => some (domainRequest (BitVec.ofNat 3 (fld v 2 0)))
  | 0x014 => some (Device.pwrUpd (fun p => { p with dref := p.dref && !bitOf v 8 }))
  | 0x020 => some (Device.thmUpd (fun t => { t with sfail := t.sfail && !bitOf v 22 }))
  | 0x024 => some (Device.thmUpd (fun t => { t with tcfg := v &&& 0x00FF_FFFF }))
  | 0x028 => some (Device.thmUpd (fun t => { t with phold := fld v 31 16 }))
  | 0x02C => some (Device.thmUpd (fun t => { t with tmax := if fld v 11 0 = 0 then t.tmax else t.tmax.map (fun _ => t.tj) }))
  | 0x030 => some (Device.thmUpd (fun t => { t with ttime := anyClears v t.ttime 0 }))
  | 0x000 | 0x040 => ignored
  | _ => none

/-! ## The map (R473, R474) -/

/-- R473: a write of the register at address `a` that acts on the blocks alone. -/
def devWrite (a : Nat) (v : Word) (now : Nat) : Wr :=
  let off := a % 0x10000
  match a / 0x10000 with
  | 0x30 => writeSys off v now
  | 0x31 => writeStb off v now
  | 0x32 => if off < 0x4000 then writeAxs (Fin.ofNat 64 (off / 0x100)) (off % 0x100) v now else none
  | 0x34 => writeChn (Fin.ofNat 512 (off / 0x80)) (off % 0x80) v now
  | 0x35 => writeHlm off v
  | 0x36 => if off < 0x2000 then writeClv (Fin.ofNat 32 (off / 0x100)) (off % 0x100) v now else none
  | 0x37 => if off < 0x4000 then writeGlk (Fin.ofNat 32 (off / 0x200)) (off % 0x200) v now else none
  | 0x38 => writeAna off v
  | 0x39 => writeXfr off v
  | 0x3A => writeMem off v now
  | 0x3B => writeEvc off v now
  | 0x3C => writeHps off v now
  | 0x3D => writePwr off v
  | 0x3E => if off = 0 then ignored else none
  | _ => none

/-- HLM_OS_CTL and MEM_MCTL, whose writes also reach the memories. -/
def osCtlAddr : Nat := 0x350040
def mctlAddr : Nat := 0x3A0110

/-- R473: a write of the register at address `a`, a multiple of 4, other than HPS_DATA. -/
def regWrite (a : Nat) (v : Word) (now : Nat) (c : Core) : Option Core :=
  if a = osCtlAddr then some (writeOsCtl v now c)
  else if a = mctlAddr then some (mctlWrite v now c)
  else (devWrite a v now).map (fun f => c.mapDev f)

end Sys2Proof.Machine
end

