-- ==== Sys2Proof/Machine/HostPort.lean ====
section
/-! DEFINITION. The host port: quad-SPI and parallel protocols, ordering, bus errors and the data port
(R398 to R408, R428, R472 to R475). -/

namespace Sys2Proof.Machine

open Sys2Proof

/-! ## The memory windows (R472) -/

/-- The memories that R23 opens to the host. -/
inductive Window where
  | bank | alm | prog | store | lut | lbuf
  deriving DecidableEq, Repr

/-- R472: the window that holds address `a`, and the offset in it. -/
def windowOf (a : Nat) : Option (Window × Nat) :=
  if a < 0x200000 then some (.bank, a)
  else if a < 0x240000 then some (.alm, a - 0x200000)
  else if a < 0x260000 then some (.prog, a - 0x240000)
  else if a < 0x278000 then some (.store, a - 0x260000)
  else if a < 0x280000 then none
  else if a < 0x290000 then some (.lut, a - 0x280000)
  else if a < 0x2A0000 then none
  else if a < 0x2B0000 then some (.lbuf, a - 0x2A0000)
  else none

/-- What the port does with an access now. -/
inductive Gate where
  | pass
  /-- R406: refused with this cause. -/
  | refuse (cause : Nat)
  /-- R365, R407: held until its bank is ON. -/
  | hold
  deriving DecidableEq, Repr

/-- R365: a host access to a bank. -/
def bankGate (b : Bank) : Gate :=
  match b.st with
  | .on => .pass
  | .retention => if b.autowake then .hold else .refuse 4
  | .waking => .hold
  | .off | .powering => .refuse 4
  | .offline => .refuse 3

/-- R437: the memories refuse the host from TEST to LOAD; in LOAD the host may write the image into the banks that R257 step 1
waits for. -/
def bootLocked (w : Window) (wr : Bool) (d : Device) : Bool :=
  inBootTest d || (d.pwr.phase == .load && !(w == .bank && wr && d.hlm.waithost))

/-- R220, R254, R365, R406, R437: an access of the host to offset `o` of a window, a write or a read. -/
def windowGate (w : Window) (o : Nat) (wr : Bool) (d : Device) : Gate :=
  match w with
  | .bank => if bootLocked w wr d then .refuse 3 else bankGate (d.mem.bank.at (bankOf o))
  | .alm =>
    if bootLocked w wr d then .refuse 3
    else if d.pwr.alm ≠ .on then .refuse 5
    else if wr && entryLocked (o / 16) d then .refuse 3
    else .pass
  | .prog | .lut => if bootLocked w wr d then .refuse 3 else .pass
  | .store => if wr then .refuse 2 else .pass
  | .lbuf => if d.pwr.link = .on then .pass else .refuse 5

/-- R271: a host write to the clove table word at offset `o` is refused with WREF: the active bank, or the
inactive bank while a swap is pending, while EN = 1. -/
def lutRefused (o : Nat) (d : Device) : Bool :=
  let c := d.clv.at (Fin.ofNat 32 (o / 0x800))
  c.en && ((decide (0x400 ≤ o % 0x800) == c.bank) || c.pend)

/-- R472: `n` bytes at offset `o` of a window, read; R254: the open store reads 0 unless the image is readable. -/
def windowRead (w : Window) (n o now : Nat) (c : Core) : Nat × Core :=
  match w with
  | .bank => (c.ram.bankRead n o, c.mapDev (loadB o now))
  | .alm => (c.ram.almRead n o, c)
  | .prog => (c.ram.progRead n o, c)
  | .store => (if c.dev.hlm.readable then c.ram.storeRead n o else 0, c)
  | .lut => (c.ram.lutRead n o, c)
  | .lbuf => (c.ram.lbufRead n o, c)

/-- R472: `n` bytes at offset `o` of a window, written. -/
def windowWrite (w : Window) (n o v now : Nat) (c : Core) : Core :=
  match w with
  | .bank => storeB 3 n o v now c
  | .alm => (c.mapRam (Ram.almWrite n o v)).mapDev (Device.almNote 4 ((nats ((n + 3) / 4)).map (fun i => o / 4 + i)))
  | .prog => c.mapRam (Ram.progWrite n o v)
  | .store => c
  | .lut => if lutRefused o c.dev then c.mapDev (cloveFlag (Fin.ofNat 32 (o / 0x800)) 0) else c.mapRam (Ram.lutWrite n o v)
  | .lbuf => c.mapRam (Ram.lbufWrite n o v)

/-! ## One access -/

/-- How an access ends. -/
inductive Reply where
  /-- Served, with the data read (0 for a write). -/
  | ok (v : Nat) (c : Core)
  /-- R406: refused with this cause. -/
  | err (cause : Nat)
  /-- R407: held. -/
  | held (c : Core)
  deriving DecidableEq, Repr

/-- R365, R366, R406: one access of `n` bytes, inside its bank or buffer. -/
def windowAccess (w : Window) (n o : Nat) (wr : Option Nat) (now : Nat) (c : Core) : Reply :=
  match windowGate w o wr.isSome c.dev with
  | .refuse k => .err k
  | .hold => .held (c.mapDev (bankWake (bankOf o)))
  | .pass =>
    match wr with
    | some v => .ok 0 (windowWrite w n o v now c)
    | none => let r := windowRead w n o now c; .ok r.1 r.2

/-- R408: a 64-bit unit: one access in the banks and link buffers, elsewhere two of 32 bits, low address first. -/
def unitAccess (w : Window) (o : Nat) (wr : Option Nat) (now : Nat) (c : Core) : Reply :=
  if w = .bank ∨ w = .lbuf then windowAccess w 8 o wr now c
  else
    match windowAccess w 4 o (wr.map (· % 4294967296)) now c with
    | .ok l c =>
      match windowAccess w 4 (o + 4) (wr.map (· / 4294967296)) now c with
      | .ok h c => .ok (l + 4294967296 * h) c
      | r => r
    | r => r

/-- R408: DPTR rises by `n` and the half count restarts. -/
def dptrStep (n : Nat) (d : Device) : Device :=
  d.hpsUpd (fun h => { h with dptr := h.dptr + w32 n, half := none })

def setHalf (x : Option (Bool × Word)) (d : Device) : Device := d.hpsUpd (fun h => { h with half := x })

/-- R408: a served access is followed by `f`, with the data `v` of the register. -/
def Reply.andThen (r : Reply) (f : Nat → Core → Nat × Core) : Reply :=
  match r with
  | .ok v c => let x := f v c; .ok x.1 x.2
  | r => r

/-- R408: an access to HPS_DATA. The unit is the one that holds DPTR (DESIGN CHOICE, log 60). The other half of
a unit begun in the other direction is a free value (log 61). -/
def dataAccess (wr : Option Word) (now : Nat) (c : Core) : Reply :=
  let h := c.dev.hps
  match windowOf h.dptr.toNat with
  | none => .err 7
  | some (w, o) =>
    if !h.width then
      (windowAccess w 4 (o / 4 * 4) (wr.map BitVec.toNat) now c).andThen (fun v c => (v, c.mapDev (dptrStep 4)))
    else
      let o := o / 8 * 8
      match wr, h.half with
      | none, none =>
        (unitAccess w o none now c).andThen (fun v c =>
          (v % 4294967296, c.mapDev (setHalf (some (true, w32 (v / 4294967296))))))
      | none, some (true, x) => .ok x.toNat (c.mapDev (dptrStep 8))
      | none, some (false, _) => .ok c.dev.freeWord.toNat (c.mapDev (fun d => dptrStep 8 d.freeTaken))
      | some v, none => .ok 0 (c.mapDev (setHalf (some (false, v))))
      | some v, some (false, x) =>
        (unitAccess w o (some (join64 x v)) now c).andThen (fun _ c => (0, c.mapDev (dptrStep 8)))
      | some v, some (true, _) =>
        (unitAccess w o (some (join64 c.dev.freeWord v)) now c).andThen (fun _ c =>
          (0, c.mapDev (fun d => dptrStep 8 d.freeTaken)))

/-- R429: the address of HPS_DATA. -/
def hpsData : Nat := 0x3C0018

/-- R472 to R475: the access of a master of the host's rights to the word at `a`, bits [1:0] taken as 0. -/
def hostAccess (a : Nat) (wr : Option Word) (now : Nat) (c : Core) : Reply :=
  let a := a / 4 * 4
  if a = hpsData then dataAccess wr now c
  else
    match windowOf a, wr with
    | some (w, o), _ => windowAccess w 4 o (wr.map BitVec.toNat) now c
    | none, some v => match regWrite a v now c with | some c => .ok 0 c | none => .err 1
    | none, none => match regRead a now c.dev with | some (v, d) => .ok v.toNat { c with dev := d } | none => .err 1

/-! ## Bus errors (R406) -/

def raiseHps (cause arg now : Nat) (d : Device) : Device := raise 2 243 0x04 cause arg now d

/-- R406, R475: the address of a refused access, bits [1:0] taken as 0: of the memory word for HPS_DATA, but for cause DPTR
(DEDUCED, log 62). -/
def errAddr (a : Word) (cause : Nat) (d : Device) : Word :=
  (if a.toNat / 4 * 4 = hpsData ∧ cause ≠ 7 then d.hps.dptr else a) &&& 0xFFFF_FFFC

/-- R406: BERR, with address, cause and direction of the first error, and its record. -/
def busError (a : Word) (cause : Nat) (wr : Bool) (now : Nat) (d : Device) : Device :=
  raiseHps 1 cause now (d.hpsUpd (fun h => { h with
    berr := true
    berrInfo := if h.berr then h.berrInfo else w32 (cause + shB 3 wr)
    berrAddr := if h.berr then h.berrAddr else errAddr a cause d }))

/-! ## The queue of the port (R401, R402, R404, R405, R407) -/

def HostAcc.addr (x : HostAcc) : Word := match x with | .write a _ => a | .read a _ => a | .start a => a
def HostAcc.data (x : HostAcc) : Option Word := match x with | .write _ v => some v | .read _ _ => none | .start _ => none
def HostAcc.isStart (x : HostAcc) : Bool := match x with | .start _ => true | .write _ _ => false | .read _ _ => false

/-- R401, R404: the access at the head has ended, refused or with the word `v`. -/
def delivered (x : HostAcc) (bad : Bool) (v : Word) (h : Hps) : Hps :=
  let rest := h.q.tail
  let h := { h with q := rest, heldAt := none }
  match x with
  | .write _ _ => h
  | .read _ sent =>
    { h with dout := v, rdOut := if sent then h.rdOut ++ [(if bad then (0x5A : Byte) else (0xA5 : Byte), v)] else h.rdOut }
  | .start _ => { h with dout := v, prd := v, rerr := bad, rdy := !rest.any HostAcc.isStart }

/-- R406: the access at the head is refused. -/
def refuseHead (x : HostAcc) (cause now : Nat) (d : Device) : Device :=
  (busError x.addr cause x.data.isSome now d).hpsUpd (delivered x true 0)

/-- R407: 20 us. -/
def holdLimit : Nat := 160000

/-- R407: the access has been held for 20 us. -/
def holdOver (held : Option Nat) (now : Nat) : Bool :=
  match held with | some t => decide (t + holdLimit ≤ now) | none => false

def HostAcc.isWrite (x : HostAcc) : Bool := match x with | .write _ _ => true | .read _ _ => false | .start _ => false

/-- R389: a write of EVC_MASK that has landed completes once WP equals RSV. -/
def maskComplete (x : HostAcc) (d : Device) : Device :=
  if d.evc.wp = d.evc.rsv then ({ d with evc := { d.evc with maskWait := false } }).hpsUpd (delivered x false 0) else d

/-- R405: the access at the head is serviced, or held; a write of EVC_MASK stays at the head until it completes (R389). -/
def serveHead (now : Nat) (c : Core) : Core :=
  match c.dev.hps.q with
  | [] => c
  | x :: _ =>
    if x.isWrite && c.dev.evc.maskWait then c.mapDev (maskComplete x)
    else
    match hostAccess x.addr.toNat x.data now c with
    | .ok v c => if x.isWrite && c.dev.evc.maskWait then c else c.mapDev (Device.hpsUpd (delivered x false (w32 v)))
    | .err k => c.mapDev (refuseHead x k now)
    | .held c =>
      if holdOver c.dev.hps.heldAt now then c.mapDev (refuseHead x 6 now)
      else c.mapDev (Device.hpsUpd (fun h => { h with heldAt := some (h.heldAt.getD now) }))

/-- R405: the write at the head is serviced in step 2. -/
def serveWrite (now : Nat) (c : Core) : Core :=
  match c.dev.hps.q with | .write _ _ :: _ => serveHead now c | _ => c

/-- R405: the read at the head is serviced after step 6. -/
def serveRead (now : Nat) (c : Core) : Core :=
  match c.dev.hps.q with | .read _ _ :: _ => serveHead now c | .start _ :: _ => serveHead now c | _ => c

/-- R401: reads at the head of the queue, at most `n`, until one is held. -/
def drainReads (now : Nat) : Nat → Core → Core
  | 0, c => c
  | n + 1, c =>
    match c.dev.hps.q with
    | .read _ _ :: _ => let c := serveHead now c; if c.dev.hps.heldAt.isSome then c else drainReads now n c
    | _ => c

/-- R402: posted writes in the buffer. -/
def Hps.posted (h : Hps) : Nat := (h.q.filter HostAcc.isWrite).length

/-- R402: a word is posted, or dropped with WOVF when 16 wait. -/
def post (a v : Word) (now : Nat) (d : Device) : Device :=
  if d.hps.posted < 16 then d.hpsUpd (fun h => { h with q := h.q ++ [.write a v] })
  else raiseHps 2 0 now (d.hpsUpd (fun h => { h with wovf := true }))

/-- R400, R404: the address after `a`. -/
def nextAddr (a : Word) : Word := if a.toNat / 4 * 4 = hpsData then a else a + 4

def postAll (now : Nat) : List Word → Word → Device → Device
  | [], _, d => d
  | v :: l, a, d => postAll now l (nextAddr a) (post a v now d)

/-- R437, R471: the host port responds, from TEST on, while bank 7, on which its pins lie, is powered. -/
def portUp (d : Device) : Bool := decide (2 ≤ d.pwr.phase.num) && bitOf d.pwr.vioIn 7

/-- R398, R437: the host port responds, and the port with this strap is the selected one. -/
def portOn (par : Bool) (d : Device) : Bool := portUp d && d.hps.par == par

/-- R400, R428: a protocol error. -/
def protoError (arg now : Nat) (d : Device) : Device := raiseHps 3 arg now (d.hpsUpd (fun h => { h with proto := true }))

/-! ## Quad-SPI (R400 to R402) -/

/-- R400, R402: a WRITE burst. -/
def qspiWrite (a : Word) (ws : List Word) (now : Nat) (d : Device) : Device :=
  if !portOn false d then d
  else if fld a 1 0 ≠ 0 then protoError 2 now d
  else postAll now ws a d

def readQueue : Nat → Word → List HostAcc
  | 0, _ => []
  | n + 1, a => .read a true :: readQueue n (nextAddr a)

/-- R401: the host has left a burst whose reads still wait: they count as read, and their words are not sent. -/
def HostAcc.leave (x : HostAcc) : HostAcc :=
  match x with | .read a _ => .read a false | .write a v => .write a v | .start a => .start a

/-- R400: what a command byte asks for. -/
inductive QspiOp where
  | write | read | rdsr
  deriving DecidableEq, Repr

/-- R400: the command bytes. -/
def qspiOp (b : Byte) : Option QspiOp :=
  match b.toNat with
  | 0x02 => some .write
  | 0x0B => some .read
  | 0x05 => some .rdsr
  | _ => none

/-- R400, R428: a transaction that ends in a protocol error; a command byte that R400 lists is none. -/
def protoEnd (why : ProtoError) (now : Nat) (d : Device) : Device :=
  match why with
  | .command b => if (qspiOp b).isSome then d else protoError 1 now d
  | .alignment => protoError 2 now d
  | .midWord => protoError 3 now d

/-- R401: the status byte 0x00, clocked while the next word of the burst is not ready. -/
def waitByte (h : Hps) : Hps :=
  if h.q.any (fun x => match x with | .read _ sent => sent | .write _ _ => false | .start _ => false)
  then { h with rdOut := h.rdOut ++ [(0x00, 0)] } else h

/-- R400, R401: a READ burst of `n` words whose first status bytes are clocked. After a host write of this base period it is
serviced with it, at the boundary (log 64). -/
def qspiRead (a : Word) (n now : Nat) (c : Core) : Core :=
  if !portOn false c.dev then c
  else if fld a 1 0 ≠ 0 then c.mapDev (protoError 2 now)
  else
    let c := c.mapDev (Device.hpsUpd (fun h => { h with rdOut := [], q := h.q.map HostAcc.leave ++ readQueue n a }))
    let c := if c.dev.hps.heldAt.isSome || c.dev.turn.wrote then c else drainReads now c.dev.hps.q.length c
    c.mapDev (Device.hpsUpd waitByte)

/-- R402: the RDSR byte. -/
def rdsrByte (d : Device) : Byte :=
  BitVec.ofNat 8 (16 - d.hps.posted + shB 5 d.hps.berr + shB 6 d.key.job.isSome + shB 7 d.evc.evtLow)

/-! ## Parallel bus (R403, R404) -/

/-- R404: a read starts at PADDR. -/
def startRead (d : Device) : Device := d.hpsUpd (fun h => { h with q := h.q ++ [.start h.paddr], rdy := false })

def ainc (h : Hps) : Hps := if bitOf h.pctl 0 then { h with paddr := nextAddr h.paddr } else h

/-- R403: a write of PADDR_HI; with PREF a read starts at the address. -/
def paddrWrite (hi : BitVec 16) (d : Device) : Device :=
  let d := d.hpsUpd (fun h => { h with paddr := hi ++ BitVec.ofNat 16 (fld h.paddr 15 0) })
  if bitOf d.hps.pctl 1 then startRead d else d

/-- R403: a write of PDATA_HI posts the 32-bit write, then the address advances. -/
def pdataWrite (v : BitVec 16) (now : Nat) (d : Device) : Device :=
  (post d.hps.paddr (v ++ d.hps.pwlo) now d).hpsUpd ainc

/-- R403: a write cycle at HPA; other values ignore it. -/
def parWrite (hpa : Byte) (v : BitVec 16) (now : Nat) (d : Device) : Device :=
  if !portOn true d then d
  else
    match hpa.toNat with
    | 0 => d.hpsUpd (fun h => { h with paddr := BitVec.ofNat 16 (fld h.paddr 31 16) ++ v })
    | 1 => paddrWrite v d
    | 2 => d.hpsUpd (fun h => { h with pwlo := v })
    | 3 => pdataWrite v now d
    | 5 => d.hpsUpd (fun h => { h with pctl := BitVec.ofNat 2 (fld v 1 0) })
    | _ => d

/-- R403: PSTAT. -/
def parStat (d : Device) : BitVec 16 :=
  BitVec.ofNat 16 ((rdsrByte d).toNat + shB 8 d.hps.rdy + shB 9 d.hps.rerr)

/-- R403, R404: a read of PDATA_HI. -/
def pdataRead (d : Device) : Device :=
  if !d.hps.rdy then d.hpsUpd (fun h => { h with hpd := 0 })
  else
    let d := d.hpsUpd (fun h => ainc { h with hpd := BitVec.ofNat 16 (fld h.prd 31 16) })
    if bitOf d.hps.pctl 1 then startRead d else d

/-- R403, R404: a read cycle at HPA; other values read 0. -/
def parRead (hpa : Byte) (d : Device) : Device :=
  let put (v : BitVec 16) : Device := d.hpsUpd (fun h => { h with hpd := v })
  if !portOn true d then d
  else
    match hpa.toNat with
    | 0 => put (BitVec.ofNat 16 (fld d.hps.paddr 15 0))
    | 1 => put (BitVec.ofNat 16 (fld d.hps.paddr 31 16))
    | 2 => put (if d.hps.rdy then BitVec.ofNat 16 (fld d.hps.prd 15 0) else 0)
    | 3 => pdataRead d
    | 4 => put (parStat d)
    | 5 => put (BitVec.ofNat 16 d.hps.pctl.toNat)
    | _ => put 0

/-- R404: the read at the head completes. -/
def parallelComplete (now : Nat) (c : Core) : Core :=
  match c.dev.hps.q with | .start _ :: _ => serveHead now c | _ => c

/-! ## Register writes and the data port -/

/-- R402, R405: the port receives a single access. -/
def receive (a : Word) (wr : Option Word) (now : Nat) (d : Device) : Device :=
  match wr with
  | some v => post a v now d
  | none => d.hpsUpd (fun h => { h with q := h.q ++ [.read a false] })

/-- R405: an access to the port. It waits behind earlier ones. With none it is serviced here: a write in step 2 of the
boundary to come, and a read with the state after step 6 of the one that has passed, unless a host write has been serviced
since (log 64). -/
def serveNow (a : Word) (wr : Option Word) (now : Nat) (c : Core) : Core :=
  if !portUp c.dev then c
  else
    let alone := c.dev.hps.q.isEmpty && (wr.isSome || !c.dev.turn.wrote)
    let c := c.mapDev (receive a wr now)
    if !alone then c
    else serveHead now (c.mapDev (fun d => { d with turn := { d.turn with wrote := d.turn.wrote || wr.isSome } }))

/-! ## The commands -/

def execWrite (addr : Word) (words : List Word) (s : State) : Host.Outcome State Fault Refusal :=
  s.runDev (qspiWrite addr words)
def execRead (addr : Word) (count : Nat) (s : State) : Host.Outcome State Fault Refusal := s.run (qspiRead addr count)
def execRdsr (s : State) : Host.Outcome State Fault Refusal :=
  s.runDev (fun _ d => if portOn false d then d.hpsUpd (fun h => { h with rdsr := rdsrByte d }) else d)
def execProto (why : ProtoError) (s : State) : Host.Outcome State Fault Refusal :=
  s.runDev (fun now d => if portOn false d then protoEnd why now d else d)
def execPaddrHiWrite (hi : BitVec 16) (s : State) : Host.Outcome State Fault Refusal := s.runDev (parWrite 1 hi)
/-- R403: a write cycle: of PDATA_LO at HPA 2, of the other local registers at theirs. -/
def execPdataLoWrite (hpa : Byte) (v : BitVec 16) (s : State) : Host.Outcome State Fault Refusal := s.runDev (parWrite hpa v)
def execPdataHiWrite (v : BitVec 16) (s : State) : Host.Outcome State Fault Refusal := s.runDev (parWrite 3 v)
/-- R403, R404: a read cycle: of PDATA_HI at HPA 3, of the other local registers at theirs. -/
def execPdataHiRead (hpa : Byte) (s : State) : Host.Outcome State Fault Refusal := s.runDev (fun _ => parRead hpa)
def execParallelReadComplete (s : State) : Host.Outcome State Fault Refusal := s.run parallelComplete
def execRegisterWrite (addr : Word) (v : Word) (s : State) : Host.Outcome State Fault Refusal :=
  s.run (serveNow addr (some v))
def execDataPortAccess (wr : Option Word) (s : State) : Host.Outcome State Fault Refusal :=
  s.run (serveNow (w32 hpsData) wr)

end Sys2Proof.Machine
end

