-- ==== Sys2Proof/Machine/Debug.lean ====
section
/-! DEFINITION. The debug port's instructions (R424 to R428, R475). -/

namespace Sys2Proof.Machine

open Sys2Proof

def Device.dbgUpd (f : Dbg → Dbg) (d : Device) : Device := { d with dbg := f d.dbg }

/-- R425: instructions of the boundary-scan register and BUSACC are available in OPEN and OPENED. -/
def tapOpen (d : Device) : Bool := dbgState d == 0 || dbgState d == 2

/-- R425, R426: CHAL and RESP are available in CLOSED. -/
def tapClosed (d : Device) : Bool := dbgState d == 1

/-- R427: the TAP leaves EXTEST. -/
def extestLeave (now : Nat) (d : Device) : Device :=
  if d.dbg.extest then raiseDbg 4 0 now (d.dbgUpd (fun x => { x with extest := false })) else d

/-- R425, R427: an instruction other than EXTEST takes over, with data register `dr`. -/
def tapInstr (ir : Byte) (dr : BitVec 128) (now : Nat) (d : Device) : Device :=
  (extestLeave now d).dbgUpd (fun x => { x with ir := ir, dr := dr })

/-- R471: the debug port's pins lie on bank 6; while it is unpowered nothing is shifted in. -/
def tapUp (f : Device → Device) (d : Device) : Device := if bitOf d.pwr.vioIn 6 then f d else d

/-- R425: BYPASS, and what an unavailable instruction does; its data register captures 0 (DEDUCED, log 63). -/
def tapBypass (now : Nat) (d : Device) : Device := tapInstr 0xFF 0 now d

/-- R425, R426: CHAL. -/
def tapChal (now : Nat) (d : Device) : Device :=
  if tapClosed d then tapInstr 0x10 (if d.dbg.exhausted then 0 else d.key.nonce) now d else tapBypass now d

/-- R421, R425, R426: RESP; a check draws a new nonce. -/
def tapResp (resp : BitVec 128) (now : Nat) (d : Device) : Device :=
  if tapClosed d then
    let d := tapInstr 0x11 resp now d
    if d.dbg.exhausted then d else drawNonce (checkResponse resp 0 now d)
  else tapBypass now d

/-- R425: the levels at the timing pins, in the order that log 63 chooses. -/
def pinLevels (d : Device) : List Bool := (fins 256).map (fun p => (d.chn.at (Fin.castLE (by decide) p)).pin.ball)

/-- R425: SAMPLE/PRELOAD: the pins are captured, and the register is loaded. -/
def tapSample (bsr : List Bool) (now : Nat) (d : Device) : Device :=
  if tapOpen d then (tapInstr 0x02 0 now d).dbgUpd (fun x => { x with bsr := bsr, sample := pinLevels d }) else tapBypass now d

/-- R427: EXTEST; its entry disarms the device. -/
def tapExtest (bsr : List Bool) (now : Nat) (d : Device) : Device :=
  if tapOpen d then
    let was := d.dbg.extest
    let d := d.dbgUpd (fun x => { x with ir := 0x00, bsr := bsr, extest := true })
    if was then d else raiseDbg 4 1 now (dropPermit 2 now d)
  else tapBypass now d

/-- R425: the BUSACC data register: the address and the write bit shifted in, with start; data; done and error. -/
def busReg (addr data : Word) (wr bad ended : Bool) : BitVec 128 :=
  BitVec.ofNat 128 (addr.toNat + 4294967296 * data.toNat + shB 64 wr + shB 65 true + shB 66 ended + shB 67 bad)

def busResult (x : BusJob) (bad : Bool) (v : Word) (d : Device) : Device :=
  d.dbgUpd (fun b => { b with
    acc := none, dr := busReg x.addr (match x.data with | some w => w | none => v) x.data.isSome bad true })

/-- R407, R425: a BUSACC access is tried: served, refused in its own data register, or held. Its write of EVC_MASK holds no
access of the host (R389). -/
def busServe (x : BusJob) (now : Nat) (c : Core) : Core :=
  let wait := c.dev.evc.maskWait
  match hostAccess x.addr.toNat x.data now c with
  | .ok v c => c.mapDev (fun d => busResult x false (w32 v) { d with evc := { d.evc with maskWait := wait } })
  | .err _ => c.mapDev (busResult x true 0)
  | .held c =>
    if holdOver (some x.at') now then c.mapDev (busResult x true 0)
    else c.mapDev (Device.dbgUpd (fun b => { b with
      acc := some x, dr := busReg x.addr (x.data.getD 0) x.data.isSome false false }))

/-- R405, R407: a held BUSACC access is tried again, after the host's. -/
def busRetry (now : Nat) (c : Core) : Core :=
  match c.dev.dbg.acc with | some x => busServe x now c | none => c

/-- R405, R425, R437: BUSACC; with start its access is made, after one of the host that waits for the same boundary. -/
def tapBusacc (addr data : Word) (wr start : Bool) (now : Nat) (c : Core) : Core :=
  if !tapOpen c.dev then c.mapDev (tapBypass now)
  else
    let c := c.mapDev (fun d => (extestLeave now d).dbgUpd (fun x => { x with ir := 0x20 }))
    let x : BusJob := ⟨addr, if wr then some data else none, now⟩
    if !start || c.dev.pwr.phase.num < 2 then c
    else if c.dev.hps.q.isEmpty then busServe x now c
    else c.mapDev (Device.dbgUpd (fun b => { b with
      acc := some x, dr := busReg x.addr (x.data.getD 0) x.data.isSome false false }))

/-- R407: an access held for 20 us is refused: the host's, which is recorded (R406), or that of BUSACC. -/
def accessTimeout (now : Nat) (d : Device) : Device :=
  let d :=
    match d.hps.q with
    | x :: _ => if holdOver d.hps.heldAt now then refuseHead x 6 now d else d
    | [] => d
  match d.dbg.acc with
  | some x => if holdOver (some x.at') now then busResult x true 0 d else d
  | none => d

/-! ## The commands -/

def execAccessTimeout (s : State) : Host.Outcome State Fault Refusal := s.runDev accessTimeout
/-- R425: the IDCODE register. -/
def execIdcode (s : State) : Host.Outcome State Fault Refusal := s.runDev (fun now => tapUp (tapInstr 0x01 0xB512_0A6B now))
def execBypass (s : State) : Host.Outcome State Fault Refusal := s.runDev (fun now => tapUp (tapBypass now))
def execChal (s : State) : Host.Outcome State Fault Refusal := s.runDev (fun now => tapUp (tapChal now))
def execResp (resp : BitVec 128) (s : State) : Host.Outcome State Fault Refusal := s.runDev (fun now => tapUp (tapResp resp now))
def execSamplePreload (bsr : List Bool) (s : State) : Host.Outcome State Fault Refusal := s.runDev (fun now => tapUp (tapSample bsr now))
def execExtest (bsr : List Bool) (s : State) : Host.Outcome State Fault Refusal := s.runDev (fun now => tapUp (tapExtest bsr now))
def execExtestExit (s : State) : Host.Outcome State Fault Refusal := s.runDev (fun now => tapUp (extestLeave now))
def execBusacc (addr data : Word) (wr start : Bool) (s : State) : Host.Outcome State Fault Refusal :=
  s.run (fun now c => if bitOf c.dev.pwr.vioIn 6 then tapBusacc addr data wr start now c else c)

end Sys2Proof.Machine
end

