-- ==== Sys2Proof/Machine/Boundary.lean ====
section
/-! DEFINITION. The base-period boundary (R119, R144): what takes effect at it, in order. Commands served before
it act in its steps 1 and 2; what is free to fall at any time (a routine's COMMIT, a burst, a record write, a
conversion, the end of a power change) is a command of its own (DESIGN CHOICE, log 1). -/

namespace Sys2Proof.Machine

open Sys2Proof

/-- R96, R416: as the boundary begins, the input filters move on, and a channel in its safe state drives the level that
CHN_SAFE has held since an earlier boundary. -/
def boundaryPins (now : Nat) (d : Device) : Device :=
  forAll (fun c d =>
    let d := if isLink c then d else filterStep c now d
    if (d.chn.at c).stat.safe then d.chnUpd c ballSafe else d) d

/-- R144 step 1: routines land, in the order of their home channels. -/
def boundaryLand (now : Nat) (d : Device) : Device := d.serving.foldl (fun d h => landAll h now d) d

/-- R341, R351, R405, R413, R144 step 2: the host's access is serviced, signals are delivered, then a held BUSACC access
is tried, then the keyed command in process acts. -/
def boundaryWrites (now : Nat) (c : Core) : Core :=
  (jobStep now (busRetry now (xferSignals (serveWrite now c)))).mapDev (lockoutEnds now)

/-- R144 step 3: the fix of the boundary; then CLR and EN, timeouts and standstill fixes. -/
def boundaryFix (now : Nat) (d : Device) : Device :=
  let d := axisPending now (takeFix now d)
  forAll (fun a d => standstill a now (fixTimeout a now d)) d

/-- R313, R314: period starts, then the lookouts. -/
def boundaryLookouts (now : Nat) (d : Device) : Device :=
  evalLookouts now (forAll (fun c d => trainOver c now (periodStart c now d)) d)

/-- R270: the clove engines, then the timers' new settings (R277). -/
def boundaryCloves (now : Nat) (c : Core) : Core :=
  c.mapDev (fun d => forAll timersTake (forAll (fun n d => cloveStep n c.ram now d) d))

/-- R119 step 1. -/
def commitSafe (c : Chan) (now : Nat) (d : Device) : Device :=
  retireAll c now (enablePending c now (safeEntry c now d))

/-- R115, R119 step 2: applies: per channel, then of the group, then those of PHASE channels, which are checked on the
values that their references have at this boundary. -/
def commitApplies (now : Nat) (d : Device) : Device :=
  let d := forAll (fun c d => if (d.chn.at c).cfg.isPhase then d else applyLatch c now d) d
  forAll (fun c d => if (d.chn.at c).cfg.isPhase then applyLatch c now d else d) (gapplyLatch now d)

/-- R97, R100, R119 step 3: trains, those of PHASE channels after their references. -/
def commitTrains (now : Nat) (d : Device) : Device :=
  let d := forAll (fun c d => if (d.chn.at c).cfg.isPhase then d else trainStep c now d) d
  let d := forAll (fun c d => if (d.chn.at c).cfg.isPhase then trainStep c now d else d) d
  forAll phaseStops d

/-- R102, R119 step 5: the pin cell or the link slot of one channel takes what is committed. -/
def commitHandOver (c : Chan) (now : Nat) (d : Device) : Device :=
  if isLink c then handOver c now d else terminatePulses c now (testPulses c now d)

/-- R119, R144 step 4: the commit stage: retirements, applies, trains, program actions, clove actions (R263), and what
the pins and slots take. -/
def boundaryCommit (now : Nat) (d : Device) : Device :=
  let d := forAll (fun c d => commitSafe c now d) d
  let d := commitTrains now (commitApplies now d)
  let d := placeOutputs now (forAll (fun c d => commitAll c now d) d)
  forAll (fun c d => commitHandOver c now d) d

/-! ## Applies of programs (R116, R213)

An APPLY that is released at boundary B takes effect from B, and may govern a period whose commit instant is B, though its
release follows the commit stage. The applies that B will release are found by a trial of the commit stage and the releases;
the commit stage is then run with them in place (log 27). -/

def HeldEff.isApply (x : HeldEff) : Bool := match x with | .apply .. => true | _ => false

/-- Some program holds an APPLY. -/
def Device.holdsApply (d : Device) : Bool :=
  d.specHomes.any (fun h => (d.chn.at h).prog.segs.any (fun g => g.held.any HeldEff.isApply))

/-- The channels on which an apply starts at `now` by release, with no other pending before it. -/
def earlyApplies (now : Nat) (before after : Device) : List Chan :=
  (fins 512).filter (fun c =>
    let g := (before.chn.at c).cfg
    !g.gpend && g.pend.isNone && ((after.chn.at c).cfg.pend.any (fun p => p.b == now)))

/-- Their shadow sets and applies are put in place. -/
def earlySet (l : List Chan) (after d : Device) : Device :=
  l.foldl (fun d c => d.cfgUpd c (fun g =>
    { g with shadow := (after.chn.at c).cfg.shadow, pend := (after.chn.at c).cfg.pend })) d

/-- An apply that the commit stage took is not started again at its release; one that it did not take waits for its
release. -/
def earlyDone (l : List Chan) (d : Device) : Device :=
  l.foldl (fun d c => d.cfgUpd c (fun g => { g with early := g.pend.isNone, pend := none })) d

/-- R116: the commit stage, with the applies that this boundary releases. -/
def commitEarly (now : Nat) (c : Core) : Core :=
  if c.dev.holdsApply then
    let after := (releaseStep now (c.mapDev (boundaryCommit now))).dev
    let l := earlyApplies now c.dev after
    c.mapDev (fun d => if l.isEmpty then boundaryCommit now d else earlyDone l (boundaryCommit now (earlySet l after d)))
  else c.mapDev (boundaryCommit now)

/-- R116: an apply that started at this boundary's releases takes effect at it where no period has to commit. -/
def lateApplies (now : Nat) (d : Device) : Device :=
  forAll (fun c d =>
    if (d.chn.at c).cfg.pend.any (fun p => p.b == now) then applyLatch c now d else d) d

/-- R227, R280: after the commit stage, the links' frames and the almanac's switches. -/
def boundaryLinks (now : Nat) (c : Core) : Core :=
  (forAll (fun l c => linkStep l now c) c).mapDev (almanacStep now)

/-- R144 steps 5 and 6, with the helm between them. -/
def boundaryRelease (now : Nat) (c : Core) : Core :=
  (releaseStep now c).mapDev (fun d =>
    let d := helmStep now (lateApplies now d)
    if d.sys.snapReq then takeSnapshot now d else d)

/-- After step 6: event records, the transfer engine, reads (R405), the service limit, and a finished reload. -/
def boundaryAfter (now : Nat) (c : Core) : Core :=
  let c := c.mapDev (fun d => xferDecide now (evcStep now d))
  let c := forAll (fun n c => atendRefetch n now c) c
  let c := serveRead now c
  c.mapDev (fun d => reloadStep (d.serving.foldl (fun d h => serviceLimit h now d) d))

/-- R93, R108: the edges of one channel in the base period that begins. -/
def boundaryEdges (c : Chan) (now : Nat) (d : Device) : Device :=
  if isLink c then (nats 4).foldl (fun d _ => slotPass c now d) d
  else
    let d := placeAll c now d
    if (d.chn.at c).pin.ball = (d.chn.at c).pin.lastSeen then d else d.pinUpd c (PinCell.watch now)

/-- R254: the open store may meet and correct a single-bit error in any base period: a free value (log 3). -/
def eccCorrected (d : Device) : Device :=
  if d.pwr.phase = .ready then
    let hit := bitOf d.freeWord 0
    d.freeTaken.hlmUpd (fun h => { h with eccCorr := if hit then satInc 16 h.eccCorr else h.eccCorr })
  else d

/-- The base period that begins at `now` passes. -/
def basePeriod (now : Nat) (d : Device) : Device :=
  let d := forAll (fun c d => boundaryEdges c now d) d
  let d := forAll (fun n d => undefineAt n (now + 32) d) d
  let d := adoptLookouts (now + 32) (todTick now (ppsMiss now (holdTick now (keelTick now (endPorts d)))))
  { eccCorrected d with dr := { d.dr with taken := false }, turn := Turn.reset }

/-- R30, R144: everything that takes effect at boundary `now`, and the base period after it. -/
def boundary (now : Nat) (c : Core) : Core :=
  let c := boundaryWrites now (c.mapDev (fun d => boundaryLand now (boundaryPins now d)))
  let c := boundaryCloves now (c.mapDev (fun d => boundaryLookouts now (boundaryFix now d)))
  let c := boundaryLinks now (commitEarly now c)
  xferNext (now + 32) ((boundaryAfter now (boundaryRelease now c)).mapDev (basePeriod now))

/-- R30: machine time after one base period. -/
def nextBoundary (now : Nat) : Nat := (now + 32) % two64

def execBasePeriodBoundary (s : State) : Host.Outcome State Fault Refusal :=
  .next { s with mt := nextBoundary s.mt, core := boundary s.mt s.core }

end Sys2Proof.Machine
end

