-- ==== Sys2Proof/Machine/Dispatch.lean ====
section
/-! DEFINITION. One arm per command: a direct call of its meaning. -/

namespace Sys2Proof.Machine

open Sys2Proof

def exec (i : Instr) (s : State) : Host.Outcome State Fault Refusal :=
  match i with
  | .basePeriodBoundary => Sys2Proof.Machine.execBasePeriodBoundary s
  | .pllLock => Sys2Proof.Machine.execPllLock s
  | .refLost => Sys2Proof.Machine.execRefLost s
  | .refRestored => Sys2Proof.Machine.execRefRestored s
  | .pllUnlock => Sys2Proof.Machine.execPllUnlock s
  | .icalFail cell worst => Sys2Proof.Machine.execIcalFail cell worst s
  | .mtLoRead => Sys2Proof.Machine.execMtLoRead s
  | .ofsLoRead => Sys2Proof.Machine.execOfsLoRead s
  | .tppsEdge rising stamp width => Sys2Proof.Machine.execTppsEdge rising stamp width s
  | .ppsMissing => Sys2Proof.Machine.execPpsMissing s
  | .ttodFrame bytes stopsOk gapBits endStamp => Sys2Proof.Machine.execTtodFrame bytes stopsOk gapBits endStamp s
  | .discEn on => Sys2Proof.Machine.execDiscEn on s
  | .realign => Sys2Proof.Machine.execRealign s
  | .kxcalUpdate ppb => Sys2Proof.Machine.execKxcalUpdate ppb s
  | .keelPowerOn => Sys2Proof.Machine.execKeelPowerOn s
  | .xkeelStopped => Sys2Proof.Machine.execXkeelStopped s
  | .axisEnable ax => Sys2Proof.Machine.execAxisEnable ax s
  | .axisDisable ax => Sys2Proof.Machine.execAxisDisable ax s
  | .clr ax => Sys2Proof.Machine.execClr ax s
  | .quadEdge ch level stamp => Sys2Proof.Machine.execQuadEdge ch level stamp s
  | .standstillFix ax => Sys2Proof.Machine.execStandstillFix ax s
  | .zReference ch stamp => Sys2Proof.Machine.execZReference ch stamp s
  | .vmGo ax tscale => Sys2Proof.Machine.execVmGo ax tscale s
  | .fixTakesEffect => Sys2Proof.Machine.execFixTakesEffect s
  | .fixTimeout ax => Sys2Proof.Machine.execFixTimeout ax s
  | .channelEnable ch => Sys2Proof.Machine.execChannelEnable ch s
  | .channelDisable ch => Sys2Proof.Machine.execChannelDisable ch s
  | .applyGo ch atmode axis dropFirst => Sys2Proof.Machine.execApplyGo ch atmode axis dropFirst s
  | .applyCancel ch => Sys2Proof.Machine.execApplyCancel ch s
  | .applyLatch ch => Sys2Proof.Machine.execApplyLatch ch s
  | .gapplyGo atTime dropFirst => Sys2Proof.Machine.execGapplyGo atTime dropFirst s
  | .gapplyCancel => Sys2Proof.Machine.execGapplyCancel s
  | .gapplyLatch => Sys2Proof.Machine.execGapplyLatch s
  | .trainPeriodCommit ch => Sys2Proof.Machine.execTrainPeriodCommit ch s
  | .trainPeriodStart ch => Sys2Proof.Machine.execTrainPeriodStart ch s
  | .actionCommit ch => Sys2Proof.Machine.execActionCommit ch s
  | .edgePlaced ch => Sys2Proof.Machine.execEdgePlaced ch s
  | .entryRetire ch => Sys2Proof.Machine.execEntryRetire ch s
  | .inputEdge ch level stamp => Sys2Proof.Machine.execInputEdge ch level stamp s
  | .windowClose ch => Sys2Proof.Machine.execWindowClose ch s
  | .capAttrRead ch => Sys2Proof.Machine.execCapAttrRead ch s
  | .routineCommit ch => Sys2Proof.Machine.execRoutineCommit ch s
  | .segmentRelease ch => Sys2Proof.Machine.execSegmentRelease ch s
  | .faultFinal ch => Sys2Proof.Machine.execFaultFinal ch s
  | .snapshot => Sys2Proof.Machine.execSnapshot s
  | .serviceDispatch => Sys2Proof.Machine.execServiceDispatch s
  | .waitSatisfied ch => Sys2Proof.Machine.execWaitSatisfied ch s
  | .implicitWaitSatisfied ch => Sys2Proof.Machine.execImplicitWaitSatisfied ch s
  | .waitTimeout ch => Sys2Proof.Machine.execWaitTimeout ch s
  | .serviceLimit ch => Sys2Proof.Machine.execServiceLimit ch s
  | .preemption => Sys2Proof.Machine.execPreemption s
  | .microwordLimit ch uaddr => Sys2Proof.Machine.execMicrowordLimit ch uaddr s
  | .eccUncorr ch => Sys2Proof.Machine.execEccUncorr ch s
  | .engineFail eng => Sys2Proof.Machine.execEngineFail eng s
  | .paceWindow eng stepPs => Sys2Proof.Machine.execPaceWindow eng stepPs s
  | .engineLeaveService eng => Sys2Proof.Machine.execEngineLeaveService eng s
  | .illegalOpcode ch => Sys2Proof.Machine.execIllegalOpcode ch s
  | .add ch => Sys2Proof.Machine.execAdd ch s
  | .sub ch => Sys2Proof.Machine.execSub ch s
  | .mul ch => Sys2Proof.Machine.execMul ch s
  | .mac ch => Sys2Proof.Machine.execMac ch s
  | .and ch => Sys2Proof.Machine.execAnd ch s
  | .or ch => Sys2Proof.Machine.execOr ch s
  | .xor ch => Sys2Proof.Machine.execXor ch s
  | .shl ch => Sys2Proof.Machine.execShl ch s
  | .shr ch => Sys2Proof.Machine.execShr ch s
  | .asr ch => Sys2Proof.Machine.execAsr ch s
  | .cmp ch => Sys2Proof.Machine.execCmp ch s
  | .min ch => Sys2Proof.Machine.execMin ch s
  | .max ch => Sys2Proof.Machine.execMax ch s
  | .sat ch => Sys2Proof.Machine.execSat ch s
  | .ldi ch => Sys2Proof.Machine.execLdi ch s
  | .addImmediate ch => Sys2Proof.Machine.execAddImmediate ch s
  | .subImmediate ch => Sys2Proof.Machine.execSubImmediate ch s
  | .mulImmediate ch => Sys2Proof.Machine.execMulImmediate ch s
  | .macImmediate ch => Sys2Proof.Machine.execMacImmediate ch s
  | .andImmediate ch => Sys2Proof.Machine.execAndImmediate ch s
  | .orImmediate ch => Sys2Proof.Machine.execOrImmediate ch s
  | .xorImmediate ch => Sys2Proof.Machine.execXorImmediate ch s
  | .shlImmediate ch => Sys2Proof.Machine.execShlImmediate ch s
  | .shrImmediate ch => Sys2Proof.Machine.execShrImmediate ch s
  | .asrImmediate ch => Sys2Proof.Machine.execAsrImmediate ch s
  | .cmpImmediate ch => Sys2Proof.Machine.execCmpImmediate ch s
  | .minImmediate ch => Sys2Proof.Machine.execMinImmediate ch s
  | .maxImmediate ch => Sys2Proof.Machine.execMaxImmediate ch s
  | .satImmediate ch => Sys2Proof.Machine.execSatImmediate ch s
  | .tadd ch => Sys2Proof.Machine.execTadd ch s
  | .taddImmediate ch => Sys2Proof.Machine.execTaddImmediate ch s
  | .tsub ch => Sys2Proof.Machine.execTsub ch s
  | .tcmp ch => Sys2Proof.Machine.execTcmp ch s
  | .tnow ch => Sys2Proof.Machine.execTnow ch s
  | .tpack ch => Sys2Proof.Machine.execTpack ch s
  | .tpart ch => Sys2Proof.Machine.execTpart ch s
  | .padd ch => Sys2Proof.Machine.execPadd ch s
  | .paddImmediate ch => Sys2Proof.Machine.execPaddImmediate ch s
  | .psub ch => Sys2Proof.Machine.execPsub ch s
  | .pmod ch => Sys2Proof.Machine.execPmod ch s
  | .p2t ch => Sys2Proof.Machine.execP2t ch s
  | .t2p ch => Sys2Proof.Machine.execT2p ch s
  | .pset ch => Sys2Proof.Machine.execPset ch s
  | .pget ch => Sys2Proof.Machine.execPget ch s
  | .b ch => Sys2Proof.Machine.execB ch s
  | .call ch => Sys2Proof.Machine.execCall ch s
  | .ret ch => Sys2Proof.Machine.execRet ch s
  | .br ch => Sys2Proof.Machine.execBr ch s
  | .loop ch => Sys2Proof.Machine.execLoop ch s
  | .nop ch => Sys2Proof.Machine.execNop ch s
  | .ldmG ch => Sys2Proof.Machine.execLdmG ch s
  | .ldmT ch => Sys2Proof.Machine.execLdmT ch s
  | .ldmP ch => Sys2Proof.Machine.execLdmP ch s
  | .stmG ch => Sys2Proof.Machine.execStmG ch s
  | .stmT ch => Sys2Proof.Machine.execStmT ch s
  | .stmP ch => Sys2Proof.Machine.execStmP ch s
  | .ldc ch => Sys2Proof.Machine.execLdc ch s
  | .stc ch => Sys2Proof.Machine.execStc ch s
  | .lda ch => Sys2Proof.Machine.execLda ch s
  | .emit ch => Sys2Proof.Machine.execEmit ch s
  | .emitp ch => Sys2Proof.Machine.execEmitp ch s
  | .armtrip ch => Sys2Proof.Machine.execArmtrip ch s
  | .armtripPosition ch => Sys2Proof.Machine.execArmtripPosition ch s
  | .cancel ch => Sys2Proof.Machine.execCancel ch s
  | .capt ch => Sys2Proof.Machine.execCapt ch s
  | .captn ch => Sys2Proof.Machine.execCaptn ch s
  | .alm ch => Sys2Proof.Machine.execAlm ch s
  | .almn ch => Sys2Proof.Machine.execAlmn ch s
  | .wait ch => Sys2Proof.Machine.execWait ch s
  | .sig ch => Sys2Proof.Machine.execSig ch s
  | .xkick ch => Sys2Proof.Machine.execXkick ch s
  | .lsend ch => Sys2Proof.Machine.execLsend ch s
  | .cfg ch => Sys2Proof.Machine.execCfg ch s
  | .apply ch => Sys2Proof.Machine.execApply ch s
  | .yield ch => Sys2Proof.Machine.execYield ch s
  | .halt ch => Sys2Proof.Machine.execHalt ch s
  | .uop ch => Sys2Proof.Machine.execUop ch s
  | .hostgo storeOk => Sys2Proof.Machine.execHostgo storeOk s
  | .skip => Sys2Proof.Machine.execSkip s
  | .cloveStep n => Sys2Proof.Machine.execCloveStep n s
  | .cloveTimer n k => Sys2Proof.Machine.execCloveTimer n k s
  | .cloveEnable n => Sys2Proof.Machine.execCloveEnable n s
  | .cloveDisable n => Sys2Proof.Machine.execCloveDisable n s
  | .swap n => Sys2Proof.Machine.execSwap n s
  | .forceSwap n => Sys2Proof.Machine.execForceSwap n s
  | .cloveCancel n => Sys2Proof.Machine.execCloveCancel n s
  | .rxdRead n => Sys2Proof.Machine.execRxdRead n s
  | .txdWrite n v => Sys2Proof.Machine.execTxdWrite n v s
  | .flagSet n mask => Sys2Proof.Machine.execFlagSet n mask s
  | .flagClear n mask => Sys2Proof.Machine.execFlagClear n mask s
  | .linkEnable l => Sys2Proof.Machine.execLinkEnable l s
  | .linkDisable l => Sys2Proof.Machine.execLinkDisable l s
  | .retrain l => Sys2Proof.Machine.execRetrain l s
  | .frameTransmit l => Sys2Proof.Machine.execFrameTransmit l s
  | .upstreamStatus l hdr pay stamp => Sys2Proof.Machine.execUpstreamStatus l hdr pay stamp s
  | .upstreamCapt l hdr pay stamp => Sys2Proof.Machine.execUpstreamCapt l hdr pay stamp s
  | .upstreamFix l hdr pay stamp => Sys2Proof.Machine.execUpstreamFix l hdr pay stamp s
  | .upstreamEcho l hdr pay stamp => Sys2Proof.Machine.execUpstreamEcho l hdr pay stamp s
  | .upstreamSync l hdr pay stamp => Sys2Proof.Machine.execUpstreamSync l hdr pay stamp s
  | .upstreamUser l hdr pay stamp => Sys2Proof.Machine.execUpstreamUser l hdr pay stamp s
  | .upstreamBadFrame l why => Sys2Proof.Machine.execUpstreamBadFrame l why s
  | .quietPeriodEnd l => Sys2Proof.Machine.execQuietPeriodEnd l s
  | .trainTmo l => Sys2Proof.Machine.execTrainTmo l s
  | .configRetry l => Sys2Proof.Machine.execConfigRetry l s
  | .lookoutInputCrossing k microvolts => Sys2Proof.Machine.execLookoutInputCrossing k microvolts s
  | .lookoutClear k => Sys2Proof.Machine.execLookoutClear k s
  | .clrm mask => Sys2Proof.Machine.execClrm mask s
  | .lookoutEnable k => Sys2Proof.Machine.execLookoutEnable k s
  | .lookoutDisable k => Sys2Proof.Machine.execLookoutDisable k s
  | .conversionStart => Sys2Proof.Machine.execConversionStart s
  | .hostConversion mux => Sys2Proof.Machine.execHostConversion mux s
  | .conversionComplete val => Sys2Proof.Machine.execConversionComplete val s
  | .sampleSkip => Sys2Proof.Machine.execSampleSkip s
  | .sndFifoRead => Sys2Proof.Machine.execSndFifoRead s
  | .xfrGo n => Sys2Proof.Machine.execXfrGo n s
  | .xfrAbort n => Sys2Proof.Machine.execXfrAbort n s
  | .abortComplete n => Sys2Proof.Machine.execAbortComplete n s
  | .xfrResume n => Sys2Proof.Machine.execXfrResume n s
  | .xfrAutoresume n => Sys2Proof.Machine.execXfrAutoresume n s
  | .bell n => Sys2Proof.Machine.execBell n s
  | .kick n => Sys2Proof.Machine.execKick n s
  | .descriptorFetch n => Sys2Proof.Machine.execDescriptorFetch n s
  | .burst n => Sys2Proof.Machine.execBurst n s
  | .xfrWaitSatisfied n => Sys2Proof.Machine.execXfrWaitSatisfied n s
  | .signalDelivery n => Sys2Proof.Machine.execSignalDelivery n s
  | .planeUnitGrant => Sys2Proof.Machine.execPlaneUnitGrant s
  | .atendRefetch n => Sys2Proof.Machine.execAtendRefetch n s
  | .bankStateRequest bk v => Sys2Proof.Machine.execBankStateRequest bk v s
  | .bankStateChange bk => Sys2Proof.Machine.execBankStateChange bk s
  | .bankPowerComplete bk => Sys2Proof.Machine.execBankPowerComplete bk s
  | .maceGo v => Sys2Proof.Machine.execMaceGo v s
  | .maceAbort => Sys2Proof.Machine.execMaceAbort s
  | .maceWindow part => Sys2Proof.Machine.execMaceWindow part s
  | .destructiveRun faults spareFaults => Sys2Proof.Machine.execDestructiveRun faults spareFaults s
  | .switchGo n atmode swaxis lead => Sys2Proof.Machine.execSwitchGo n atmode swaxis lead s
  | .checkComplete n => Sys2Proof.Machine.execCheckComplete n s
  | .tableSwitch n => Sys2Proof.Machine.execTableSwitch n s
  | .drainEnd n => Sys2Proof.Machine.execDrainEnd n s
  | .switchCancel n => Sys2Proof.Machine.execSwitchCancel n s
  | .tableUndefine n => Sys2Proof.Machine.execTableUndefine n s
  | .tableDefine n => Sys2Proof.Machine.execTableDefine n s
  | .recordReservation => Sys2Proof.Machine.execRecordReservation s
  | .recordWrite => Sys2Proof.Machine.execRecordWrite s
  | .softwareSet src detail => Sys2Proof.Machine.execSoftwareSet src detail s
  | .evcDone src => Sys2Proof.Machine.execEvcDone src s
  | .evcClr src => Sys2Proof.Machine.execEvcClr src s
  | .evcMode k v => Sys2Proof.Machine.execEvcMode k v s
  | .evcMask k v => Sys2Proof.Machine.execEvcMask k v s
  | .evcRp v => Sys2Proof.Machine.execEvcRp v s
  | .ringEnable size layout => Sys2Proof.Machine.execRingEnable size layout s
  | .ringDisable => Sys2Proof.Machine.execRingDisable s
  | .write addr words => Sys2Proof.Machine.execWrite addr words s
  | .read addr count => Sys2Proof.Machine.execRead addr count s
  | .rdsr => Sys2Proof.Machine.execRdsr s
  | .proto why => Sys2Proof.Machine.execProto why s
  | .paddrHiWrite hi => Sys2Proof.Machine.execPaddrHiWrite hi s
  | .pdataLoWrite hpa v => Sys2Proof.Machine.execPdataLoWrite hpa v s
  | .pdataHiWrite v => Sys2Proof.Machine.execPdataHiWrite v s
  | .pdataHiRead hpa => Sys2Proof.Machine.execPdataHiRead hpa s
  | .parallelReadComplete => Sys2Proof.Machine.execParallelReadComplete s
  | .registerWrite addr v => Sys2Proof.Machine.execRegisterWrite addr v s
  | .accessTimeout => Sys2Proof.Machine.execAccessTimeout s
  | .dataPortAccess wr => Sys2Proof.Machine.execDataPortAccess wr s
  | .arm cnt mac => Sys2Proof.Machine.execArm cnt mac s
  | .disarm cnt mac => Sys2Proof.Machine.execDisarm cnt mac s
  | .safecfg cnt mac arg0 arg1 arg2 => Sys2Proof.Machine.execSafecfg cnt mac arg0 arg1 arg2 s
  | .storeload cnt mac arg0 => Sys2Proof.Machine.execStoreload cnt mac arg0 s
  | .fuse cnt mac args vaux => Sys2Proof.Machine.execFuse cnt mac args vaux s
  | .dbgopen cnt mac resp => Sys2Proof.Machine.execDbgopen cnt mac resp s
  | .linkcfg cnt mac arg0 arg1 arg2 arg3 => Sys2Proof.Machine.execLinkcfg cnt mac arg0 arg1 arg2 arg3 s
  | .keyroll cnt mac arg0 => Sys2Proof.Machine.execKeyroll cnt mac arg0 s
  | .ctrseed cnt mac => Sys2Proof.Machine.execCtrseed cnt mac s
  | .lockoutEnd => Sys2Proof.Machine.execLockoutEnd s
  | .idcode => Sys2Proof.Machine.execIdcode s
  | .bypass => Sys2Proof.Machine.execBypass s
  | .chal => Sys2Proof.Machine.execChal s
  | .resp resp => Sys2Proof.Machine.execResp resp s
  | .samplePreload bsr => Sys2Proof.Machine.execSamplePreload bsr s
  | .extest bsr => Sys2Proof.Machine.execExtest bsr s
  | .extestExit => Sys2Proof.Machine.execExtestExit s
  | .busacc addr data wr start => Sys2Proof.Machine.execBusacc addr data wr start s
  | .porst why low => Sys2Proof.Machine.execPorst why low s
  | .warmReset low => Sys2Proof.Machine.execWarmReset low s
  | .brown which => Sys2Proof.Machine.execBrown which s
  | .supply which => Sys2Proof.Machine.execSupply which s
  | .ioloss k => Sys2Proof.Machine.execIoloss k s
  | .bootFlow stage => Sys2Proof.Machine.execBootFlow stage s
  | .romrun => Sys2Proof.Machine.execRomrun s
  | .domainRequest v => Sys2Proof.Machine.execDomainRequest v s
  | .domainPowerComplete dom => Sys2Proof.Machine.execDomainPowerComplete dom s
  | .hfaultClear mask => Sys2Proof.Machine.execHfaultClear mask s
  | .thermalEvaluation sensors powerMw => Sys2Proof.Machine.execThermalEvaluation sensors powerMw s
  | .shutdown => Sys2Proof.Machine.execShutdown s
  | .icalOk cell worst => Sys2Proof.Machine.execIcalOk cell worst s
  | .xkeelStart => Sys2Proof.Machine.execXkeelStart s
  | .vkeelLoss => Sys2Proof.Machine.execVkeelLoss s
  | .supplyRestored which => Sys2Proof.Machine.execSupplyRestored which s
  | .domainStateChange dom => Sys2Proof.Machine.execDomainStateChange dom s

end Sys2Proof.Machine
end

