-- ==== Sys2Proof/Machine/Outputs.lean ====
section
/-! DEFINITION. What the outputs show in each condition of the device (R398, R438, R456, R457, R465, R471): a view of the
state, which no command changes of itself. -/

namespace Sys2Proof.Machine

open Sys2Proof

/-- R438: what the device does with a ball: drives it low or high, leaves it high-impedance with a pull or with none,
drives it as its port's traffic commands, or drives it from the boundary-scan register, whose layout the manual does
not give. -/
inductive Ball where
  | low | high | pullDown | pullUp | float | active | scan
  deriving DecidableEq, Repr

/-- R433, R435: a reset input or a core supply holds the device in reset. -/
def Device.held (d : Device) : Bool := d.pwr.hold != 0

/-- R434, R471: the supply of pin bank `k` lies in a window. -/
def Device.bankUp (k : Nat) (d : Device) : Bool := bitOf d.pwr.vioIn k

/-! ## Timing pins -/

/-- R438, R456: an undriven timing pin shows the pull of CHN_PIN.PULL. -/
def pullOf (pin : Word) : Ball :=
  match fld pin 4 3 with
  | 1 => .float
  | 2 => .pullUp
  | _ => .pullDown

/-- R438: a timing pin as its channel commands it. -/
def chanBall (h : Channel) : Ball :=
  match h.pin.drive with
  | .low => .low
  | .high => .high
  | .undriven => pullOf h.cfg.pin

/-- R438, R456: timing pin TP0 to TP255. A bank whose supply is outside its window counts as unpowered (log 58): its
passive pull-down holds the pin, in EXTEST too. -/
def tpOut (p : Fin 256) (d : Device) : Ball :=
  if d.held || !d.bankUp (p.val / 32) then .pullDown
  else if d.dbg.extest then .scan
  else if d.pwr.phase ≠ .ready then .pullDown
  else chanBall (d.chn.at (Fin.castLE (by decide) p))

/-! ## Links -/

/-- R278, R438: what a downstream pair carries: nothing, the code groups of the frame in transmission, or the
boundary-scan register. -/
inductive Pair where
  | silent
  | line (groups : List (BitVec 10))
  | scan
  deriving DecidableEq, Repr

/-- R279, R280, R438: GLTXn. -/
def gltxOut (l : LinkNo) (d : Device) : Pair :=
  if d.held then .silent
  else if d.dbg.extest then .scan
  else if d.pwr.phase ≠ .ready || (d.glw.at l).line.isEmpty then .silent
  else .line (d.glw.at l).line

/-! ## PERMIT and EVT_N -/

/-- R439, R457: PERMIT conducts. -/
def permitOut (d : Device) : Bool := d.pwr.permit && !d.dbg.extest && !d.held

/-- R396, R438, R457, R471: EVT_N, a push-pull output on bank 7. -/
def evtOut (d : Device) : Ball :=
  if d.held then .pullDown
  else if !d.bankUp 7 then .float
  else if d.dbg.extest then .scan
  else if d.evc.evtLow then .low
  else .high

/-! ## Ports -/

/-- R398, R438, R456: the pins of a host port that HSEL selects (`sel`) or does not. They are high-impedance until the host
port responds (R437); then the selected port is active, and the other's pins are inputs with their pull-downs. In EXTEST
the row names TDO alone as active (log 60). -/
def hostOut (sel : Bool) (d : Device) : Ball :=
  if d.held then .pullDown
  else if !d.bankUp 7 || d.dbg.extest || d.pwr.phase.num < 2 then .float
  else if sel then .active
  else .pullDown

/-- R398: HIO0 to HIO3, of the quad-SPI port, and HPD0 to HPD15, of the parallel port. -/
def hioOut (d : Device) : Ball := hostOut (!d.hps.par) d
def hpdOut (d : Device) : Ball := hostOut d.hps.par d

/-- R438: TDO. -/
def tdoOut (d : Device) : Ball :=
  if d.held then .pullDown
  else if !d.bankUp 6 || (d.pwr.phase.num < 2 && !d.dbg.extest) then .float
  else .active

/-- R437, R438, R258: the boot ROM reads the image from the flash: in LOAD, or after a STORELOAD. -/
def bootReads (d : Device) : Bool := loadWaits d && !d.held && d.bankUp 6 && !d.dbg.extest

/-- R438, R456: BCS_N (`cs`), or BSCK and BIO0 to BIO3. -/
def bootOut (cs : Bool) (d : Device) : Ball :=
  if d.held then (if cs then .pullUp else .pullDown)
  else if !d.bankUp 6 then .float
  else if d.dbg.extest then .scan
  else if bootReads d then .active
  else .float

/-- R465: a transaction of the boot port: command byte, 24-bit address, dummy clocks, and the lines that carry data. -/
structure BootRead where
  command : Byte
  addr    : BitVec 24
  dummy   : Nat
  lines   : Nat
  deriving DecidableEq, Repr

/-- R257, R465: the transaction in which the boot ROM reads the image, from flash address 0, by quad-output fast read. -/
def bootRead (d : Device) : Option BootRead := if bootReads d then some ⟨0x6B, 0, 8, 4⟩ else none

end Sys2Proof.Machine
end

