-- ==== Sys2Proof/Safety.lean ====
section
/-! DEFINITION. What claims call a safe run: memories in canonical form, and a command that takes effect. -/

namespace Sys2Proof.Machine

open Sys2Proof

/-- The memories are in canonical form. -/
def State.wf (s : State) : Prop := s.core.ram.wf

/-- The command takes effect in `s`: it neither faults nor is refused. -/
def Completes (i : Instr) (s : State) : Prop := ∃ t, exec i s = .next t

/-- Every waiting command takes effect, one after another. -/
def SafeRun : Nat → State → Prop
  | 0, _ => True
  | n + 1, s => ∃ t, step s = .next t ∧ SafeRun n t

end Sys2Proof.Machine
end

