-- ==== Sys2Proof/Certificates/Slice0/Obligations.lean ====
section
/-! DEFINITION. What is claimed of the block, for the provers. -/

namespace Sys2Proof.Machine

open Sys2Proof

/-! ## Words that the statements share -/

/-- The state with other blocks. -/
def State.withDev (s : State) (d : Device) : State := { s with core := { s.core with dev := d } }

/-- Command `i` takes effect in `s` and changes the blocks by `f`; memories, machine time and the queue stay. -/
def Changes (i : Instr) (s : State) (f : Device → Device) : Prop := exec i s = .next (s.withDev (f s.core.dev))

/-- Command `i` takes effect in `s` and changes nothing. -/
def Idles (i : Instr) (s : State) : Prop := exec i s = .next s

/-- Command `i` takes effect in `s`, and `p` holds of the blocks after it; memories, time and queue stay. -/
def Brings (i : Instr) (s : State) (p : Device → Prop) : Prop := ∃ d, exec i s = .next (s.withDev d) ∧ p d

end Sys2Proof.Machine

open Sys2Proof Sys2Proof.Machine

/-! ## The machine as a whole -/

/-- A step takes the command at the front of the queue and runs it with the queue's rest; an empty queue idles (the
model's choice, log entry 2). -/
def Obligations.StepRunsFrontCommand : Prop :=
  (∀ (c : Instr) (rest : List Instr) (s : State),
    step { s with pending := c :: rest } = exec c { s with pending := rest }) ∧
  (∀ s : State, s.pending = [] → step s = .next s)

/-- R30: machine time, below 2^64, rises by exactly 32 at every base-period boundary, so its five low bits stay 0; the first
PLL lock, of a device that nothing holds in reset, sets it to 0; a warm reset neither stops the PLL nor clears it; no other command, register write, keyed command, servo
action or fault changes it. (Cold resets, which restart it, are stated with the resets.) Every command takes effect, and none
touches the queue behind it. -/
def Obligations.MachineTimeMovesOnlyAtBoundaries : Prop :=
  ∀ (i : Instr) (s : State), ∃ t, exec i s = .next t ∧ t.pending = s.pending ∧
    ((∀ w, i ≠ .porst w true) → (∀ w, i ≠ .brown w) →
      (i = .basePeriodBoundary → t.mt = (s.mt + 32) % 18446744073709551616 ∧ t.core.dev.turn = Turn.reset) ∧
      (i = .pllLock → t.mt = if s.core.dev.pwr.hold = 0 ∧ s.core.dev.pwr.phase = .pll then 0 else s.mt) ∧
      (∀ low, i = .warmReset low → t.core.dev.stb.pllLock = s.core.dev.stb.pllLock) ∧
      (i ≠ .basePeriodBoundary → i ≠ .pllLock → t.mt = s.mt) ∧
      (s.mt % 32 = 0 → t.mt % 32 = 0) ∧ (s.mt < 18446744073709551616 → t.mt < 18446744073709551616))

/-- R30: machine time stays a multiple of 32 below 2^64 through every step. Where the rules leave it open, the statement
follows the model's choices (log entry 8). -/
def Obligations.MachineTimeStaysOnTheGrid : Prop :=
  ∀ s t : State, s.mt % 32 = 0 ∧ s.mt < 18446744073709551616 → step s = .next t →
    t.mt % 32 = 0 ∧ t.mt < 18446744073709551616

/-- Every step keeps all six memories in canonical form: addresses rising, inside the window, and no entry equal to what
an unlisted address reads as. Where the rules leave it open, the statement follows the model's choices (log entry 4). -/
def Obligations.MemoriesStayCanonical : Prop :=
  ∀ s t : State, s.core.ram.wf → step s = .next t → t.core.ram.wf

/-- The state after reset: memories canonical, no command waiting, and the values that the manual states: PHASE PLL,
PERMIT not conducting, the run gate closed (R25, R437, R439), every channel undriven and disabled (R25, R85), every
source masked (R389), the keel at its power-on values (R45, R420). Where the rules leave it open, the statement follows
the model's choices (log entries 4, 10 to 13). -/
def Obligations.ResetState : Prop :=
  State.reset.core.ram.wf ∧ State.reset.mt = 0 ∧ State.reset.pending = [] ∧
  (let d := State.reset.core.dev
   d.pwr.phase = .pll ∧ d.pwr.permit = false ∧ d.pwr.armed = false ∧ d.pwr.gate = false ∧ d.pwr.hfault = 0 ∧
   (∀ c : Chan, (d.chn.at c).cfg.en = false ∧ (d.chn.at c).stat.driven = false ∧ (d.chn.at c).pin.drive = .undriven ∧
     (d.chn.at c).cfg.safe = 2 ∧ (d.chn.at c).cfg.live.lead = 0x40) ∧
   (∀ i : Fin 8, d.evc.mask.at i = 0xFFFF_FFFF ∧ d.evc.mode.at i = 0) ∧
   d.keel.keelLost = true ∧ d.keel.ctrLost = true ∧ d.keel.kcnt = 0 ∧ d.keel.ancValid = false ∧
   d.stb.ctl = 0x68 ∧ d.stb.st = .free ∧ d.hlm.mode = .boot)

/-- R164, R382 to R384, R389: a raised cause counts in RCNT, and joins the queue of four of an edge source, or becomes the
latch of a level source; other sources, masks and modes stay. -/
def Obligations.RaiseReachesItsSource : Prop :=
  ∀ (step src kind cause arg now : Nat) (d : Device), src < 256 →
    let s : SourceNo := Fin.ofNat 256 src
    let old := d.evc.src.at s
    let new := (raise step src kind cause arg now d).evc.src.at s
    let c : Cause := ⟨BitVec.ofNat 8 kind, BitVec.ofNat 16 (cause % 256 * 256 + arg % 256), now, now, step⟩
    new.rcnt = old.rcnt + 1 ∧
    (d.evc.isLevel s = false → old.q.length < 4 → (∀ x ∈ old.q, x.at' < now) → new.q = old.q ++ [c] ∧ new.drop = old.drop) ∧
    (d.evc.isLevel s = false → 4 ≤ old.q.length → new.q.length = 4 ∧ new.drop = min 255 (old.drop + 1) ∧
      (raise step src kind cause arg now d).evc.drops = min 4294967295 (d.evc.drops + 1)) ∧
    (d.evc.isLevel s = true → (∀ p, old.latch = some p → p.at' < now) → new.latch = some c) ∧
    (∀ o : SourceNo, o ≠ s → (raise step src kind cause arg now d).evc.src.at o = d.evc.src.at o) ∧
    (raise step src kind cause arg now d).evc.mask = d.evc.mask ∧ (raise step src kind cause arg now d).pwr = d.pwr

/-! ## Instructions of channel programs -/

namespace Sys2Proof.Machine

/-- R155, R161: the instruction word that the service fetches, and the word after it. -/
def insWord (s : State) (v : Service) : Word := w32 (s.core.ram.progRead 4 (4 * v.ctx.pc.toNat))
def extWord (s : State) (v : Service) : Word := w32 (s.core.ram.progRead 4 (4 * (v.ctx.pc.toNat + 1)))

/-- R161, R182: LDI, TADD and PADD with an extension word, and CFG are two words long. -/
def twoWords (op : Nat) : Prop := op = 0x0F ∨ op = 0x21 ∨ op = 0x31 ∨ op = 0x90

/-- R156, R163, R182, R253: `v` is the running service of `ch`, it can execute its next instruction, which has opcode
`op` and lies whole in program memory, and no image patches that opcode. -/
def Ready (s : State) (ch : Chan) (v : Service) (op : Nat) : Prop :=
  (s.core.dev.chn.at ch).prog.svc = some v ∧ v.count < 1024 ∧ v.ctx.past = false ∧
  (∀ r, v.staged.getLast? = some r → r.fin = .go) ∧ fld (insWord s v) 31 24 = op ∧
  s.core.dev.hlm.openRec op = none ∧ (twoWords op → v.ctx.pc ≠ 0x7FFF)

/-- R238, R250: after one routine of service `v`: its writes are staged, and the service has executed one more. -/
def afterRoutine (s : State) (ch : Chan) (v : Service) (r : Staged) : State :=
  s.withDev (s.core.dev.progUpd ch (fun p => { p with
    svc := some { v with ctx := r.ctx, count := v.count + 1, staged := v.staged ++ [r], retried := false } }))

/-- R250: a routine that writes context `c` and goes on `len` words further. -/
def goesOnTo (s : State) (v : Service) (len : Nat) (c : Context) : Staged :=
  { ctx := { c with pc := BitVec.ofNat 15 (v.ctx.pc.toNat + len), past := decide (32768 ≤ v.ctx.pc.toNat + len) }
    newSeg := none, emit := false, act := none, held := [], convs := [], stop := false, zmark := false, tail := none, late := false
    fin := .go, at' := s.mt }

/-- R175: a routine that makes no write and faults. -/
def faultsWith (s : State) (v : Service) (code : Nat) : Staged :=
  { ctx := v.ctx, newSeg := none, emit := false, act := none, held := [], convs := [], stop := false
    zmark := false, tail := none, late := false, fin := .fault ⟨code, 0, v.ctx.pc, none⟩, at' := s.mt }

/-- Instruction `i` of opcode `op`, `len` words long, completes on operands that `ok` admits, and changes only the
context of its service, by `f` (instruction word, extension word, context). -/
def Computes (i : Chan → Instr) (op len : Nat) (ok : Word → Context → Prop) (f : Word → Word → Context → Context) : Prop :=
  ∀ (s : State) (ch : Chan) (v : Service), Ready s ch v op → ok (insWord s v) v.ctx →
    exec (i ch) s = .next (afterRoutine s ch v (goesOnTo s v len (f (insWord s v) (extWord s v) v.ctx)))

/-- R160, R175: instruction `i` faults with `code` on words that `bad` holds of, and makes no write. -/
def FaultsAs (i : Chan → Instr) (op code : Nat) (bad : Service → Word → Prop) : Prop :=
  ∀ (s : State) (ch : Chan) (v : Service), Ready s ch v op → bad v (insWord s v) →
    exec (i ch) s = .next (afterRoutine s ch v (faultsWith s v code))

/-- R160, R183: a field that must be 0 is not: the fault ILLEGAL. -/
def IllFormed (i : Chan → Instr) (op : Nat) (bad : Word → Prop) : Prop := FaultsAs i op 1 (fun _ w => bad w)

/-- Every operand is admitted. -/
def always (_ : Word) (_ : Context) : Prop := True
/-- R183: format R with fn 0. -/
def fnZero (w : Word) (_ : Context) : Prop := fld w 11 0 = 0
/-- R183: format R with the fn bits above `n - 1` zero. -/
def fnBelow (n : Nat) (w : Word) (_ : Context) : Prop := fld w 11 0 < 2 ^ n

/-- R161: the operands g[a], g[b], and the two extensions of imm16. -/
def gA (w : Word) (c : Context) : Word := c.g.at (Fin.ofNat 16 (fld w 19 16))
def gB (w : Word) (c : Context) : Word := c.g.at (Fin.ofNat 16 (fld w 15 12))
def immS (w : Word) (_ : Context) : Word := BitVec.ofInt 32 (signedOf 16 (fld w 15 0))
def immZ (w : Word) (_ : Context) : Word := BitVec.ofNat 32 (fld w 15 0)

/-- g[d] takes `r`; Z and N show `r`. -/
def intoG (w : Word) (r : Word) (c : Context) : Context :=
  { c with g := c.g.put (Fin.ofNat 16 (fld w 23 20)) r, z := r == 0, n := r.msb }

/-- R184, R185: ADD. -/
def addTo (x : Word → Context → Word) (w _e : Word) (c : Context) : Context :=
  let a := gA w c
  let b := x w c
  { intoG w (a + b) c with
    c := decide (4294967296 ≤ a.toNat + b.toNat)
    v := decide (a.toInt + b.toInt < -2147483648 ∨ 2147483648 ≤ a.toInt + b.toInt) }

/-- R184, R185: the flags of SUB and CMP. -/
def subFlagsOf (a b : Word) (c : Context) : Context :=
  { c with
    z := a - b == 0, n := (a - b).msb, c := decide (b.toNat ≤ a.toNat)
    v := decide (a.toInt - b.toInt < -2147483648 ∨ 2147483648 ≤ a.toInt - b.toInt) }
def subTo (x : Word → Context → Word) (w _e : Word) (c : Context) : Context :=
  subFlagsOf (gA w c) (x w c) { c with g := c.g.put (Fin.ofNat 16 (fld w 23 20)) (gA w c - x w c) }
def cmpTo (x : Word → Context → Word) (w _e : Word) (c : Context) : Context := subFlagsOf (gA w c) (x w c) c

def logicTo (f : Word → Word → Word) (x : Word → Context → Word) (w _e : Word) (c : Context) : Context :=
  intoG w (f (gA w c) (x w c)) c

/-- R184: MUL with HI and U. -/
def mulTo (hi u : Word → Bool) (x : Word → Context → Word) (w _e : Word) (c : Context) : Context :=
  let a := gA w c
  let b := x w c
  let full : Int := if u w then (a.toNat : Int) * b.toNat else a.toInt * b.toInt
  let ovf : Bool := if u w then decide (4294967296 ≤ full) else decide (full < -2147483648 ∨ 2147483648 ≤ full)
  { intoG w (BitVec.ofInt 32 (if hi w then full / 4294967296 else full)) c with v := !hi w && ovf }

/-- R184: MAC, the exact sum. -/
def macTo (n : Word → Nat) (x : Word → Context → Word) (w _e : Word) (c : Context) : Context :=
  let s : Int := (c.g.at (Fin.ofNat 16 (fld w 23 20))).toInt + (gA w c).toInt * (x w c).toInt / (2 ^ n w : Nat)
  { intoG w (BitVec.ofInt 32 s) c with v := decide (s < -2147483648 ∨ 2147483648 ≤ s) }

/-- R184, R185: shifts: `r` is the result and `out` the last bit shifted out, for a shift amount `k`. -/
def shiftTo (r : Word → Nat → Word) (out : Word → Nat → Bool) (x : Word → Context → Word) (w _e : Word) (c : Context) :
    Context :=
  let k := fld (x w c) 5 0
  { intoG w (r (gA w c) k) c with c := if k = 0 then c.c else out (gA w c) k }
def shlBits (a : Word) (k : Nat) : Word := if 31 < k then 0 else a <<< k
def shrBits (a : Word) (k : Nat) : Word := if 31 < k then 0 else a >>> k
def asrBits (a : Word) (k : Nat) : Word :=
  if 31 < k then (if a.getLsbD 31 then 0xFFFF_FFFF else 0) else BitVec.ofInt 32 (a.toInt / (2 ^ k : Nat))
def shlOut (a : Word) (k : Nat) : Bool := decide (k ≤ 32) && a.getLsbD (32 - k)
def shrOut (a : Word) (k : Nat) : Bool := a.getLsbD (k - 1)
def asrOut (a : Word) (k : Nat) : Bool := if k ≤ 32 then a.getLsbD (k - 1) else a.getLsbD 31

/-- R184: MIN and MAX, with U; ties choose g[a]. -/
def pickTo (u : Word → Bool) (big : Bool) (x : Word → Context → Word) (w _e : Word) (c : Context) : Context :=
  let a := gA w c
  let b := x w c
  let le : Word → Word → Bool := fun p q => if u w then decide (p.toNat ≤ q.toNat) else decide (p.toInt ≤ q.toInt)
  let first := if big then le b a else le a b
  { intoG w (if first then a else b) c with c := first }

/-- R186: SAT of g[a] into [lo, hi]. -/
def satTo (lo hi : Word → Context → Int) (w _e : Word) (c : Context) : Context :=
  let i := (gA w c).toInt
  let r : Int := max (lo w c) (min (hi w c) i)
  { intoG w (BitVec.ofInt 32 r) c with v := decide (r ≠ i) }

def bit0 (w : Word) : Bool := w.getLsbD 0
def bit1 (w : Word) : Bool := w.getLsbD 1
def never' (_ : Word) : Bool := false

end Sys2Proof.Machine

/-- R160, R183 to R185: ADD, SUB, CMP, AND, OR, XOR and LDI, register and immediate forms: result and flags; nothing
else changes. A field that must be 0 and is not faults ILLEGAL. Where the rules leave it open, the statement follows the
model's choices (log entry 37). -/
def Obligations.AddSubLogic : Prop :=
  Computes .add 0x01 1 fnZero (addTo gB) ∧ Computes .addImmediate 0x11 1 always (addTo immS) ∧
  Computes .sub 0x02 1 fnZero (subTo gB) ∧ Computes .subImmediate 0x12 1 always (subTo immS) ∧
  Computes .cmp 0x0B 1 (fun w _ => fld w 11 0 = 0 ∧ fld w 23 20 = 0) (cmpTo gB) ∧
  Computes .cmpImmediate 0x1B 1 (fun w _ => fld w 23 20 = 0) (cmpTo immS) ∧
  Computes .and 0x05 1 fnZero (logicTo (· &&& ·) gB) ∧ Computes .andImmediate 0x15 1 always (logicTo (· &&& ·) immZ) ∧
  Computes .or 0x06 1 fnZero (logicTo (· ||| ·) gB) ∧ Computes .orImmediate 0x16 1 always (logicTo (· ||| ·) immZ) ∧
  Computes .xor 0x07 1 fnZero (logicTo (· ^^^ ·) gB) ∧ Computes .xorImmediate 0x17 1 always (logicTo (· ^^^ ·) immZ) ∧
  Computes .ldi 0x0F 2 (fun w _ => fld w 19 16 = 0 ∧ fld w 15 0 = 0) (fun w e c => intoG w e c) ∧
  IllFormed .add 0x01 (fun w => fld w 11 0 ≠ 0) ∧ IllFormed .sub 0x02 (fun w => fld w 11 0 ≠ 0) ∧
  IllFormed .and 0x05 (fun w => fld w 11 0 ≠ 0) ∧ IllFormed .or 0x06 (fun w => fld w 11 0 ≠ 0) ∧
  IllFormed .xor 0x07 (fun w => fld w 11 0 ≠ 0) ∧ IllFormed .cmp 0x0B (fun w => fld w 11 0 ≠ 0 ∨ fld w 23 20 ≠ 0) ∧
  IllFormed .cmpImmediate 0x1B (fun w => fld w 23 20 ≠ 0) ∧ IllFormed .ldi 0x0F (fun w => fld w 19 16 ≠ 0 ∨ fld w 15 0 ≠ 0)

/-- R160, R183 to R185: MUL, MAC and the shifts, register and immediate forms; a field that must be 0 and is not, and an
immediate shift of 64 or more, fault ILLEGAL. Where the rules leave it open, the statement follows the model's choices
(log entry 37). -/
def Obligations.MultiplyShift : Prop :=
  Computes .mul 0x03 1 (fnBelow 2) (mulTo bit0 bit1 gB) ∧ Computes .mulImmediate 0x13 1 always (mulTo never' never' immS) ∧
  Computes .mac 0x04 1 (fnBelow 5) (macTo (fun w => fld w 4 0) gB) ∧
  Computes .macImmediate 0x14 1 always (macTo (fun _ => 0) immS) ∧
  Computes .shl 0x08 1 fnZero (shiftTo shlBits shlOut gB) ∧
  Computes .shlImmediate 0x18 1 (fun w _ => fld w 15 0 < 64) (shiftTo shlBits shlOut immZ) ∧
  Computes .shr 0x09 1 fnZero (shiftTo shrBits shrOut gB) ∧
  Computes .shrImmediate 0x19 1 (fun w _ => fld w 15 0 < 64) (shiftTo shrBits shrOut immZ) ∧
  Computes .asr 0x0A 1 fnZero (shiftTo asrBits asrOut gB) ∧
  Computes .asrImmediate 0x1A 1 (fun w _ => fld w 15 0 < 64) (shiftTo asrBits asrOut immZ) ∧
  IllFormed .mul 0x03 (fun w => 4 ≤ fld w 11 0) ∧ IllFormed .mac 0x04 (fun w => 32 ≤ fld w 11 0) ∧
  IllFormed .shl 0x08 (fun w => fld w 11 0 ≠ 0) ∧ IllFormed .shr 0x09 (fun w => fld w 11 0 ≠ 0) ∧ IllFormed .asr 0x0A (fun w => fld w 11 0 ≠ 0) ∧
  IllFormed .shlImmediate 0x18 (fun w => 64 ≤ fld w 15 0) ∧ IllFormed .shrImmediate 0x19 (fun w => 64 ≤ fld w 15 0) ∧
  IllFormed .asrImmediate 0x1A (fun w => 64 ≤ fld w 15 0)

/-- R160, R175, R184 to R186: MIN, MAX and SAT, register and immediate forms; their ill-formed words fault ILLEGAL, and
SAT without U at a negative g[b] faults ARITH. Where the rules leave it open, the statement follows the model's choices
(log entry 37). -/
def Obligations.MinMaxSat : Prop :=
  Computes .min 0x0C 1 (fun w _ => fld w 11 2 = 0 ∧ fld w 0 0 = 0) (pickTo bit1 false gB) ∧
  Computes .minImmediate 0x1C 1 always (pickTo never' false immS) ∧
  Computes .max 0x0D 1 (fun w _ => fld w 11 2 = 0 ∧ fld w 0 0 = 0) (pickTo bit1 true gB) ∧
  Computes .maxImmediate 0x1D 1 always (pickTo never' true immS) ∧
  Computes .sat 0x0E 1 (fun w c => fld w 11 2 = 0 ∧ fld w 0 0 = 0 ∧ (bit1 w = false → (gB w c).getLsbD 31 = false))
    (satTo (fun w c => if bit1 w then 0 else -(gB w c).toInt)
      (fun w c => if bit1 w then ((gB w c).toNat : Int) else (gB w c).toInt)) ∧
  Computes .satImmediate 0x1E 1 (fun w _ => fld w 14 6 = 0 ∧ 1 ≤ fld w 5 0 ∧ fld w 5 0 ≤ 32)
    (satTo (fun w _ => if w.getLsbD 15 then 0 else -((2 ^ (fld w 5 0 - 1) : Nat) : Int))
      (fun w _ => if w.getLsbD 15 then (2 ^ fld w 5 0 : Nat) - 1 else (2 ^ (fld w 5 0 - 1) : Nat) - 1)) ∧
  IllFormed .min 0x0C (fun w => fld w 11 2 ≠ 0 ∨ fld w 0 0 ≠ 0) ∧ IllFormed .max 0x0D (fun w => fld w 11 2 ≠ 0 ∨ fld w 0 0 ≠ 0) ∧
  IllFormed .sat 0x0E (fun w => fld w 11 2 ≠ 0 ∨ fld w 0 0 ≠ 0) ∧
  IllFormed .satImmediate 0x1E (fun w => fld w 14 6 ≠ 0 ∨ fld w 5 0 = 0 ∨ 32 < fld w 5 0) ∧
  FaultsAs .sat 0x0E 15 (fun v w => fld w 11 0 = 0 ∧ (gB w v.ctx).getLsbD 31 = true)

namespace Sys2Proof.Machine

/-- R161: t and p operands. -/
def tA (w : Word) (c : Context) : DWord := c.t.at (Fin.ofNat 4 (fld w 19 16))
def tB (w : Word) (c : Context) : DWord := c.t.at (Fin.ofNat 4 (fld w 15 12))
def pA (w : Word) (c : Context) : BitVec 48 := c.p.at (Fin.ofNat 4 (fld w 19 16))
def pB (w : Word) (c : Context) : BitVec 48 := c.p.at (Fin.ofNat 4 (fld w 15 12))
def intoT (w : Word) (r : DWord) (c : Context) : Context := { c with t := c.t.put (Fin.ofNat 4 (fld w 23 20)) r }
def intoP (w : Word) (r : BitVec 48) (c : Context) : Context := { c with p := c.p.put (Fin.ofNat 4 (fld w 23 20)) r }

/-- R160: the register fields d, a and b name t or p registers that are present. -/
def dOk (w : Word) : Prop := fld w 23 20 < 4
def aOk (w : Word) : Prop := fld w 19 16 < 4
def bOk (w : Word) : Prop := fld w 15 12 < 4

/-- R187: TADD. -/
def taddTo (x : DWord) (w : Word) (c : Context) : Context :=
  let a := tA w c
  { intoT w (a + x) c with
    z := a + x == 0, n := (a + x).msb, c := decide (18446744073709551616 ≤ a.toNat + x.toNat)
    v := decide (a.toInt + x.toInt < -9223372036854775808 ∨ 9223372036854775808 ≤ a.toInt + x.toInt) }

/-- R187: the flags of TCMP, and of TSUB into a t register. -/
def tsubFlags (a b : DWord) (c : Context) : Context :=
  { c with
    z := a - b == 0, n := (a - b).msb, c := decide (b.toNat ≤ a.toNat)
    v := decide (a.toInt - b.toInt < -9223372036854775808 ∨ 9223372036854775808 ≤ a.toInt - b.toInt) }

/-- R187: TSUB into a g register: the true difference, saturated. -/
def tsubG (w : Word) (c : Context) : Context :=
  let d : Int := ((tA w c).toNat : Int) - (tB w c).toNat
  let r : Int := max (-2147483648) (min 2147483647 d)
  { intoG w (BitVec.ofInt 32 r) c with c := decide ((tB w c).toNat ≤ (tA w c).toNat), v := decide (r ≠ d) }

/-- R189: PADD. -/
def paddTo (x : BitVec 48) (w : Word) (c : Context) : Context :=
  let a := pA w c
  { intoP w (a + x) c with
    z := a + x == 0, n := (a + x).msb
    v := decide (a.toInt + x.toInt < -140737488355328 ∨ 140737488355328 ≤ a.toInt + x.toInt) }

/-- R189: PSUB without a wrap. -/
def psubTo (w : Word) (c : Context) : Context :=
  let a := pA w c
  let b := pB w c
  { intoP w (a - b) c with
    z := a - b == 0, n := (a - b).msb
    v := decide (a.toInt - b.toInt < -140737488355328 ∨ 140737488355328 ≤ a.toInt - b.toInt) }

/-- Instruction `i` completes on operands that `ok` admits for its service, and stages the context `f` gives. -/
def ComputesIn (i : Chan → Instr) (op len : Nat) (ok : Service → Word → Prop) (f : Service → Word → Context) : Prop :=
  ∀ (s : State) (ch : Chan) (v : Service), Ready s ch v op → ok v (insWord s v) →
    exec (i ch) s = .next (afterRoutine s ch v (goesOnTo s v len (f v (insWord s v))))

/-- R189: axis `n` at the view boundary. -/
def axisSeen (v : Service) (w : Word) : AxView := v.view.axs.at (Fin.ofNat 64 (fld w 5 0))

end Sys2Proof.Machine

/-- R187: TADD, TSUB, TCMP, TNOW, TPACK and TPART: result and flags; a fn bit that is not named, or a field that must be
0, and is not, faults ILLEGAL. A TPART word whose b field is not 0 is left to log entry 37. -/
def Obligations.TimeInstructions : Prop :=
  Computes .tadd 0x20 1 (fun w _ => fld w 11 0 = 0 ∧ dOk w ∧ aOk w)
    (fun w _ c => taddTo ((gB w c).signExtend 64) w c) ∧
  Computes .tadd 0x20 1 (fun w _ => fld w 11 0 = 1 ∧ dOk w ∧ aOk w ∧ bOk w) (fun w _ c => taddTo (tB w c) w c) ∧
  Computes .taddImmediate 0x21 2 (fun w _ => fld w 15 0 = 0 ∧ dOk w ∧ aOk w) (fun w e c => taddTo (e.signExtend 64) w c) ∧
  Computes .tsub 0x22 1 (fun w _ => fld w 11 0 = 0 ∧ aOk w ∧ bOk w) (fun w _ c => tsubG w c) ∧
  Computes .tsub 0x22 1 (fun w _ => fld w 11 0 = 1 ∧ dOk w ∧ aOk w ∧ bOk w)
    (fun w _ c => tsubFlags (tA w c) (tB w c) (intoT w (tA w c - tB w c) c)) ∧
  Computes .tcmp 0x23 1 (fun w _ => fld w 11 0 = 0 ∧ fld w 23 20 = 0 ∧ aOk w ∧ bOk w)
    (fun w _ c => tsubFlags (tA w c) (tB w c) c) ∧
  ComputesIn .tnow 0x24 1 (fun _ w => fld w 19 16 = 0 ∧ fld w 15 0 = 0 ∧ dOk w)
    (fun v w => intoT w (BitVec.ofNat 64 v.view.at') v.ctx) ∧
  Computes .tpack 0x25 1 (fun w _ => fld w 11 0 = 0 ∧ dOk w) (fun w _ c => intoT w (gA w c ++ gB w c) c) ∧
  Computes .tpart 0x26 1 (fun w _ => fld w 11 0 < 2 ∧ fld w 15 12 = 0 ∧ aOk w)
    (fun w _ c =>
      let r := if w.getLsbD 0 then (tA w c).extractLsb' 32 32 else (tA w c).extractLsb' 0 32
      { c with g := c.g.put (Fin.ofNat 16 (fld w 23 20)) r }) ∧
  IllFormed .tadd 0x20 (fun w => 2 ≤ fld w 11 0) ∧ IllFormed .taddImmediate 0x21 (fun w => fld w 15 0 ≠ 0) ∧
  IllFormed .tsub 0x22 (fun w => 2 ≤ fld w 11 0) ∧ IllFormed .tcmp 0x23 (fun w => fld w 11 0 ≠ 0 ∨ fld w 23 20 ≠ 0) ∧
  IllFormed .tnow 0x24 (fun w => fld w 19 16 ≠ 0 ∨ fld w 15 0 ≠ 0) ∧ IllFormed .tpack 0x25 (fun w => fld w 11 0 ≠ 0) ∧
  IllFormed .tpart 0x26 (fun w => 2 ≤ fld w 11 0)

/-- R189: PADD, PSUB, PMOD, PSET and PGET; PSUB with WRAP and PMOD on a modulo axis with its modulus at the view
boundary, where a modulus of 0 faults ARITH. Where the rules leave it open, the statement follows the model's choices
(log entry 5). -/
def Obligations.PositionInstructions : Prop :=
  Computes .padd 0x30 1 (fun w _ => fld w 11 0 = 0 ∧ dOk w ∧ aOk w ∧ bOk w) (fun w _ c => paddTo (pB w c) w c) ∧
  Computes .paddImmediate 0x31 2 (fun w _ => fld w 15 0 = 0 ∧ dOk w ∧ aOk w) (fun w e c => paddTo (e.signExtend 48) w c) ∧
  Computes .psub 0x32 1 (fun w _ => fld w 11 0 = 0 ∧ dOk w ∧ aOk w ∧ bOk w) (fun w _ c => psubTo w c) ∧
  ComputesIn .psub 0x32 1
    (fun v w => fld w 11 7 = 0 ∧ fld w 6 6 = 1 ∧ dOk w ∧ aOk w ∧ bOk w ∧ (axisSeen v w).modulo = false)
    (fun v w => psubTo w v.ctx) ∧
  ComputesIn .psub 0x32 1
    (fun v w => fld w 11 7 = 0 ∧ fld w 6 6 = 1 ∧ dOk w ∧ aOk w ∧ bOk w ∧ (axisSeen v w).modulo = true ∧ 0 < (axisSeen v w).m)
    (fun v w =>
      let m : Int := (axisSeen v w).m
      let k : Int := (pA w v.ctx - pB w v.ctx).toInt % m
      let r := BitVec.ofInt 48 (if m ≤ 2 * k then k - m else k)
      { intoP w r v.ctx with z := r == 0, n := r.msb, v := false }) ∧
  ComputesIn .pmod 0x33 1 (fun v w => fld w 15 6 = 0 ∧ dOk w ∧ aOk w ∧ ((axisSeen v w).modulo = true → 0 < (axisSeen v w).m))
    (fun v w =>
      let a := pA w v.ctx
      let r := if (axisSeen v w).modulo then BitVec.ofInt 48 (a.toInt % ((axisSeen v w).m : Int)) else a
      { intoP w r v.ctx with z := r == 0, n := r.msb, c := r != a }) ∧
  Computes .pset 0x36 1 (fun w _ => fld w 15 0 ≤ 16 ∧ dOk w)
    (fun w _ c =>
      let i : Int := (gA w c).toInt * 2 ^ fld w 15 0
      { intoP w (BitVec.ofInt 48 i) c with v := decide (i < -140737488355328 ∨ 140737488355328 ≤ i) }) ∧
  Computes .pget 0x37 1 (fun w _ => fld w 15 0 ≤ 16 ∧ aOk w)
    (fun w _ c =>
      let i : Int := (pA w c).toInt / 2 ^ fld w 15 0
      let r : Int := max (-2147483648) (min 2147483647 i)
      { intoG w (BitVec.ofInt 32 r) c with v := decide (r ≠ i) }) ∧
  FaultsAs .psub 0x32 15 (fun v w => fld w 11 7 = 0 ∧ fld w 6 6 = 1 ∧ dOk w ∧ aOk w ∧ bOk w ∧
    (axisSeen v w).modulo = true ∧ (axisSeen v w).m = 0) ∧
  FaultsAs .pmod 0x33 15 (fun v w => fld w 15 6 = 0 ∧ dOk w ∧ aOk w ∧ (axisSeen v w).modulo = true ∧ (axisSeen v w).m = 0)

namespace Sys2Proof.Machine

/-- R162: the condition of format B on the flags and L. -/
def condTrue (k : Nat) (c : Context) (l : Bool) : Bool :=
  match k with
  | 0 => true
  | 1 => c.z
  | 2 => !c.z
  | 3 => c.n
  | 4 => !c.n
  | 5 => c.c
  | 6 => !c.c
  | 7 => c.v
  | 8 => !c.v
  | 9 => c.c && !c.z
  | 10 => !(c.c && !c.z)
  | 11 => c.n == c.v
  | 12 => !(c.n == c.v)
  | 13 => !c.z && c.n == c.v
  | 14 => !(!c.z && c.n == c.v)
  | _ => l

/-- R125, R162: flag L as the next instruction of service `v` sees it: a segment or a staged action is open. -/
def flagLNow (s : State) (ch : Chan) (v : Service) : Bool :=
  s.core.dev.flagL ch || v.staged.any (fun r => r.newSeg.isSome || r.act.isSome)

/-- The routine of a flow instruction that leaves context `c` and goes to word `n`. -/
def jumpsTo (s : State) (v : Service) (n : Nat) (c : Context) : Staged :=
  { goesOnTo s v 1 c with ctx := { c with pc := BitVec.ofNat 15 n, past := decide (32768 ≤ n) } }

/-- R191, R192: a branch to word `n`: taken inside program memory, or the fault PCRANGE with no write. -/
def branchesTo (s : State) (v : Service) (n : Int) (c : Context) : Staged :=
  if 0 ≤ n ∧ n ≤ 32767 then jumpsTo s v n.toNat c else faultsWith s v 2

/-- Instruction `i` completes on words that `ok` admits, with the routine `f`. -/
def Flows (i : Chan → Instr) (op : Nat) (ok : Word → Prop) (f : State → Chan → Service → Word → Staged) : Prop :=
  ∀ (s : State) (ch : Chan) (v : Service), Ready s ch v op → ok (insWord s v) →
    exec (i ch) s = .next (afterRoutine s ch v (f s ch v (insWord s v)))

/-- R191: the program word that follows. -/
def pcNext (v : Service) : Int := (v.ctx.pc.toNat : Int) + 1

end Sys2Proof.Machine

/-- R191, R192: B, CALL, RET, BR, LOOP and NOP: the next PC, the link register, the count, and no flag changes; a branch
outside program memory faults PCRANGE; a field that must be 0 and is not faults ILLEGAL. That the next word lies beyond
program memory is held in a flag of the context, whose form is the model's (log entry 29). -/
def Obligations.FlowInstructions : Prop :=
  Flows .b 0x40 (fun _ => True) (fun s ch v w =>
    if condTrue (fld w 23 20) v.ctx (flagLNow s ch v) then branchesTo s v (pcNext v + signedOf 20 (fld w 19 0)) v.ctx
    else goesOnTo s v 1 v.ctx) ∧
  Flows .call 0x41 (fun _ => True) (fun s ch v w =>
    if condTrue (fld w 23 20) v.ctx (flagLNow s ch v) then
      branchesTo s v (pcNext v + signedOf 20 (fld w 19 0))
        { v.ctx with g := v.ctx.g.put 15 (BitVec.ofNat 32 (v.ctx.pc.toNat + 1)) }
    else goesOnTo s v 1 v.ctx) ∧
  Flows .ret 0x42 (fun w => fld w 19 0 = 0) (fun s ch v w =>
    if condTrue (fld w 23 20) v.ctx (flagLNow s ch v) then jumpsTo s v (fld (v.ctx.g.at 15) 14 0) v.ctx
    else goesOnTo s v 1 v.ctx) ∧
  Flows .br 0x43 (fun w => fld w 15 0 = 0) (fun s ch v w =>
    if condTrue (fld w 23 20) v.ctx (flagLNow s ch v) then jumpsTo s v (fld (gA w v.ctx) 14 0) v.ctx
    else goesOnTo s v 1 v.ctx) ∧
  Flows .loop 0x44 (fun w => fld w 19 16 = 0) (fun s _ v w =>
    let d : Fin 16 := Fin.ofNat 16 (fld w 23 20)
    let n := v.ctx.g.at d - 1
    let c := { v.ctx with g := v.ctx.g.put d n }
    if n = 0 then goesOnTo s v 1 c else branchesTo s v (pcNext v + signedOf 16 (fld w 15 0)) c) ∧
  Computes .nop 0x45 1 (fun w _ => fld w 23 0 = 0) (fun _ _ c => c) ∧
  IllFormed .ret 0x42 (fun w => fld w 19 0 ≠ 0) ∧ IllFormed .br 0x43 (fun w => fld w 15 0 ≠ 0) ∧
  IllFormed .loop 0x44 (fun w => fld w 19 16 ≠ 0) ∧ IllFormed .nop 0x45 (fun w => fld w 23 0 ≠ 0)

/-- R76, R77, R190: P2T and T2P convert at the latest epoch of the axis, whatever its state; the result and its flags;
the conversion is tracked. Where the rules leave it open, the statement follows the model's choices (log entry 6). -/
def Obligations.Conversions : Prop :=
  ∀ (s : State) (ch : Chan) (v : Service),
    let w := insWord s v
    let a : Axis := Fin.ofNat 64 (fld w 5 0)
    let x := s.core.dev.axs.at a
    let far := x.est.st != AxState.steady
    (Ready s ch v 0x34 → fld w 15 6 = 0 → dOk w → aOk w →
      let q := x.target false (pA w v.ctx).toInt
      let t := x.p2t false q
      exec (.p2t ch) s = .next (afterRoutine s ch v
        { goesOnTo s v 1 (intoT w (BitVec.ofNat 64 t)
            { v.ctx with z := far, n := false, c := decide (t < v.view.at'), v := t == 0xFFFF_FFFF_FFFF_FFFF }) with
          convs := [⟨a, false, q, t, x.est.epoch, true⟩] })) ∧
    (Ready s ch v 0x35 → fld w 15 6 = 0 → dOk w → aOk w →
      let p := x.t2p (tA w v.ctx).toNat
      exec (.t2p ch) s = .next (afterRoutine s ch v
        { goesOnTo s v 1 (intoP w (BitVec.ofInt 48 p)
            { v.ctx with z := far, n := (BitVec.ofInt 48 p).msb, c := false, v := false }) with
          convs := [⟨a, true, ((tA w v.ctx).toNat : Int), p, x.est.epoch, true⟩] }))

namespace Sys2Proof.Machine

/-- R159, R238: what the instruction that the service `v` of home `ch` executes next sees. -/
def seenBy (s : State) (ch : Chan) (v : Service) : Env := envOf ch v s.mt s.core

/-- Instruction `i` completes where `ok` holds of what it sees, with the routine `f`. -/
def Runs (i : Chan → Instr) (op : Nat) (ok : Env → Prop) (f : Env → Staged) : Prop :=
  ∀ (s : State) (ch : Chan) (v : Service), Ready s ch v op → ok (seenBy s ch v) →
    exec (i ch) s = .next (afterRoutine s ch v (f (seenBy s ch v)))

/-- A load from the data banks: its routine, and the bank word that its port A access notes. -/
def Loads (i : Chan → Instr) (op : Nat) (ok : Env → Prop) (f : Env → Context) : Prop :=
  ∀ (s : State) (ch : Chan) (v : Service), Ready s ch v op → ok (seenBy s ch v) →
    let e := seenBy s ch v
    exec (i ch) s =
      .next (afterRoutine (s.withDev (loadA (wordOf e.byteAddr) s.mt s.core.dev)) ch v (goesOnTo s v 1 (f e)))

/-- R169, R193: the address of an `n`-byte access is in range and aligned. -/
def reaches (n : Nat) (e : Env) : Prop := e.byteAddr ≤ 0x1FFFFF ∧ e.byteAddr % n = 0

/-- R193: one more held effect in a routine that goes on. -/
def holdsOne (s : State) (v : Service) (len : Nat) (x : HeldEff) : Staged := { goesOnTo s v len v.ctx with held := [x] }

/-- R126: instruction `i` holds the effect `f`, where it is admitted and fewer than 16 are held; with 16 held it blocks. -/
def Holds (i : Chan → Instr) (op len : Nat) (ok : Env → Prop) (f : Env → HeldEff) : Prop :=
  ∀ (s : State) (ch : Chan) (v : Service), Ready s ch v op → ok (seenBy s ch v) →
    let e := seenBy s ch v
    exec (i ch) s = .next (afterRoutine s ch v
      (if e.held.length < 16 then holdsOne s v len (f e)
       else { goesOnTo s v 0 v.ctx with ctx := v.ctx, fin := .block .effSpace }))

/-- Instruction `i` faults with `code` and makes no write, where `bad` holds. -/
def FaultsOn (i : Chan → Instr) (op : Nat) (bad : Env → Prop) (code : Nat) : Prop :=
  ∀ (s : State) (ch : Chan) (v : Service), Ready s ch v op → bad (seenBy s ch v) →
    exec (i ch) s = .next (afterRoutine s ch v (faultsWith s v code))

/-- R156: instruction `i`, of two words, begins in the last word of program memory: it faults PCRANGE. -/
def FallsOff (i : Chan → Instr) (op : Nat) : Prop :=
  ∀ (s : State) (ch : Chan) (v : Service), (s.core.dev.chn.at ch).prog.svc = some v → v.count < 1024 → v.ctx.past = false →
    (∀ r, v.staged.getLast? = some r → r.fin = .go) → fld (insWord s v) 31 24 = op → v.ctx.pc = 0x7FFF →
    exec (i ch) s = .next (afterRoutine s ch v (faultsWith s v 2))

def dField (e : Env) : Fin 16 := Fin.ofNat 16 (fld e.word 23 20)
def dField4 (e : Env) : Fin 4 := Fin.ofNat 4 (fld e.word 23 20)
def aField (e : Env) : Fin 16 := Fin.ofNat 16 (fld e.word 19 16)
def aField4 (e : Env) : Fin 4 := Fin.ofNat 4 (fld e.word 19 16)
def bField (e : Env) : Fin 16 := Fin.ofNat 16 (fld e.word 15 12)

/-- R171, R194: the released context of the channel that g[a] names, at the view boundary. -/
def releasedOf (e : Env) : Context := (e.svc.view.chn.at (Fin.ofNat 512 (e.ctx.g.at (aField e)).toNat)).rel

/-- R194: the fields of LDC that must hold for register class `cls`. -/
def ldcFields (cls : Nat) (e : Env) : Prop :=
  fld e.word 11 10 = cls ∧ fld e.word 15 12 = 0 ∧ fld e.word 9 4 = 0 ∧ (e.ctx.g.at (aField e)).toNat < 512

/-- R196: the table that LDA, ALM and ALMN name, and the entry that LDA reads. -/
def tableSeen (e : Env) : TabView := e.svc.view.tabs.at (Fin.ofNat 64 (fld e.word 5 0))
def tableUp (e : Env) : Prop := (tableSeen e).defd = true ∧ e.svc.view.almOn = true
def entrySeen (e : Env) : Nat := (tableSeen e).base + (e.ctx.g.at (aField e)).toNat

/-- R205: Z, C and the index of a search. -/
def searched (e : Env) (r : Option (Nat × Bool)) : Context :=
  match r with
  | some (j, wrap) =>
    { e.ctx with g := e.ctx.g.put (dField e) (BitVec.ofNat 32 j), z := false, n := false, c := wrap, v := false }
  | none => { e.ctx with g := e.ctx.g.put (dField e) 0xFFFF_FFFF, z := true, n := false, c := false, v := false }

end Sys2Proof.Machine

/-- R128, R169, R193: LDM reads 4 or 8 bytes of a bank that is on, through the program's held stores, into a g, t or p
register; the access is noted on port A. Out of range, misaligned or in a bank that is not on, it faults RANGE, ALIGN or
BANK. Where the rules leave it open, the statement follows the model's choices (log entries 25, 31 and 51). -/
def Obligations.BankLoads : Prop :=
  Loads .ldmG 0x50 (fun e => reaches 4 e ∧ e.d.bankOn e.byteAddr = true)
    (fun e =>
      let r : Word := BitVec.ofNat 32 (e.bankWord (wordOf e.byteAddr) / 2 ^ (8 * (e.byteAddr % 8)))
      { e.ctx with g := e.ctx.g.put (dField e) r }) ∧
  Loads .ldmT 0x51 (fun e => dOk e.word ∧ reaches 8 e ∧ e.d.bankOn e.byteAddr = true)
    (fun e => { e.ctx with t := e.ctx.t.put (dField4 e) (BitVec.ofNat 64 (e.bankWord e.byteAddr)) }) ∧
  Loads .ldmP 0x52 (fun e => dOk e.word ∧ reaches 8 e ∧ e.d.bankOn e.byteAddr = true)
    (fun e => { e.ctx with p := e.ctx.p.put (dField4 e) (BitVec.ofNat 48 (e.bankWord e.byteAddr)) }) ∧
  FaultsOn .ldmG 0x50 (fun e => 0x1FFFFF < e.byteAddr) 4 ∧
  FaultsOn .ldmG 0x50 (fun e => e.byteAddr ≤ 0x1FFFFF ∧ e.byteAddr % 4 ≠ 0) 3 ∧
  FaultsOn .ldmG 0x50 (fun e => reaches 4 e ∧ e.d.bankOn e.byteAddr = false) 5

/-- R126, R193, R195, R208 to R210: STM, STC, SIG, XKICK and LSEND hold their effect, which takes place at release; no
memory, channel or source changes before. With 16 effects held the service blocks. Where the rules leave it open, the
statement follows the model's choices (log entries 33 and 51). -/
def Obligations.HeldEffects : Prop :=
  Holds .stmG 0x53 1 (reaches 4)
    (fun e => .stm e.byteAddr (BitVec.ofNat 64 (e.ctx.g.at (dField e)).toNat) true e.ctx.pc) ∧
  Holds .stmT 0x54 1 (fun e => dOk e.word ∧ reaches 8 e)
    (fun e => .stm e.byteAddr (e.ctx.t.at (dField4 e)) false e.ctx.pc) ∧
  Holds .stmP 0x55 1 (fun e => dOk e.word ∧ reaches 8 e)
    (fun e => .stm e.byteAddr ((e.ctx.p.at (dField4 e)).signExtend 64) false e.ctx.pc) ∧
  Holds .stc 0x57 1
    (fun e =>
      let n := (e.ctx.g.at (aField e)).toNat
      let v := e.svc.view.chn.at (Fin.ofNat 512 n)
      fld e.word 11 4 = 0 ∧ fld e.word 23 20 = 0 ∧ 8 ≤ fld e.word 3 0 ∧ n < 512 ∧ n ≠ e.home.val ∧ v.en = true ∧
        v.bound = true)
    (fun e => .stc (Fin.ofNat 512 (e.ctx.g.at (aField e)).toNat) (Fin.ofNat 16 (fld e.word 3 0)) (e.ctx.g.at (bField e))) ∧
  Holds .sig 0x88 1 (fun e => fld e.word 15 9 = 0 ∧ fld e.word 23 20 = 0)
    (fun e => .sig (BitVec.ofNat 16 (256 * fld e.word 7 0 +
      8 * (if e.word.getLsbD 8 then (e.ctx.g.at (aField e)).toNat % 32 else 0) + e.home.val % 8))) ∧
  Holds .xkick 0x89 1 (fun e => fld e.word 23 5 = 0) (fun e => .xkick (Fin.ofNat 32 (fld e.word 4 0))) ∧
  Holds .lsend 0x8A 1 (fun e => dOk e.word ∧ e.byteAddr < 0x10000 ∧ e.byteAddr % 8 = 0)
    (fun e => .lsend e.byteAddr (e.ctx.t.at (dField4 e))) ∧
  FaultsOn .stmG 0x53 (fun e => e.byteAddr ≤ 0x1FFFFF ∧ e.byteAddr % 4 ≠ 0) 3 ∧
  FaultsOn .lsend 0x8A (fun e => dOk e.word ∧ 0x10000 ≤ e.byteAddr) 4

/-- R171, R194, R196, R205, R206: LDC reads a register of a released context as it was at the view boundary; LDA reads a
field of an almanac entry; ALM and ALMN search a table. None changes memory; only the destination and, for a search, the
flags change. Where the rules leave it open, the statement follows the model's choices (log entries 31 and 51). -/
def Obligations.ContextAndAlmanacReads : Prop :=
  Runs .ldc 0x56 (ldcFields 0)
    (fun e => e.go { e.ctx with g := e.ctx.g.put (dField e) ((releasedOf e).g.at (Fin.ofNat 16 (fld e.word 3 0))) }) ∧
  Runs .ldc 0x56 (fun e => ldcFields 1 e ∧ dOk e.word ∧ fld e.word 3 0 < 4)
    (fun e => e.go { e.ctx with t := e.ctx.t.put (dField4 e) ((releasedOf e).t.at (Fin.ofNat 4 (fld e.word 3 0))) }) ∧
  Runs .ldc 0x56 (fun e => ldcFields 2 e ∧ dOk e.word ∧ fld e.word 3 0 < 4)
    (fun e => e.go { e.ctx with p := e.ctx.p.put (dField4 e) ((releasedOf e).p.at (Fin.ofNat 4 (fld e.word 3 0))) }) ∧
  Runs .ldc 0x56 (fun e => ldcFields 3 e ∧ fld e.word 3 0 = 0)
    (fun e => e.go { e.ctx with g := e.ctx.g.put (dField e) (releasedOf e).stateWord }) ∧
  Runs .lda 0x58
    (fun e => fld e.word 11 6 = 0 ∧ fld e.word 15 12 = 0 ∧ dOk e.word ∧ tableUp e ∧ (tableSeen e).time = true ∧
      (e.ctx.g.at (aField e)).toNat < (tableSeen e).len)
    (fun e => e.go { e.ctx with t := e.ctx.t.put (dField4 e) (BitVec.ofNat 64 (e.ram.almKey (entrySeen e))) }) ∧
  Runs .lda 0x58
    (fun e => 8 ≤ fld e.word 11 8 ∧ fld e.word 11 8 ≤ 11 ∧ fld e.word 7 6 = 0 ∧ fld e.word 15 12 = 0 ∧ tableUp e ∧
      (e.ctx.g.at (aField e)).toNat < (tableSeen e).len)
    (fun e => e.go { e.ctx with g := e.ctx.g.put (dField e) (e.ram.almWord (entrySeen e) (fld e.word 11 8 - 8)) }) ∧
  Runs .alm 0x78
    (fun e => fld e.word 11 6 = 0 ∧ fld e.word 15 12 = 0 ∧ aOk e.word ∧ tableUp e ∧ (tableSeen e).time = true ∧
      (e.ctx.t.at (aField4 e)).toNat < 281474976710656)
    (fun e => e.go (searched e (almSearch e.ram (tableSeen e) (e.ctx.t.at (aField4 e)).toNat))) ∧
  Runs .almn 0x79
    (fun e => fld e.word 11 6 = 0 ∧ fld e.word 15 12 = 0 ∧ tableUp e ∧ (e.ctx.g.at (aField e)).toNat < (tableSeen e).len)
    (fun e =>
      let j := (e.ctx.g.at (aField e)).toNat
      e.go (searched e (if j + 1 < (tableSeen e).len then some (j + 1, false)
        else if (tableSeen e).time then none else some (0, true)))) ∧
  FaultsOn .almn 0x79 (fun e => fld e.word 11 6 = 0 ∧ fld e.word 15 12 = 0 ∧ (tableSeen e).defd = false) 6

namespace Sys2Proof.Machine

/-- R198: channel `c` is the enabled member that the instruction names, and its mode accepts the action. -/
def Takes (e : Env) (c : Chan) (a : ActSpec) : Prop :=
  e.svc.view.memberOf e.home (fld e.word 23 21) = some c ∧ accepts c (e.svc.view.chn.at c).mode a.ty = true ∧
  (a.ty = .level ∨ a.w ≠ 0)

/-- R123, R124, R198: the action stays in the current segment, whose ordinal is not settled, and channel `c` has room. -/
def HasRoom (e : Env) (c : Chan) : Prop :=
  e.emits < 4 ∧ (settledOf e.prog e.seq).getLsbD e.emits = false ∧
  (∀ x ∈ (e.d.chn.at c).prov, holderAt e.home e.seq e.emits x = false) ∧ e.provTaken c < 8

/-- R86, R198: the action that an instruction stages, with its stamp. -/
def actionAt (e : Env) (a : ActSpec) (t : Nat) (pos : Option PosStamp) : ProvEntry :=
  { holder := false, ty := a.ty, lvl := a.lvl, w := a.w, t := t, pos := pos, home := e.home, seq := e.seq, ord := e.emits
    rerun := e.isRerun ⟨e.seq, e.emits, false⟩, lk := a.lk, wrote := e.now, marks := [] }

/-- R197: the action of EMIT and EMITP, and R200 of ARMTRIP. -/
def specE (e : Env) : ActSpec :=
  let k := fld e.word 11 10
  ⟨if k = 0 then .level else if k = 1 then .pulse else .capwin, e.word.getLsbD 20,
   if k = 0 then 0 else (e.ctx.g.at (bField e)).toNat, 0⟩
def specT (e : Env) : ActSpec :=
  ⟨.trippulse, e.word.getLsbD 20, (e.ctx.g.at (bField e)).toNat, Fin.ofNat 32 (fld e.word 10 6)⟩

/-- R197: the fields of EMIT and of ARMTRIP that must be 0. -/
def emitFields (e : Env) : Prop :=
  fld e.word 11 10 < 3 ∧ fld e.word 9 6 = 0 ∧ aOk e.word ∧ (fld e.word 11 10 = 0 → fld e.word 15 12 = 0)
def tripFields (e : Env) : Prop := e.word.getLsbD 11 = false ∧ aOk e.word

/-- R197: instruction `i` stages an action with a time stamp, and takes an ordinal; a settled ordinal is only counted. -/
def EmitsAt (i : Chan → Instr) (op : Nat) (ok : Env → Prop) (a : Env → ActSpec) : Prop :=
  (∀ c : Chan, Runs i op (fun e => ok e ∧ fld e.word 5 0 = 0 ∧ Takes e c (a e) ∧ HasRoom e c)
    (fun e => { e.go e.ctx with
      emit := true, act := some (c, actionAt e (a e) (e.ctx.t.at (aField4 e)).toNat none) })) ∧
  (∀ c : Chan, Runs i op
    (fun e => ok e ∧ fld e.word 5 0 = 0 ∧ Takes e c (a e) ∧ e.emits < 4 ∧ (settledOf e.prog e.seq).getLsbD e.emits = true)
    (fun e => { e.go e.ctx with emit := true }))

/-- R76, R199: instruction `i` stages an action stamped by a position of a steady axis, at the time of its prediction. -/
def EmitsOn (i : Chan → Instr) (op : Nat) (ok : Env → Prop) (a : Env → ActSpec) : Prop :=
  ∀ c : Chan, Runs i op
    (fun e => ok e ∧ Takes e c (a e) ∧ HasRoom e c ∧ (e.d.axs.at (Fin.ofNat 64 (fld e.word 5 0))).est.st = .steady)
    (fun e =>
      let ax : Axis := Fin.ofNat 64 (fld e.word 5 0)
      let x := e.d.axs.at ax
      let q := x.target false (e.ctx.p.at (aField4 e)).toInt
      { e.go e.ctx with
        emit := true, act := some (c, actionAt e (a e) (x.p2t false q) (some ⟨ax, q, x.est.epoch, false⟩)) })

end Sys2Proof.Machine

/-- R76, R86, R125, R197 to R200: EMIT, EMITP and the two forms of ARMTRIP stage one action with its attributes, stamp,
segment and ordinal. Where the rules leave it open, the statement follows the model's choices (log entries 33 and 34). -/
def Obligations.ActionInstructions : Prop :=
  EmitsAt .emit 0x60 emitFields specE ∧ EmitsOn .emitp 0x61 emitFields specE ∧
  EmitsAt .armtrip 0x62 tripFields specT ∧ EmitsOn .armtripPosition 0x63 tripFields specT

/-- R201 to R204, R211 to R213: CANCEL, CAPT, CAPTN, CFG and APPLY act on the enabled member they name: what they hold,
what they return, and their flags; a member index that names no enabled channel faults TARGET. Where the rules leave it
open, the statement follows the model's choices (log entries 32, 35 and 38). -/
def Obligations.MemberInstructions : Prop :=
  (∀ c : Chan, Runs .cancel 0x64
    (fun e => e.word.getLsbD 20 = false ∧ fld e.word 15 12 = 0 ∧ fld e.word 11 0 = 64 ∧ fld e.word 19 16 = 0 ∧
      e.svc.view.memberOf e.home (fld e.word 23 21) = some c ∧ e.held.length < 16)
    (fun e => { e.go { e.ctx with z := !e.cancelsAny c none } with
      held := [.cancel c e.cancelId none], zmark := true })) ∧
  (∀ c : Chan, Runs .cancel 0x64
    (fun e => e.word.getLsbD 20 = false ∧ fld e.word 15 12 = 0 ∧ fld e.word 11 0 = 0 ∧ aOk e.word ∧
      e.svc.view.memberOf e.home (fld e.word 23 21) = some c ∧ e.held.length < 16)
    (fun e =>
      let thr := some (e.ctx.t.at (aField4 e))
      { e.go { e.ctx with z := !e.cancelsAny c thr } with held := [.cancel c e.cancelId thr], zmark := true })) ∧
  (∀ (c : Chan) (x : CapEntry) (l : List CapEntry), Runs .capt 0x70
    (fun e => fld e.word 11 3 = 0 ∧ dOk e.word ∧ e.svc.view.memberOf e.home (fld e.word 2 0) = some c ∧
      e.capEntries c = x :: l ∧ e.held.length < 16)
    (fun e => { e.go ({ e.ctx with
        t := e.ctx.t.put (dField4 e) (BitVec.ofNat 64 x.stamp)
        g := (e.ctx.g.put (aField e) (BitVec.ofNat 32 x.val)).put (bField e) (x.attrBits l.length)
        z := false, c := x.edge, n := x.miss, v := x.lost }) with held := [.capt c 1] })) ∧
  (∀ (c : Chan) (x : CapEntry) (l : List CapEntry), Runs .captn 0x71
    (fun e => fld e.word 11 3 = 0 ∧ dOk e.word ∧ e.svc.view.memberOf e.home (fld e.word 2 0) = some c ∧
      e.capEntries c = x :: l ∧ e.held.length < 16)
    (fun e =>
      let y := (x :: l).getLast (by simp)
      { e.go ({ e.ctx with
        t := e.ctx.t.put (dField4 e) (BitVec.ofNat 64 y.stamp)
        g := (e.ctx.g.put (aField e) (BitVec.ofNat 32 y.val)).put (bField e) (y.attrBits (l.length + 1))
        z := false, c := y.edge, n := y.miss
        v := decide ((∃ k ∈ x :: l, k.lost = true) ∨ 2 ≤ l.length + 1) }) with held := [.capt c (l.length + 1)] })) ∧
  (∀ c : Chan, Runs .capt 0x70
    (fun e => fld e.word 11 3 = 0 ∧ dOk e.word ∧ e.svc.view.memberOf e.home (fld e.word 2 0) = some c ∧ e.capEntries c = [])
    (fun e => e.go { e.ctx with z := true, c := false, n := false, v := false })) ∧
  (∀ c : Chan, Runs .cfg 0x90
    (fun e => e.word.getLsbD 23 = false ∧ fld e.word 15 8 = 0 ∧ e.svc.view.memberOf e.home (fld e.word 22 20) = some c ∧
      fld e.word 7 0 ∈ [0x10, 0x14, 0x18, 0x1C, 0x20, 0x24] ∧ (e.d.chn.at c).cfg.pend = none ∧
      (e.d.chn.at c).cfg.gpend = false ∧ e.held.length < 16)
    (fun e => { e.go e.ctx with
      held := [.cfg c (BitVec.ofNat 8 (fld e.word 7 0)) e.ext (e.ctx.g.at (aField e))] })) ∧
  (∀ c : Chan, Runs .apply 0x91
    (fun e => e.word.getLsbD 23 = false ∧ fld e.word 15 0 = 1 ∧ aOk e.word ∧
      e.svc.view.memberOf e.home (fld e.word 22 20) = some c ∧ e.held.length < 16)
    (fun e => { e.go e.ctx with held := [.apply c 1 (e.ctx.t.at (aField4 e)) 0] })) ∧
  FaultsOn .capt 0x70 (fun e => fld e.word 11 3 = 0 ∧ dOk e.word ∧ e.svc.view.memberOf e.home (fld e.word 2 0) = none) 10

/-- R164 to R166, R207: WAIT of kind TIME goes on with Z clear once its time has come, with Z set once its timeout has,
and otherwise ends the service in the wait with the PC at the instruction. Where the rules leave it open, the statement
follows the model's choices (log entries 28 and 36). -/
def Obligations.WaitInstruction : Prop :=
  Runs .wait 0x80
    (fun e => fld e.word 23 20 = 0 ∧ aOk e.word ∧ fld e.word 15 0 = 0 ∧ (e.ctx.t.at (aField4 e)).toNat ≤ e.svc.view.at')
    (fun e => e.go { e.ctx with z := false }) ∧
  Runs .wait 0x80
    (fun e => fld e.word 23 20 = 0 ∧ aOk e.word ∧ e.word.getLsbD 15 = true ∧ fld e.word 12 0 = 0 ∧
      e.svc.view.at' < (e.ctx.t.at (aField4 e)).toNat ∧
      (e.ctx.t.at (Fin.ofNat 4 (fld e.word 14 13))).toNat ≤ e.svc.view.at')
    (fun e => e.go { e.ctx with z := true }) ∧
  Runs .wait 0x80
    (fun e => fld e.word 23 20 = 0 ∧ aOk e.word ∧ fld e.word 15 0 = 0 ∧ e.svc.view.at' < (e.ctx.t.at (aField4 e)).toNat)
    (fun e => { e.go e.ctx with ctx := e.ctx, fin := .block (.wait 0 (aField e) 0 e.home none) }) ∧
  FaultsOn .wait 0x80 (fun e => 6 ≤ fld e.word 23 20 ∧ fld e.word 15 0 = 0) 11

/-- R156, R160, R163, R177, R214, R215: YIELD ends the service; HALT ends it and holds a stop; a reserved opcode faults
ILLEGAL; a fetch beyond program memory faults PCRANGE; a customer opcode, or a reserved one with an OPEN record, runs the
routine of its image record, here one that ends at once, and a customer opcode without a record faults UOP. Where the rules leave it open, the statement follows the model's
choices (log entries 29 and 39). -/
def Obligations.ControlInstructions : Prop :=
  Runs .yield 0x92 (fun e => fld e.word 23 0 = 0) (fun e => { e.go e.ctx with fin := .yield }) ∧
  Runs .halt 0x93 (fun e => fld e.word 23 0 = 0) (fun e => { e.go e.ctx with stop := true, fin := .stop }) ∧
  (∀ op ∈ [0x00, 0x10, 0x1F, 0x27, 0x38, 0x46, 0x59, 0x65, 0x72, 0x7A, 0x81, 0x8B, 0x94, 0xDF],
    FaultsOn .illegalOpcode op (fun _ => True) 1) ∧
  (∀ op, 0xE0 ≤ op → FaultsOn .uop op (fun _ => True) 13) ∧
  FallsOff .ldi 0x0F ∧ FallsOff .taddImmediate 0x21 ∧ FallsOff .paddImmediate 0x31 ∧ FallsOff .cfg 0x90 ∧
  (∀ (s : State) (ch : Chan) (v : Service), (s.core.dev.chn.at ch).prog.svc = some v → v.count < 1024 → v.ctx.past = true →
    (∀ r, v.staged.getLast? = some r → r.fin = .go) →
    exec (.illegalOpcode ch) s = .next (afterRoutine s ch v (faultsWith s v 2))) ∧
  (∀ (s : State) (ch : Chan) (v : Service) (r : DispRec),
    (s.core.dev.chn.at ch).prog.svc = some v → v.count < 1024 → v.ctx.past = false →
    (∀ k, v.staged.getLast? = some k → k.fin = .go) →
    (0xE0 ≤ fld (insWord s v) 31 24 ∨ fld (insWord s v) 31 24 ∈ [0x10, 0x1F, 0x27, 0x38, 0x46, 0x59, 0x65, 0x72, 0x7A, 0x81]) →
    s.core.dev.hlm.openRec (fld (insWord s v) 31 24) = some r → r.x = false →
    (seenBy s ch v).microword r.uaddr.toNat = some 0xFC00_0000 →
    ∃ n, exec (if 0xE0 ≤ fld (insWord s v) 31 24 then .uop ch else .illegalOpcode ch) s = .next ((afterRoutine s ch v (goesOnTo s v 1 v.ctx)).withDev
      { (afterRoutine s ch v (goesOnTo s v 1 v.ctx)).core.dev with free := n }))

/-! ## Time base and keel -/

/-- R29, R30, R48: the PLL of a device that nothing holds in reset locks: PLL_LOCK and REF_OK stand; the first lock ends
the PLL phase at machine time 0, and with COARSE_EN, a valid anchor and a keel that was not lost, plant time starts from
the keel counter; with a lost keel it does not start, and the record says so. A lost reference or PLL lock clears its
status bit, raises its record on source 245, and enters the HALT-class safe path with bit 2 of HFAULT; a returned
reference sets REF_OK and leaves the fault standing. What is lost or present already changes nothing. Where the rules
leave it open, the statement follows the model's choices (log entries 8 and 74). -/
def Obligations.PllAndReference : Prop :=
  (∀ s : State, s.core.dev.pwr.hold ≠ 0 → Idles .pllLock s) ∧
  (∀ s : State, s.core.dev.pwr.hold = 0 →
     (s.core.dev.pwr.phase ≠ .pll → Changes .pllLock s (fun d => { d with stb := { d.stb with pllLock := true, refOk := true } })) ∧
     (s.core.dev.pwr.phase = .pll → (s.core.dev.stb.ctl).getLsbD 6 = true → s.core.dev.keel.keelLost = true →
       ∃ t, exec .pllLock s = .next t ∧ t.mt = 0 ∧ t.core.ram = s.core.ram ∧ t.core.dev.pwr = { s.core.dev.pwr with phase := .fuse } ∧
         t.core.dev.stb = { s.core.dev.stb with pllLock := true, refOk := true } ∧
         (t.core.dev.evc.src.at 244).rcnt = (s.core.dev.evc.src.at 244).rcnt + 1) ∧
     (s.core.dev.pwr.phase = .pll → (s.core.dev.stb.ctl).getLsbD 6 = false →
       exec .pllLock s = .next { s.withDev { s.core.dev with
         pwr := { s.core.dev.pwr with phase := .fuse }
         stb := { s.core.dev.stb with pllLock := true, refOk := true } } with mt := 0 }) ∧
     (s.core.dev.pwr.phase = .pll → (s.core.dev.stb.ctl).getLsbD 6 = true → s.core.dev.keel.ancValid = true →
       s.core.dev.keel.keelLost = false →
       ∃ t, exec .pllLock s = .next t ∧ t.mt = 0 ∧ t.core.dev.stb.ptValid = true ∧ t.core.dev.stb.ptCoarse = true ∧
         t.core.dev.stb.st = .coarse ∧ t.core.dev.pwr.phase = .fuse ∧ t.core.ram = s.core.ram ∧
         (let k := s.core.dev.keel
          let a := k.anc.at k.ancCur
          let dk : Nat := (k.kcnt + 281474976710656 - a.cnt) % 281474976710656
          let total : Int := a.sec * 1000000000 + a.ns + rnd (dk * (1000000000 - k.kxcal.toInt)) 32768
          t.core.dev.stb.epoch = total / 1000000000 ∧ t.core.dev.stb.ofs = 8 * (total % 1000000000)))) ∧
  (∀ s : State,
     (s.core.dev.stb.refOk = true →
       Brings .refLost s (fun d => d.stb.refOk = false ∧ d.pwr.hfault.getLsbD 2 = true ∧
         (d.evc.src.at 245).rcnt = (s.core.dev.evc.src.at 245).rcnt + 1)) ∧
     (s.core.dev.stb.refOk = false → Idles .refLost s) ∧
     (s.core.dev.stb.pllLock = false → Idles .pllUnlock s) ∧
     (s.core.dev.stb.pllLock = true →
       Brings .pllUnlock s (fun d => d.stb.pllLock = false ∧ d.pwr.hfault.getLsbD 2 = true ∧
         (d.evc.src.at 245).rcnt = (s.core.dev.evc.src.at 245).rcnt + 1)) ∧
     (s.core.dev.stb.refOk = false →
       Changes .refRestored s (fun d => raise 2 245 0x0F 0x11 0 s.mt { d with stb := { d.stb with refOk := true } })) ∧
     (s.core.dev.stb.refOk = true → Idles .refRestored s))

/-- R28, R31, R47, R50: the rows that only set registers of the time base: the calibration results, the latched reads of
MT_LO and OFS_LO, and the keel's calibration. Where the rules leave it open, the statement follows the model's choices
(log entry 3). -/
def Obligations.TimeBaseRegisters : Prop :=
  ∀ s : State,
    (∀ (cell : Fin 288) (w : Byte), 8 < w.toNat →
      Changes (.icalFail cell w) s (fun d => raise 2 245 0x0F 0x13 (cell.val % 256) s.mt { d with
        stb := { d.stb with icalOk := false }
        port := { d.port with ical := BitVec.ofNat 32 (2147483648 + 256 * cell.val + w.toNat) } })) ∧
    (∀ (cell : Fin 288) (w : Byte), w.toNat ≤ 8 →
      Brings (.icalOk cell w) s (fun d => d.stb.icalOk = true ∧ fld d.port.ical 7 0 = w.toNat ∧
        fld d.port.ical 23 8 = cell.val ∧ fld d.port.ical 31 24 = fld s.core.dev.port.ical 31 24 ∧
        d.evc = s.core.dev.evc)) ∧
    (s.mt < 18446744073709551616 →
      Brings .mtLoRead s (fun d => d.hps.dout.toNat + 4294967296 * d.port.mtHi.toNat = s.mt ∧
        d.port.ptNs.toNat = plantRem s.core.dev s.mt / 8 ∧ d.stb = s.core.dev.stb ∧ d.keel = s.core.dev.keel ∧
        d.port.ptSecHi.getLsbD 31 = s.core.dev.stb.ptValid)) ∧
    Brings .ofsLoRead s (fun d =>
      ((d.hps.dout.toNat + 4294967296 * d.port.ofsHi.toNat : Nat) : Int) = s.core.dev.stb.ofs % 18446744073709551616 ∧
      ((d.port.epLo.toNat + 4294967296 * d.port.epHi.toNat : Nat) : Int) = s.core.dev.stb.epoch % 281474976710656 ∧
      d.stb = s.core.dev.stb) ∧
    (∀ p : BitVec 16, s.core.dev.stb.st = .locked →
      Changes (.kxcalUpdate p) s (fun d => { d with keel := { d.keel with kxcal := p, xcalValid := true } })) ∧
    (∀ p : BitVec 16, s.core.dev.stb.st ≠ .locked → Idles (.kxcalUpdate p) s)

/-- R45, R46, R443: keel power-on sets KEEL_LOST and CTR_LOST and clears the counters, anchors and calibration; XKEEL_RUN
follows the edges of XKEEL, and VKEEL_OK the supply, which comes back without a power-on; PWR_KEEL reads both. With either 0
a base period leaves the keel alone; else the counter may rise by one, and an anchor that is due goes into the older slot with
that count. Where the rules leave it open, the statement follows the model's choices (log entries 3 and 74). -/
def Obligations.KeelRows : Prop :=
  (∀ s : State,
    Changes .keelPowerOn s (fun d => { d with keel := { Keel.powerOn with vkeelOk := true } }) ∧
    Brings .keelPowerOn s (fun d => d.keel.keelLost = true ∧ d.keel.ctrLost = true ∧ d.keel.kcnt = 0 ∧
      d.keel.ancValid = false ∧ d.keel.xcalValid = false ∧ d.keel.kxcal = 0 ∧ d.keel.counter = 0) ∧
    Changes .xkeelStopped s (fun d => { d with
      keel := { d.keel with xkeelRun := false }, port := { d.port with ancPend := false } }) ∧
    Changes .xkeelStart s (fun d => { d with keel := { d.keel with xkeelRun := true } }) ∧
    Changes .vkeelLoss s (fun d => { d with keel := { d.keel with vkeelOk := false } }) ∧
    Changes (.supplyRestored .vkeel) s (fun d => { d with keel := { d.keel with vkeelOk := true } })) ∧
  (∀ (now : Nat) (d : Device),
    (d.keel.vkeelOk = false ∨ d.keel.xkeelRun = false → keelTick now d = d) ∧
    (∃ v, regRead 0x003D_0040 now d = some (v, d) ∧ bitOf v 0 = d.keel.vkeelOk ∧ bitOf v 1 = d.keel.xkeelRun) ∧
    (d.keel.vkeelOk = true → d.keel.xkeelRun = true → d.keel.kcnt < 281474976710656 →
      let d' := keelTick now d
      (d'.keel.kcnt = d.keel.kcnt ∧ d'.keel.anc = d.keel.anc ∨
        d'.keel.kcnt = (d.keel.kcnt + 1) % 281474976710656 ∧
          (d.port.ancPend = false → d'.keel.anc = d.keel.anc) ∧
          (d.port.ancPend = true → d'.keel.ancValid = true ∧ d'.port.ancPend = false ∧
            (d'.keel.anc.at d'.keel.ancCur).cnt = d'.keel.kcnt ∧ d'.keel.anc.at d.keel.ancCur = d.keel.anc.at d.keel.ancCur)) ∧
      d'.keel.keelLost = d.keel.keelLost ∧ d'.keel.ctr = d.keel.ctr ∧ d'.stb = d.stb))

/-- R35, R37 to R41, R43, R471: the servo's inputs, while bank 6 has its supply. A narrow pulse, and an edge that PPS_POL
does not name, are ignored; an edge accepted in LOCKED with no frame and an error within UNLOCK_THR moves only the rate
and the integrator, by the two gains; a missed edge is counted and reaches HOLDOVER at MISS_LIM with RATE = integ. A
frame that passes every check of R39 waits for the next edge, and one with VALID 0 clears TTOD_OK; a frame with a wrong
first byte is counted as FRAME and clears TTOD_OK; without TTOD_EN frames are ignored. Where the rules leave it open,
the statement follows the model's choices (log entries 15 and 74). -/
def Obligations.ServoInputs : Prop :=
  ∀ s : State,
    (∀ (r : Bool) (t : DWord) (w : Word), w.toNat < 800 ∨ r = (s.core.dev.stb.ctl).getLsbD 1 ∨ s.core.dev.pwr.vioIn.getLsbD 6 = false →
      Idles (.tppsEdge r t w) s) ∧
    (∀ (t : DWord) (w : Word), s.core.dev.pwr.vioIn.getLsbD 6 = true →
      let d := s.core.dev
      let e := phaseError d ((t.toNat : Int) - pdly d) (d.port.sec + 1)
      800 ≤ w.toNat → d.stb.st = .locked → ppsAccepted d t.toNat = true → d.port.frames = [] →
      e.natAbs ≤ fld d.stb.thr 31 16 →
      Brings (.tppsEdge (!d.stb.ctl.getLsbD 1) t w) s (fun d' =>
        let u : Int := (e * 140737) / 1024
        let i := d.stb.integ - u / 2 ^ fld d.stb.servo 7 4
        let ic := max (-219902325) (min 219902325 i)
        let r := ic - u / 2 ^ fld d.stb.servo 3 0
        d'.port.pps = t.toNat ∧ d'.stb.ppsOk = true ∧ d'.port.sec = d.port.sec + 1 ∧ d'.stb.integ = ic ∧
        d'.stb.rate = max (-219902325) (min 219902325 r) ∧ d'.stb.st = .locked ∧ d'.stb.ofs = d.stb.ofs ∧
        d'.stb.epoch = d.stb.epoch ∧ d'.keel = d.keel)) ∧
    (ppsWindowEnded s.mt s.core.dev = true →
      Brings .ppsMissing s (fun d =>
        let o := s.core.dev
        d.port.missCnt = o.port.missCnt + 1 ∧ d.port.sec = o.port.sec + 1 ∧ d.stb.ppsOk = false ∧
        (max 1 (fld o.stb.servo 15 12) ≤ o.port.missCnt + 1 → d.stb.st = .holdover ∧ d.stb.rate = o.stb.integ ∧
          d.port.holdsec = 0) ∧
        (o.port.missCnt + 1 < max 1 (fld o.stb.servo 15 12) → d.stb.st = o.stb.st ∧ d.stb.rate = o.stb.rate))) ∧
    (∀ (b : Tab Byte 12) (ok : Bool) (gap : BitVec 16) (t : DWord),
      (s.core.dev.stb.ctl).getLsbD 2 = true → s.core.dev.pwr.vioIn.getLsbD 6 = true → b.at 0 ≠ 0xA5 →
      Changes (.ttodFrame b ok gap t) s (fun d =>
        raise 2 244 0x0F 0x05 4 s.mt (errInc 1 { d with
          stb := { d.stb with ttodOk := false }
          port := { d.port with frames := d.port.frames.map (fun f => { f with newest := false }) } }))) ∧
    (∀ (b : Tab Byte 12) (gap : BitVec 16) (t : DWord),
      (s.core.dev.stb.ctl).getLsbD 2 = true → s.core.dev.pwr.vioIn.getLsbD 6 = true → b.at 0 = 0xA5 → gap.toNat ≤ 20 →
      (crc16 (b.toList.take 10)).toNat = 256 * (b.at 10).toNat + (b.at 11).toNat → fld (b.at 1) 3 0 = 1 →
      (s.core.dev.port.hasPps = true → due (s.core.dev.port.pps + 80000000) t.toNat = true) →
      Changes (.ttodFrame b true gap t) s (fun d => { d with
        stb := { d.stb with ttodOk := d.stb.ttodOk && (b.at 1).getLsbD 7 }
        port := { d.port with frames :=
          ⟨beNat [b.at 2, b.at 3, b.at 4, b.at 5, b.at 6, b.at 7],
            BitVec.ofNat 32 (65536 * (b.at 1).toNat + 256 * (b.at 8).toNat + (b.at 9).toNat), t.toNat,
            (b.at 1).getLsbD 7, false, true⟩ :: d.port.frames.map (fun f => { f with newest := false }) } })) ∧
    (∀ (b : Tab Byte 12) (ok : Bool) (gap : BitVec 16) (t : DWord),
      (s.core.dev.stb.ctl).getLsbD 2 = false ∨ s.core.dev.pwr.vioIn.getLsbD 6 = false → Idles (.ttodFrame b ok gap t) s)

/-- R44: DISC_EN cleared from 1 leaves the servo in FREE, or COARSE while plant time is coarse, with RATE_MAN = RATE; set
in FREE with plant time not valid it enters ACQ; REALIGN in TRACK, LOCKED or HOLDOVER enters ACQ, and elsewhere is only set. -/
def Obligations.ServoModes : Prop :=
  ∀ s : State,
    ((s.core.dev.stb.ctl).getLsbD 0 = true →
      Brings (.discEn false) s (fun d => d.stb.ctl.getLsbD 0 = false ∧ d.stb.rateMan = s.core.dev.stb.rate ∧
        d.stb.rate = s.core.dev.stb.rate ∧ d.stb.st = (if s.core.dev.stb.ptCoarse then .coarse else .free))) ∧
    ((s.core.dev.stb.ctl).getLsbD 2 = true → s.core.dev.stb.st = .free → s.core.dev.stb.ptValid = false →
      Brings (.discEn true) s (fun d => d.stb.ctl.getLsbD 0 = true ∧ d.stb.st = .acq ∧ d.port.m1 = none)) ∧
    (s.core.dev.stb.st = .track ∨ s.core.dev.stb.st = .locked ∨ s.core.dev.stb.st = .holdover →
      Brings .realign s (fun d => d.stb.ctl.getLsbD 4 = true ∧ d.stb.st = .acq ∧ d.port.m1 = none ∧
        (d.evc.src.at 244).rcnt = (s.core.dev.evc.src.at 244).rcnt + 1)) ∧
    (s.core.dev.stb.st = .free ∨ s.core.dev.stb.st = .coarse ∨ s.core.dev.stb.st = .acq →
      Brings .realign s (fun d => d.stb.ctl.getLsbD 4 = true ∧ d.stb = { s.core.dev.stb with ctl := d.stb.ctl } ∧
        (∀ i, i ≠ 4 → d.stb.ctl.getLsbD i = s.core.dev.stb.ctl.getLsbD i) ∧ d.port = s.core.dev.port ∧ d.evc = s.core.dev.evc))

/-! ## Axes -/

namespace Sys2Proof.Machine

/-- R60: no fix waits that the unit could take now. -/
def noFixDue (s : State) : Prop := s.core.dev.dr.taken = true ∨ s.core.dev.dr.q = []

/-- R70: the estimate of an axis in NOFIX. -/
def noEstimate (e : AxEst) : Prop :=
  e.st = .nofix ∧ e.nfix = 0 ∧ e.x = 0 ∧ e.turns = 0 ∧ e.v = 0 ∧ e.a = 0 ∧ e.last = []

/-- R96: the ball of pin channel `c`, quiet until now, crosses to `l` at `t`; its filter is off (`n` 0) or on (`n` 1). -/
def crossesAt (d : Device) (c : Chan) (l : Bool) (_t : DWord) (n : Nat) : Prop :=
  c.val < 256 ∧ (d.chn.at c).pin.cand = none ∧ (d.chn.at c).pin.inp = !l ∧
  (if n = 0 then fld (d.chn.at c).cfg.pin 11 8 = 0 else fld (d.chn.at c).cfg.pin 11 8 ≠ 0)

/-- R95, R96: the stamp of a crossing at ball time `t`. -/
def stampAt (d : Device) (c : Chan) (t : DWord) : Nat :=
  (((t.toNat : Int) - signedOf 8 (fld (d.chn.at c).cfg.pin 23 16)) % 18446744073709551616).toNat

/-- R60: fix `f` is delivered: it joins the queue of the dead-reckoning unit, and nothing else changes. -/
def joins (s : State) (f : FixReq) (t : State) : Prop :=
  t = s.withDev { s.core.dev with dr := { s.core.dev.dr with q := insertBefore (fun g => FixReq.before f g) f s.core.dev.dr.q } }

end Sys2Proof.Machine

/-- R51, R52, R69, R70, R72: EN set starts the axis in NOFIX at epoch 0 with the decoder at ZPOS; a modulo axis without a
modulus refuses with CFGIGN; EN cleared and CLR leave it in NOFIX, and EN cleared also empties its waiting fixes. Other axes
and the fix registers stay. -/
def Obligations.AxisControl : Prop :=
  ∀ (s : State) (a : Axis), noFixDue s →
    let x := s.core.dev.axs.at a
    (x.reg.en = false → (x.reg.cfg.getLsbD 0 = true → 0 < x.reg.m) →
      Brings (.axisEnable a) s (fun d =>
        let y := d.axs.at a
        y.reg = { x.reg with en := true } ∧ noEstimate y.est ∧ y.est.epoch = 0 ∧ y.est.origin = s.mt ∧
        y.quad.count = (if x.reg.m = 0 then signedOf 32 x.reg.zpos.toNat * 65536
          else signedOf 32 x.reg.zpos.toNat * 65536 % x.reg.m) ∧
        (∀ b, b ≠ a → d.axs.at b = s.core.dev.axs.at b) ∧ d.chn = s.core.dev.chn ∧ d.evc = s.core.dev.evc)) ∧
    (x.reg.en = false → x.reg.cfg.getLsbD 0 = true → x.reg.m = 0 →
      Changes (.axisEnable a) s (fun d => d.axUpd a (fun y => { y with est := { y.est with cfgign := true } }))) ∧
    (x.reg.en = true →
      Brings (.axisDisable a) s (fun d =>
        let y := d.axs.at a
        y.reg = { x.reg with en := false } ∧ noEstimate y.est ∧ (∀ f ∈ d.dr.q, f.ax ≠ a) ∧
        (∀ f ∈ s.core.dev.dr.q, f.ax ≠ a → f ∈ d.dr.q) ∧ (∀ b, b ≠ a → d.axs.at b = s.core.dev.axs.at b))) ∧
    Brings (.clr a) s (fun d =>
      (d.axs.at a).reg = x.reg ∧ noEstimate (d.axs.at a).est ∧ (d.axs.at a).est.epoch = x.est.epoch ∧
      d.dr = s.core.dev.dr ∧ (∀ b, b ≠ a → d.axs.at b = s.core.dev.axs.at b))

/-- R55 to R57, R59, R60, R96: what the sources deliver: a quadrature transition, stamped with its ball time less SKEW,
counts by one, or waits in the filter while FILT is not 0; a Z reference puts the count at ZPOS under REF_ALL, a
standstill gives the half-count fix, and VM_GO with TSCALE machine time gives the fix written. Where the rules leave it
open, the statement follows the model's choices (log entries 15 and 75). -/
def Obligations.FixSources : Prop :=
  ∀ (s : State) (a : Axis),
    let d := s.core.dev
    let x := d.axs.at a
    (∀ (c : Chan) (l : Bool) (t : DWord), (d.chn.at c).cfg.en = true → (d.chn.at c).cfg.mode = 13 →
      quadAxes d c.val 0 = [a] → quadAxes d c.val 1 = [] → quadAxes d c.val 2 = [] → crossesAt d c l t 0 →
      x.quad.per ≠ some (stampAt d c t / 32) → 0 < x.reg.m → x.quad.a = (l == (d.chn.at c).cfg.inv) →
      Brings (.quadEdge c l t) s (fun d' =>
        let lv := l != (d.chn.at c).cfg.inv
        let up := (lv != x.quad.b) != x.reg.cfg.getLsbD 2
        (d'.axs.at a).quad.count = (x.quad.count + (if up then 65536 else -65536)) % x.reg.m ∧
        (d'.axs.at a).quad.a = lv ∧ (d'.axs.at a).quad.b = x.quad.b ∧ (d'.axs.at a).quad.lastEdge = some (stampAt d c t) ∧
        (d'.chn.at c).pin.inp = l ∧ (∀ b, b ≠ a → d'.axs.at b = d.axs.at b))) ∧
    (∀ (c : Chan) (l : Bool) (t : DWord), (d.chn.at c).cfg.en = true → (d.chn.at c).cfg.mode = 13 →
      crossesAt d c l t 1 →
      Brings (.quadEdge c l t) s (fun d' => (d'.chn.at c).pin.cand = some t.toNat ∧ (d'.chn.at c).pin.raw = l ∧
        (d'.chn.at c).pin.inp = (d.chn.at c).pin.inp ∧ d'.axs = d.axs ∧ d'.dr = d.dr)) ∧
    (∀ (c : Chan) (l : Bool) (t : DWord), (d.chn.at c).cfg.en = false ∨ (d.chn.at c).cfg.mode ≠ 13 → Idles (.quadEdge c l t) s) ∧
    (∀ (c : Chan) (t : DWord), (d.chn.at c).cfg.en = true → (d.chn.at c).cfg.mode = 13 → quadAxes d c.val 0 = [] →
      quadAxes d c.val 1 = [] → quadAxes d c.val 2 = [a] → crossesAt d c (!(d.chn.at c).cfg.inv) t 0 →
      fld x.reg.cfg 9 8 = 3 →
      Brings (.zReference c t) s (fun d' =>
        (d'.axs.at a).quad = { x.quad with count := zposCount x.reg, count0 := zposCount x.reg, refDone := true } ∧
        (d'.axs.at a).est = x.est ∧ (∀ b, b ≠ a → d'.axs.at b = d.axs.at b))) ∧
    (∀ k : Nat, stillAt x = some k → due k s.mt = true → d.dr.q = [] →
      Changes (.standstillFix a) s (fun d => { d.axUpd a (fun y => { y with quad := { y.quad with lastFix := some k } }) with
        dr := { d.dr with q := [⟨a, x.quad.count + 32768, k, s.mt, if s.mt + 4294967296 < k then 4 else 0, false⟩] } })) ∧
    (x.reg.en = true → fld x.reg.cfg 7 4 = 4 → d.dr.q.length < 64 →
      let t := x.reg.vmTLo.toNat + 4294967296 * x.reg.vmTHi.toNat
      ∃ s', exec (.vmGo a true) s = .next s' ∧
        joins s ⟨a, signedOf 48 (x.reg.vmPosLo.toNat + 4294967296 * fld x.reg.vmPosHi 15 0), t, s.mt,
          if s.mt + 4294967296 < t then 4 else 0, false⟩ s') ∧
    (x.reg.en = false → Idles (.vmGo a true) s)

/-- R60, R61, R64, R66, R69, R70: the unit takes the first fix that has arrived, one per base period. The first fix of a
linear axis gives its position with velocity and acceleration 0 at a new epoch, in ACQUIRING; a fix less than 256 tk
after the last is rejected as ORDER with the estimate kept; a fix timeout sets FIXLATE, and with TMO_DROP leads to
NOFIX. Where the rules leave it open, the statement follows the model's choices (log entry 14). -/
def Obligations.FixTaken : Prop :=
  ∀ s : State,
    let d := s.core.dev
    (noFixDue s → Idles .fixTakesEffect s) ∧
    (∀ (f : FixReq) (q : List FixReq), d.dr = ⟨f :: q, false⟩ → due f.arrive s.mt = true → f.pre = 0 →
      (d.axs.at f.ax).reg.en = true → (d.axs.at f.ax).reg.cfg.getLsbD 0 = false → (d.axs.at f.ax).est.st = .nofix →
      (d.axs.at f.ax).est.last = [] → -140737488355328 ≤ f.z → f.z < 140737488355328 →
      Brings .fixTakesEffect s (fun d' =>
        let e := (d.axs.at f.ax).est
        (d'.axs.at f.ax).est = { e with
          st := .acquiring, nfix := 1, fixlate := false, epoch := e.epoch + 1, tf := f.t, x := f.z * 65536, turns := 0
          v := 0, a := 0, consec := 0, last := [(f.z, f.t)], t1 := f.t, vm := none, origin := s.mt, zprev := f.z } ∧
        d'.dr = ⟨q, true⟩ ∧ (∀ b, b ≠ f.ax → d'.axs.at b = d.axs.at b) ∧ (d'.axs.at f.ax).reg = (d.axs.at f.ax).reg)) ∧
    (∀ (f : FixReq) (q : List FixReq) (z : Int) (t : Nat) (l : List (Int × Nat)), d.dr = ⟨f :: q, false⟩ →
      due f.arrive s.mt = true → f.pre = 0 → (d.axs.at f.ax).reg.en = true → (d.axs.at f.ax).est.last = (z, t) :: l → f.t < t + 256 →
      Changes .fixTakesEffect s (fun d => raise 3 (64 + f.ax.val) 0x06 3 0 s.mt
        ({ d with dr := ⟨q, true⟩ }.estUpd f.ax (fun e => { e with rejCnt := min 65535 (e.rejCnt + 1), rejCause := 3 })))) ∧
    (∀ a : Axis, timeoutDue (d.axs.at a) s.mt = true → (d.axs.at a).reg.cfg.getLsbD 3 = false →
      Changes (.fixTimeout a) s (fun d =>
        raise 3 (64 + a.val) 0x04 0x21 0 s.mt (d.estUpd a (fun e => { e with fixlate := true })))) ∧
    (∀ a : Axis, timeoutDue (d.axs.at a) s.mt = true → (d.axs.at a).reg.cfg.getLsbD 3 = true → (d.axs.at a).est.st ≠ .nofix →
      Brings (.fixTimeout a) s (fun d' => noEstimate (d'.axs.at a).est ∧ (d'.axs.at a).est.fixlate = true ∧
        (d'.axs.at a).reg = (d.axs.at a).reg)) ∧
    (∀ a : Axis, timeoutDue (d.axs.at a) s.mt = false → Idles (.fixTimeout a) s)

/-! ## Channels -/

namespace Sys2Proof.Machine

/-- Every channel but `c` is as it was. -/
def otherChans (c : Chan) (d d' : Device) : Prop := ∀ o, o ≠ c → d'.chn.at o = d.chn.at o

/-- R115: the shadow set of an output channel passes the checks that do not concern trains. -/
def plainSet (c : Chan) (h : Channel) : Prop :=
  c.val < 256 ∧ h.cfg.mode = 1 ∧ 16 ≤ fld h.cfg.shadow.lead 10 0 ∧ fld h.cfg.shadow.lead 10 0 ≤ 1024 ∧
  fld h.cfg.shadow.cfg 5 4 ≠ 3 ∧ fld h.cfg.shadow.cfg 9 8 ≠ 3

/-- R118: channel `c` is in the mask `m`. -/
def inMask (m : Tab Word 16) (c : Chan) : Bool := (m.at (Fin.ofNat 16 (c.val / 32))).getLsbD (c.val % 32)

end Sys2Proof.Machine

/-- R82, R85, R147, R152, R178: EN set in a valid output mode drives the ball to its safe level, with CODE OK and the
run of revisions cleared, and starts the program of a home channel at ENTRY; in a mode that is not assigned it is
refused with CFGIGN, as is one before READY (log entry 76); EN cleared empties the queues, stops the train and returns the ball to its safe level. Where the
rules leave it open, the statement follows the model's choices (log entry 20). -/
def Obligations.ChannelEnableDisable : Prop :=
  ∀ (s : State) (c : Chan),
    let h := s.core.dev.chn.at c
    (h.cfg.en = false → s.core.dev.pwr.phase = .ready → c.val < 256 → h.cfg.mode = 1 → h.cfg.member = false → h.cfg.bound = false →
      Changes (.channelEnable c) s (fun d => d.chnUpd c (fun h => { h with
        cfg := { h.cfg with en := true }
        stat := { h.stat with
          code := .ok, driven := true, run := 0, frozen := false, safe := false, safeDue := none }
        pin := { h.pin with drive := safeDrive h.cfg h.pin }
        prog := { h.prog with faultValid := false } }))) ∧
    (h.cfg.en = false → s.core.dev.pwr.phase = .ready → c.val < 256 → h.cfg.mode = 1 → h.cfg.member = false → h.cfg.bound = true →
      Brings (.channelEnable c) s (fun d =>
        let p := (d.chn.at c).prog
        (d.chn.at c).cfg.en = true ∧ p.ctx = { Context.clear with pc := BitVec.ofNat 15 (fld h.cfg.prog 14 0) } ∧
        p.running = true ∧ p.wait = .runnable ∧ p.segs = [] ∧ p.dsig = 0 ∧ (∃ r ∈ d.hlm.q, r.ch = c) ∧
        otherChans c s.core.dev d)) ∧
    (h.cfg.en = false → h.cfg.mode = 6 ∨ h.cfg.mode = 7 ∨ h.cfg.mode = 15 ∨ s.core.dev.pwr.phase ≠ .ready →
      Changes (.channelEnable c) s (fun d => d.chnUpd c (fun h => { h with stat := { h.stat with cfgign := true } }))) ∧
    (h.cfg.en = true → Idles (.channelEnable c) s) ∧ (h.cfg.en = false → Idles (.channelDisable c) s) ∧
    (h.cfg.en = true → c.val < 256 → h.cfg.bound = false →
      Brings (.channelDisable c) s (fun d =>
        let h' := d.chn.at c
        h'.cfg.en = false ∧ h'.prov = [] ∧ h'.comm = [] ∧ h'.train = TrainGen.reset ∧
        h'.cfg.live.train.getLsbD 0 = false ∧ h'.cfg.shadow = h.cfg.shadow ∧ h'.cfg.pend = none ∧
        h'.pin.drive = (if h.stat.driven then safeDrive h.cfg h.pin else h.pin.drive) ∧ h'.stat.code = h.stat.code ∧
        otherChans c s.core.dev d ∧ d.evc = s.core.dev.evc))

/-- R114 to R116: GO records a pending apply with its mode, time and boundary; a second one is refused with STGREF;
CANCEL drops it; an apply of mode NEXT on an output channel makes the shadow set live, or sets CFGERR and raises the
first failing check, here 1, a lead out of range. Where the rules leave it open, the statement follows the model's
choices (log entry 19). -/
def Obligations.ChannelApply : Prop :=
  ∀ (s : State) (c : Chan) (a : Axis) (first : Bool),
    let h := s.core.dev.chn.at c
    (∀ m : BitVec 2, m = 0 ∨ m = 1 → h.cfg.gpend = false → h.cfg.pend = none →
      Changes (.applyGo c m a first) s (fun d => d.cfgUpd c (fun g => { g with
        atmode := m, axis := BitVec.ofNat 6 a.val
        pend := some { atmode := m.toNat, pos := none, t := g.atLo.toNat + 4294967296 * g.atHi.toNat, b := s.mt } }))) ∧
    (∀ m : BitVec 2, h.cfg.gpend = true ∨ (h.cfg.pend ≠ none ∧ first = false) →
      Changes (.applyGo c m a first) s (fun d => d.statUpd c (fun x => { x with stgref := true }))) ∧
    Changes (.applyCancel c) s (fun d => d.cfgUpd c (fun g => { g with pend := none })) ∧
    (∀ p : PendApply, h.cfg.pend = some p → p.atmode = 0 → p.pos = none → p.b ≤ s.mt → plainSet c h →
      Changes (.applyLatch c) s (fun d => d.cfgUpd c (fun g => { g with pend := none, live := g.shadow }))) ∧
    (∀ p : PendApply, h.cfg.pend = some p → p.atmode = 0 → p.pos = none → p.b ≤ s.mt → h.cfg.mode = 1 →
      fld h.cfg.shadow.lead 10 0 < 16 →
      Changes (.applyLatch c) s (fun d => raise 4 (c.val / 8) 0x04 0x31 (8 + c.val % 8) s.mt
        ((d.cfgUpd c (fun g => { g with pend := none })).statUpd c (fun x => { x with cfgerr := true })))) ∧
    (h.cfg.pend = none → Idles (.applyLatch c) s)

/-- R118: a group apply marks its members GPEND; a second GO is refused with REF; CANCEL drops it; at its boundary, with
every member's set admissible, all shadow sets become live together; a member that was busy with an apply of its own
refuses all. Where the rules leave it open, the statement follows the model's choices (log entry 19). -/
def Obligations.GroupApplies : Prop :=
  ∀ s : State,
    let d := s.core.dev
    (∀ t f : Bool, d.sys.gp = none →
      Brings (.gapplyGo t f) s (fun d' =>
        (∃ g, d'.sys.gp = some g ∧ g.mask = d.sys.gmask ∧ g.atTime = t ∧ g.goAt = s.mt ∧
          g.t = d.sys.gatLo.toNat + 4294967296 * d.sys.gatHi.toNat) ∧
        (∀ c : Chan, d'.chn.at c = { d.chn.at c with
          cfg := { (d.chn.at c).cfg with gpend := (d.chn.at c).cfg.gpend || inMask d.sys.gmask c } }))) ∧
    (∀ t : Bool, d.sys.gp ≠ none →
      Changes (.gapplyGo t false) s (fun d => { d with sys := { d.sys with gatmode := t, gref := true } })) ∧
    (∀ g : GroupApply, d.sys.gp = some g →
      Brings .gapplyCancel s (fun d' => d'.sys = { d.sys with gp := none } ∧
        (∀ c : Chan, d'.chn.at c = { d.chn.at c with
          cfg := { (d.chn.at c).cfg with gpend := (d.chn.at c).cfg.gpend && !inMask g.mask c } }))) ∧
    (∀ g : GroupApply, d.sys.gp = some g → g.goAt ≠ s.mt → due g.goAt s.mt = true → (g.atTime = true → g.t ≤ s.mt) →
      g.busy = none →
      (∀ c : Chan, inMask g.mask c = true → plainSet c (d.chn.at c)) →
      Brings .gapplyLatch s (fun d' => d'.sys.gp = none ∧ d'.sys.gerr = d.sys.gerr ∧
        (∀ c : Chan, inMask g.mask c = true → (d'.chn.at c).cfg.live = (d.chn.at c).cfg.shadow) ∧
        (∀ c : Chan, inMask g.mask c = false → d'.chn.at c = d.chn.at c))) ∧
    (∀ (g : GroupApply) (b : Chan), d.sys.gp = some g → g.goAt ≠ s.mt → due g.goAt s.mt = true →
      (g.atTime = true → g.t ≤ s.mt) → g.busy = some b →
      (∀ c : Chan, inMask g.mask c = true → plainSet c (d.chn.at c)) →
      Brings .gapplyLatch s (fun d' => d'.sys.gp = none ∧ d'.sys.gerr = true ∧ d'.sys.gerrch = b.val ∧
        (∀ c : Chan, (d'.chn.at c).cfg.live = (d.chn.at c).cfg.live))) ∧
    (d.sys.gp = none → Idles .gapplyCancel s ∧ Idles .gapplyLatch s)

namespace Sys2Proof.Machine

/-- R93, R98: the committed entry of a train pulse of `w` tk that starts at `t` on a pin channel. -/
def trainEntry (c : Chan) (h : Channel) (t w now : Nat) : CommEntry :=
  let l := h.cfg.live.train.getLsbD 1
  { src := .train, ty := .pulse, lvl := l, t := t, w := w, lk := h.cfg.live.armLk, tested := false, leadAt := none
    edges := [mkEdge c h.cfg t l now, mkEdge c h.cfg (addT t w) (!l) now], until? := none, first := none, nEdge := 0
    retireAt := none }

/-- R86, R93: the committed entry of a LEVEL action of a program on a pin channel. -/
def levelEntry (c : Chan) (h : Channel) (e : ProvEntry) (now : Nat) : CommEntry :=
  { src := .program, ty := .level, lvl := e.lvl, t := e.t, w := e.w, lk := none, tested := false, leadAt := none
    edges := [mkEdge c h.cfg e.t e.lvl now], until? := none, first := none, nEdge := 0, retireAt := none }

end Sys2Proof.Machine

/-- R97, R98, R100, R314, R317: the next period of a running train commits its pulse once its commit instant has come,
and not before; a period start resets the ramps' period and attempts a clear of the lookouts that clear on it. Where the
rules leave it open, the statement follows the model's choices (log entries 20 and 21). -/
def Obligations.Trains : Prop :=
  ∀ (s : State) (c : Chan),
    let d := s.core.dev
    let h := d.chn.at c
    (c.val < 256 → h.cfg.mode = 2 → h.cfg.en = true → h.train.run = true → h.train.fixed = [] →
      commitAt h.train.next (d.lead c) ≤ (s.mt : Int) → h.comm.length < 4 → d.phasesOf c = [] →
      64 ≤ h.cfg.live.wid.toNat → h.cfg.live.wid.toNat + 64 ≤ h.cfg.live.per.toNat →
      Changes (.trainPeriodCommit c) s (fun d => d.chnUpd c (fun h =>
        let t := h.train.next
        let p := h.cfg.live.per.toNat
        { h with
          comm := h.comm ++ [trainEntry c h t h.cfg.live.wid.toNat s.mt]
          train := { h.train with
            k := h.train.k + 1, next := (t + p) % 18446744073709551616, starts := h.train.starts ++ [t], ends := t + p } }))) ∧
    (h.cfg.mode = 2 → h.train.fixed = [] →
      h.train.run = false ∨ (s.mt : Int) < commitAt h.train.next (d.lead c) → Idles (.trainPeriodCommit c) s) ∧
    (∀ (t : Nat) (l : List Nat), h.train.starts = t :: l → t < s.mt + 32 →
      Brings (.trainPeriodStart c) s (fun d' =>
        (d'.chn.at c).train = { h.train with cur := some t, prev := h.train.cur, starts := l } ∧ otherChans c d d' ∧
        (∀ k : LkNo, d'.lko.at k = { d.lko.at k with
          clrPer := (d.lko.at k).clrPer ||
            ((d.lko.at k).cfgE.getLsbD 6 && decide (fld (d.lko.at k).cfgE 15 8 = c.val)) }))) ∧
    (∀ (t : Nat) (l : List Nat), h.train.starts = t :: l → s.mt + 32 ≤ t → Idles (.trainPeriodStart c) s) ∧
    (h.train.starts = [] → Idles (.trainPeriodStart c) s)

/-- R15, R90, R92 to R94, R112, R139, R140, R143: a LEVEL action whose commit instant is this boundary is committed with
its CODE and its edge; one that is late is dropped under policy DROP and counted; a committed edge that falls in this
base period is placed on the ball; an entry whose retirement is due leaves the queue. Where the rules leave it open, the
statement follows the model's choices (log entries 17 and 18). -/
def Obligations.ActionsCommitAndEdges : Prop :=
  ∀ (s : State) (c : Chan),
    let d := s.core.dev
    let h := d.chn.at c
    (∀ e : ProvEntry, c.val < 256 → h.prov = [e] → e.ty = .level → e.holder = false → e.marks = [] →
      e.t ≠ 0xFFFF_FFFF_FFFF_FFFF → commitAt e.t (d.lead c) = (s.mt : Int) → h.comm.length < 4 → h.stat.code.sticky = false →
      Brings (.actionCommit c) s (fun d' =>
        (d'.chn.at c).prov = [] ∧ (d'.chn.at c).comm = h.comm ++ [levelEntry c h e s.mt] ∧
        (d'.chn.at c).stat.code = (if (e.pos.map (fun p => p.coast)).getD false then .acquire
          else if e.rerun then .revised else .ok) ∧
        (d'.chn.at e.home).stat.run = 0 ∧ (d'.chn.at e.home).stat.frozen = false ∧ d'.evc = d.evc)) ∧
    (∀ e : ProvEntry, c.val < 256 → h.prov = [e] → e.marks = [] → e.t ≠ 0xFFFF_FFFF_FFFF_FFFF →
      commitAt e.t (d.lead c) < (s.mt : Int) → fld h.cfg.live.cfg 5 4 = 0 → h.stat.code.sticky = false →
      Brings (.actionCommit c) s (fun d' =>
        (d'.chn.at c).prov = [] ∧ (d'.chn.at c).comm = h.comm ∧ (d'.chn.at c).stat.code = .late ∧
        (d'.chn.at c).stat.latecnt = min 4294967295 (h.stat.latecnt + 1) ∧ (d'.chn.at c).stat.margin = 0 ∧
        (d'.chn.at c).pin = h.pin)) ∧
    (h.prov = [] → Idles (.actionCommit c) s) ∧
    (∀ (e : CommEntry) (p : PinEdge), c.val < 256 → h.comm = [e] → e.edges = [p] → e.lk = none → e.until? = none →
      h.pin.lastAt = none → p.ball < (s.mt : Int) + 32 →
      Changes (.edgePlaced c) s (fun d => d.chnUpd c (fun h => { h with
        comm := [{ e with
          edges := [], leadAt := some (e.leadAt.getD p.ball), retireAt := some (lowBits 64 (p.ball / 32 * 32 + 32)) }]
        pin := if ballFor h.cfg.inv p.lvl = h.pin.drive then h.pin
          else { h.pin with drive := ballFor h.cfg.inv p.lvl, lastAt := some p.ball, edgeT := p.t % 18446744073709551616 } }))) ∧
    (∀ (t : Nat) (l : Bool) (q : List (Nat × Bool)), 256 ≤ c.val → h.comm = [] → h.pin.slotEdges = (t, l) :: q → t < s.mt + 32 →
      Changes (.edgePlaced c) s (fun d => d.pinUpd c (fun p =>
        { p with slotEdges := q, slotLvl := l, edgeT := if l = p.slotLvl then p.edgeT else t }))) ∧
    (∀ (e : CommEntry) (l : List CommEntry) (t : Nat), h.comm = e :: l → e.retireAt = some t → due t s.mt = true →
      Changes (.entryRetire c) s (fun d => d.chnUpd c (fun h => { h with comm := l })))

namespace Sys2Proof.Machine

/-- R96: the pin cell after a crossing to `l` at ball time `t` that passed the filter at once. -/
def crossedPin (p : PinCell) (l : Bool) (t : Nat) : PinCell :=
  { p with
    raw := l, inp := l, cand := none
    seen := if p.drive = .undriven ∧ p.raw ≠ l then p.seen ++ [(t, l)] else p.seen }

end Sys2Proof.Machine

/-- R96, R103 to R107, R121: an edge on CAP_EDGE writes an entry with the time since the last; a full FIFO drops it with
COVF, and LOST on the next entry; a window that closed without an edge writes its MISS entry; a read of CAP_ATTR latches
the head, and consumes it where the host owns the FIFO. With FILT above 0 a crossing waits, and one undone before FILT base
periods have passed is none; the stamp is the ball time less SKEW. Where the rules leave it open, the statement follows the
model's choices (log entries 15, 16 and 73). -/
def Obligations.Captures : Prop :=
  ∀ (s : State) (c : Chan),
    let h := s.core.dev.chn.at c
    (∀ (l : Bool) (t : DWord) (a : Nat), c.val < 256 → h.cfg.en = true → h.cfg.mode = 8 → fld h.cfg.live.cfg 9 8 = 2 →
      crossesAt s.core.dev c l t 0 → h.pin.prevSel = some a → h.pin.cap.length < 16 →
      Changes (.inputEdge c l t) s (fun d => d.pinUpd c (fun p =>
        let x := stampAt s.core.dev c t
        { crossedPin p l t.toNat with
          prevSel := some x, lostDue := false
          cap := p.cap ++ [{ stamp := x, val := min 4294967295 (x - a), edge := l != h.cfg.inv, lost := p.lostDue
                             miss := false, multi := false, sat := decide (4294967295 < x - a) }] }))) ∧
    (∀ (l : Bool) (t : DWord), c.val < 256 → h.cfg.en = true → h.cfg.mode = 8 → fld h.cfg.live.cfg 9 8 = 2 →
      crossesAt s.core.dev c l t 0 → 16 ≤ h.pin.cap.length → h.cfg.even.getLsbD 1 = false →
      Changes (.inputEdge c l t) s (fun d => d.chnUpd c (fun h => { h with
        pin := { crossedPin h.pin l t.toNat with prevSel := some (stampAt s.core.dev c t), lostDue := true }
        stat := { h.stat with covf := true } }))) ∧
    (∀ (l : Bool) (t : DWord), crossesAt s.core.dev c l t 1 →
      Changes (.inputEdge c l t) s (fun d => d.pinUpd c (fun p =>
        { crossedPin p l t.toNat with inp := p.inp, cand := some t.toNat }))) ∧
    (∀ (l : Bool) (t : DWord) (a : Nat), c.val < 256 → h.pin.inp = l → h.pin.cand = some a →
      t.toNat < a + 32 * fld h.cfg.pin 11 8 →
      Changes (.inputEdge c l t) s (fun d => d.pinUpd c (fun p => crossedPin p l t.toNat))) ∧
    (∀ (l : Bool) (t : DWord), h.pin.inp = l ∧ h.pin.raw = l ∧ h.pin.cand = none ∨ 256 ≤ c.val → Idles (.inputEdge c l t) s) ∧
    (∀ e : CommEntry, h.comm = [e] → e.ty = .capwin → e.first = none → (e.t + e.w + 31) / 32 * 32 ≤ s.mt → e.w < 4294967296 →
      h.pin.cap.length < 16 →
      Changes (.windowClose c) s (fun d => d.chnUpd c (fun h => { h with
        comm := []
        pin := { h.pin with
          lostDue := false
          cap := h.pin.cap ++ [{ stamp := e.t + e.w, val := e.w, edge := false, lost := h.pin.lostDue, miss := true
                                 multi := false, sat := false }] } }))) ∧
    (h.comm = [] → Idles (.windowClose c) s) ∧
    (∀ (x : CapEntry) (l : List CapEntry), h.pin.cap = x :: l → h.cfg.live.cfg.getLsbD 10 = true →
      Changes (.capAttrRead c) s (fun d => { d.pinUpd c (fun p => { p with
          attrL := x.attr l.length, stampL := x.stamp, valL := x.val, cap := l, capHeld := p.capHeld - 1 }) with
        hps := { d.hps with dout := x.attr l.length } })) ∧
    (h.pin.cap = [] →
      Changes (.capAttrRead c) s (fun d => { d.pinUpd c (fun p => { p with attrL := 0, stampL := 0, valL := 0 }) with
        hps := { d.hps with dout := 0 } }))

/-! ## Segments -/

/-- R123 to R125, R175, R250: the writes of a routine land one base period after it ended: its context, and the action
that it stages with its ordinal; a routine that faulted ends the service with the fault held in its segment. Where the
rules leave it open, the statement follows the model's choices (log entry 51). -/
def Obligations.RoutinesLand : Prop :=
  ∀ (s : State) (ch : Chan) (v : Service) (r : Staged) (l : List Staged) (g : Segment),
    let d := s.core.dev
    let p := (d.chn.at ch).prog
    p.svc = some v → v.staged = r :: l → r.at' ≠ s.mt → due r.at' s.mt = true → r.tail = none → p.segs = [g] → g.convs = [] → g.epochs = [] → g.rerun = false →
    (∀ c : Chan, (d.chn.at c).prov = []) → (∀ c : Chan, c ≠ ch → (d.chn.at c).prog.segs = []) →
    (r.fin = .go → r.newSeg = none → r.act = none → r.held = [] → r.convs = [] →
      Changes (.routineCommit ch) s (fun d => d.progUpd ch (fun p => { p with
        ctx := r.ctx, segs := [{ g with emits := g.emits + r.emit.toNat, stop := g.stop || r.stop }], again := false
        svc := some { v with staged := l, ctx := if l.isEmpty then r.ctx else v.ctx } }))) ∧
    (∀ (c : Chan) (x : ProvEntry), r.fin = .go → r.newSeg = none → r.act = some (c, x) → r.held = [] → r.convs = [] →
      r.stop = false → x.pos = none →
      Brings (.routineCommit ch) s (fun d' =>
        (d'.chn.at c).prov = [{ x with wrote := s.mt }] ∧
        (d'.chn.at ch).prog.segs = [{ g with emits := g.emits + r.emit.toNat }] ∧ (d'.chn.at ch).prog.ctx = r.ctx ∧
        (∀ o, o ≠ c → o ≠ ch → d'.chn.at o = d.chn.at o))) ∧
    (∀ f : HeldFault, r.fin = .fault f →
      Brings (.routineCommit ch) s (fun d' =>
        let q := (d'.chn.at ch).prog
        q.svc = none ∧ q.wait = .stopped ∧ q.segs = [{ g with fault := some f, ended := true }] ∧ q.ctx = p.ctx ∧
        (d'.hlm.eng.at v.eng).slots.at v.slot = none ∧ d'.hlm.svccnt = (d.hlm.svccnt + 1) % 4294967296))

/-- R126, R129, R170, R176, R177: a segment that has ended and holds no action is released: a held STM writes its bytes
and no other, where its bank is on; where it is not, the fault BANK becomes final; a held stop stops the program. A held
fault becomes final: the program stops, CHN_FAULT takes its code and PC, HLM_MFAULT the channel, subcode and micro-address of a MICRO
fault (R260), and the safe state is due at the next boundary. Where the rules leave it open, the statement follows the model's choices (log entry 51). -/
def Obligations.SegmentsRelease : Prop :=
  ∀ (s : State) (ch : Chan) (g : Segment),
    let d := s.core.dev
    let p := (d.chn.at ch).prog
    p.segs = [g] →
    (∀ c : Chan, (d.chn.at c).prov = []) →
    (g.ended = true → g.fault = none →
      (∀ (a : Nat) (v : DWord) (pc : BitVec 15), g.held = [.stm a v false pc] → a + 8 ≤ 2097152 → d.bankOn a = true →
        d.mem.bytesB = [] → g.stop = false → s.core.ram.wf →
        ∃ t, exec (.segmentRelease ch) s = .next t ∧
          (∀ i, i < 8 → t.core.ram.bankRead 1 (a + i) = v.toNat / 256 ^ i % 256) ∧
          (∀ b, b < a ∨ a + 8 ≤ b → t.core.ram.bankRead 1 b = s.core.ram.bankRead 1 b) ∧
          t.core.ram.alm = s.core.ram.alm ∧ t.core.ram.prog = s.core.ram.prog ∧ t.core.ram.lut = s.core.ram.lut ∧
          (t.core.dev.chn.at ch).prog = { p with segs := [] } ∧ otherChans ch d t.core.dev) ∧
      (∀ (a : Nat) (v : DWord) (pc : BitVec 15), g.held = [.stm a v false pc] → d.bankOn a = false →
        Brings (.segmentRelease ch) s (fun d' =>
          let q := (d'.chn.at ch).prog
          q.faultValid = true ∧ q.faultCode = 5 ∧ q.faultPc = pc ∧ q.running = false ∧ q.segs = [] ∧
          (d'.chn.at ch).stat.safeDue = some (.bankasleep, addT s.mt 32))) ∧
      (g.held = [] → g.stop = true →
        Brings (.segmentRelease ch) s (fun d' =>
          (d'.chn.at ch).prog = { p with segs := [], running := false, wait := .stopped } ∧ otherChans ch d d'))) ∧
    (g.ended = false → Idles (.segmentRelease ch) s) ∧
    (∀ f : HeldFault, g.fault = some f → f.code ≠ 5 →
      Brings (.faultFinal ch) s (fun d' =>
        let q := (d'.chn.at ch).prog
        q.faultValid = true ∧ q.faultCode = f.code ∧ q.faultPc = f.pc ∧ q.running = false ∧ q.segs = [] ∧ q.ctx = g.ckpt ∧
        (d'.chn.at ch).stat.safeDue = some (.progfault, addT s.mt 32) ∧
        d'.hlm.mfault = (match f.ua with
          | some u => BitVec.ofNat 32 (ch.val + 512 * (f.sub % 64) + 65536 * (u % 65536))
          | none => d.hlm.mfault) ∧
        (d'.evc.src.at (Fin.ofNat 256 (ch.val / 8))).rcnt = (d.evc.src.at (Fin.ofNat 256 (ch.val / 8))).rcnt + 1)) ∧
    (g.fault = none → Idles (.faultFinal ch) s)

/-- R9, R17, R144, R145, R478: the SNAPSHOT row asks for a copy, which step 6 of the boundary takes, after the releases: it
copies the SN fields of every channel and axis, and the staged set in effect with its effective lead, takes the boundary as its
time and counts. That the helm stands between steps 5 and 6 is the model's choice (log entry 1). -/
def Obligations.SnapshotCopies : Prop :=
  (∀ s : State, Changes .snapshot s (fun d => { d with sys := { d.sys with snapReq := true } })) ∧
  (∀ (now : Nat) (c : Core), (boundaryRelease now c).dev.sys.snapReq = false ∧
    (boundaryRelease now c).dev =
      (let d := helmStep now (lateApplies now (releaseStep now c).dev)
       if d.sys.snapReq then takeSnapshot now d else d) ∧
    (boundaryRelease now c).ram = (releaseStep now c).ram) ∧
  (∀ (now : Nat) (o : Device),
    let d := takeSnapshot now o
    d.sys.snapt = now ∧ d.sys.snapcnt = (o.sys.snapcnt + 1) % 4294967296 ∧ d.chn = o.chn ∧ d.axs = o.axs ∧
    ∃ p : Snap, d.sys.snap = some p ∧
      (∀ c : Chan, (p.chn.at c).stat = chnStatWord c o ∧ (p.chn.at c).pstat = pstatWord c o ∧
        (p.chn.at c).live = { (o.chn.at c).cfg.live with lead := (p.chn.at c).live.lead } ∧
        fld (p.chn.at c).live.lead 10 0 =
          (if c.val < 256 then fld (o.chn.at c).cfg.live.lead 10 0 else max 512 (fld (o.chn.at c).cfg.live.lead 10 0)) ∧
        (p.chn.at c).edge = (o.chn.at c).pin.edgeT ∧ (p.chn.at c).rel = (o.chn.at c).prog.released) ∧
      (∀ a : Axis, (p.axs.at a).x = (o.axs.at a).est.x ∧ (p.axs.at a).turns = (o.axs.at a).est.turns ∧
        (p.axs.at a).v = (o.axs.at a).est.v ∧ (p.axs.at a).a = (o.axs.at a).est.a ∧
        (p.axs.at a).tf = (o.axs.at a).est.tf ∧ (p.axs.at a).epoch = (o.axs.at a).est.epoch))

/-! ## Helm and engines -/

namespace Sys2Proof.Machine

/-- R233: a service of home `c` is requested. -/
def asksFor (d : Device) (c : Chan) : Prop := ∃ r ∈ d.hlm.q, r.ch = c

/-- R163: home `ch` runs a program that stands in a wait, and its channel is enabled. -/
def Waiting (s : State) (ch : Chan) (w : WaitState) : Prop :=
  let h := s.core.dev.chn.at ch
  h.cfg.en = true ∧ h.prog.running = true ∧ h.prog.svc = none ∧ h.prog.wait = w

/-- R165 to R168: the program leaves its wait and asks for a service; nothing else of its channel changes. -/
def wakes (s : State) (ch : Chan) (d : Device) : Prop :=
  asksFor d ch ∧ d.chn.at ch = { s.core.dev.chn.at ch with
    prog := { (s.core.dev.chn.at ch).prog with wait := .runnable, again := false } } ∧ otherChans ch s.core.dev d ∧ d.evc = s.core.dev.evc

end Sys2Proof.Machine

/-- R123, R159, R235, R236, R437: the helm dispatches the waiting request to the engine with the most free slots: the
service starts with the program's context, a new segment with that checkpoint and a view of the boundary; while the run
gate is closed, and after four dispatches at one boundary, nothing is dispatched. Where the rules leave it open, the statement follows the model's choices (log
entry 51). -/
def Obligations.Dispatch : Prop :=
  ∀ (s : State) (r : Req),
    let d := s.core.dev
    let p := (d.chn.at r.ch).prog
    d.hlm.q = [r] → (d.chn.at r.ch).cfg.en = true →
    (∀ n : EngineNo, d.pwr.gate = true → p.running = true → p.svc = none → p.wait = .runnable → p.segs = [] →
      p.settled = [] → d.ckptUsed < 1024 → d.turn.disp < 4 → bestEngine d = some n →
      Brings .serviceDispatch s (fun d' =>
        let q := (d'.chn.at r.ch).prog
        d'.hlm.q = [] ∧ (d'.hlm.eng.at n).slots.at (slotFor n d) = some r.ch ∧
        d'.hlm.slackmin = min d.hlm.slackmin ((r.deadline - s.mt) / 32) ∧
        q.segs = [{ seq := p.nextSeq, ckpt := p.ctx, settled := 0, emits := 0, held := [], convs := [], epochs := []
                    ended := false, fault := none, stop := false, rerun := false }] ∧
        q.nextSeq = p.nextSeq + 1 ∧ q.ctx = p.ctx ∧
        (∃ v, q.svc = some v ∧ v.eng = n ∧ v.slot = slotFor n d ∧ v.deadline = r.deadline ∧ v.first = p.nextSeq ∧
          v.count = 0 ∧ v.ctx = p.ctx ∧ v.staged = [] ∧ v.view.at' = s.mt) ∧ otherChans r.ch d d')) ∧
    (d.pwr.gate = false ∨ d.turn.disp = 4 → Idles .serviceDispatch s)

/-- R163 to R168: a WAIT of kind TIME, a hold on an axis and a timeout end when their condition holds, and the helm
raises the request; while it does not hold, nothing changes. R236, R242 to R244: a service at 1,024 instructions ends as
by YIELD with LONG set; a request that comes soon enough before the latest service preempts it; a routine of 4,096
microwords faults MICRO 0x3F, held with its micro-address. Where the rules leave it open, the statement follows the model's
choices (log entries 28, 30 and 51). -/
def Obligations.WaitsAndServicesEnd : Prop :=
  (∀ (s : State) (ch c : Chan) (reg : Fin 16) (arg : Byte) (tmo : Option (Fin 4)) (a : Axis),
     let p := (s.core.dev.chn.at ch).prog
     (Waiting s ch (.wait 0 reg arg c tmo) → (p.ctx.t.at (Fin.ofNat 4 reg.val)).toNat ≤ s.mt →
       Brings (.waitSatisfied ch) s (wakes s ch)) ∧
     (Waiting s ch (.wait 0 reg arg c tmo) → s.mt < (p.ctx.t.at (Fin.ofNat 4 reg.val)).toNat → Idles (.waitSatisfied ch) s) ∧
     (Waiting s ch (.hold a false) → (s.core.dev.axs.at a).est.st = .steady →
       Brings (.implicitWaitSatisfied ch) s (wakes s ch)) ∧
     (Waiting s ch (.hold a false) → (s.core.dev.axs.at a).est.st ≠ .steady → Idles (.implicitWaitSatisfied ch) s) ∧
     (∀ r : Fin 4, Waiting s ch (.wait 0 reg arg c (some r)) → (p.ctx.t.at r).toNat ≤ s.mt →
       Brings (.waitTimeout ch) s (wakes s ch)) ∧
     (Waiting s ch (.wait 0 reg arg c none) → Idles (.waitTimeout ch) s)) ∧
  (∀ (s : State) (ch : Chan) (v : Service) (g : Segment),
     let d := s.core.dev
     let p := (d.chn.at ch).prog
     p.svc = some v → v.staged = [] → p.segs = [g] → g.rerun = false → (d.chn.at ch).cfg.en = true →
     (1024 ≤ v.count →
       Brings (.serviceLimit ch) s (fun d' =>
         (d'.chn.at ch).prog = { p with
           long := true, svc := none, wait := .runnable, segs := [{ g with ended := true }] } ∧ asksFor d' ch ∧
         (d'.hlm.eng.at v.eng).slots.at v.slot = none ∧ d'.hlm.svccnt = (d.hlm.svccnt + 1) % 4294967296)) ∧
     (v.count < 1024 → Idles (.serviceLimit ch) s) ∧
     (∀ r : Req, d.hlm.q = [r] → d.turn.pre = false → bestEngine d = none → latestService d = some (ch, v.deadline) → d.hlm.preemptEn = true →
       r.deadline + 32 * fld d.hlm.preempt 15 0 ≤ v.deadline → r.deadline ≤ s.mt + 32 * fld d.hlm.preempt 31 16 →
       Brings .preemption s (fun d' =>
         (d'.chn.at ch).prog = { p with svc := none, wait := .runnable, segs := [{ g with ended := true }] } ∧
         asksFor d' ch ∧ (d'.hlm.eng.at v.eng).slots.at v.slot = none ∧
         d'.hlm.precnt = min 4294967295 (d.hlm.precnt + 1) ∧ d'.hlm.abncnt = min 4294967295 (d.hlm.abncnt + 1))) ∧
     (d.hlm.q = [] ∨ d.turn.pre = true → Idles .preemption s) ∧
     (∀ u : BitVec 16, v.count < 1024 → v.ctx.past = false →
       Changes (.microwordLimit ch u) s (fun d => d.progUpd ch (fun p => { p with
           svc := some { v with
             count := v.count + 1, retried := false
             staged := [{ ctx := v.ctx, newSeg := none, emit := false, act := none, held := [], convs := [], stop := false
                          zmark := false, tail := none, late := false
                          fin := .fault ⟨14, 0x3F, v.ctx.pc, some u.toNat⟩, at' := s.mt }] } }))))

/-- R240, R243, R245, R260: an uncorrectable error is counted, recorded and the instruction restarts once; an engine
declared failed leaves service with its record; a pace window updates EPACE; an engine cleared in EMASK leaves service
once idle. Where the rules leave it open, the statement follows the model's choices (log entry 68). -/
def Obligations.Engines : Prop :=
  ∀ s : State,
    let d := s.core.dev
    (∀ (ch : Chan) (v : Service), (d.chn.at ch).prog.svc = some v → canRun v = true → v.retried = false →
      (∀ r ∈ v.staged, r.late = false ∧ r.tail = none) →
      (d.hlm.eng.at v.eng).errs = [] →
      Brings (.eccUncorr ch) s (fun d' =>
        d'.hlm.eccUnc = min 65535 (d.hlm.eccUnc + 1) ∧ d'.hlm.abncnt = min 4294967295 (d.hlm.abncnt + 1) ∧
        (d'.hlm.eng.at v.eng).errs = [s.mt] ∧ (d'.evc.src.at 249).rcnt = (d.evc.src.at 249).rcnt + 1 ∧
        d'.chn.at ch = { d.chn.at ch with prog := { (d.chn.at ch).prog with svc := some { v with retried := true } } } ∧
        otherChans ch d d')) ∧
    (∀ n : EngineNo, (d.hlm.eng.at n).fail = false → engineChans n d = [] →
      Changes (.engineFail n) s (fun d => raise 5 249 0x04 0x10 n.val s.mt { d with
        hlm := { d.hlm with eng := d.hlm.eng.upd n (fun e => { e with fail := true, insvc := false }) } })) ∧
    (∀ n : EngineNo, (d.hlm.eng.at n).fail = true → Idles (.engineFail n) s) ∧
    (∀ (n : EngineNo) (k : BitVec 16), k.toNat ≤ 10400 → d.thm.stage ≠ 4 →
      Changes (.paceWindow n k) s (fun d => { d with hlm := { d.hlm with eng := d.hlm.eng.upd n (fun e => { e with
        epace := k.toNat, emax := max e.emax k.toNat, wins := (k.toNat :: e.wins).take 16, meas := e.meas + 1 }) } })) ∧
    (∀ n : EngineNo, d.hlm.emask.getLsbD n.val = false → engineChans n d = [] →
      Changes (.engineLeaveService n) s (fun d => { d with hlm := { d.hlm with
        eng := d.hlm.eng.upd n (fun e => { e with insvc := false }) } })) ∧
    (∀ n : EngineNo, d.hlm.emask.getLsbD n.val = true ∨ engineChans n d ≠ [] → Idles (.engineLeaveService n) s)

/-! ## Lookouts and the sounding converter -/

/-- R310, R311, R315, R317: an input that moves sets the raw output of an enabled lookout at its threshold with
hysteresis; a clear is attempted at the next boundary; EN written either way leaves the latch, the output and the
samples tripped, and no other written value takes effect with it. Where the rules leave it open, the statement follows the
model's choices (log entries 23, 67 and 80). -/
def Obligations.Lookouts : Prop :=
  ∀ (s : State) (k : LkNo),
    let l := s.core.dev.lko.at k
    (∀ uv : Int, l.cfgE.getLsbD 0 = true → s.core.dev.pwr.ana = .on → l.cfgE.getLsbD 7 = false → l.cfgE.getLsbD 1 = false →
      Changes (.lookoutInputCrossing k uv) s (fun d => d.lkoUpd k (fun l => { l with
        uv := uv
        raw := if (1600 * fld l.dacE 9 0 : Nat) < uv then true
          else if uv < (1600 * fld l.dacE 9 0 : Nat) - ((match fld l.cfgE 3 2 with | 0 => 0 | 1 => 10 | 2 => 20 | _ => 40) * 1000 : Nat)
          then false else l.raw }))) ∧
    (∀ uv : Int, l.cfgE.getLsbD 0 = false →
      Changes (.lookoutInputCrossing k uv) s (fun d => d.lkoUpd k (fun l => { l with uv := uv }))) ∧
    Changes (.lookoutClear k) s (fun d => d.lkoUpd k (fun l => { l with clrHost := true })) ∧
    (∀ m : Word, Brings (.clrm m) s (fun d => (∀ j : LkNo, d.lko.at j = { s.core.dev.lko.at j with
      clrHost := (s.core.dev.lko.at j).clrHost || m.getLsbD j.val }) ∧ d.evc = s.core.dev.evc)) ∧
    (l.cfgE.getLsbD 0 = false →
      Changes (.lookoutEnable k) s (fun d => d.lkoUpd k (fun l => { l with
        cfg := l.cfg ||| 1, cfgE := l.cfgE ||| 1, latch := true, fout := true, raw := true
        samples := List.replicate 7 true }))) ∧
    (l.cfgE.getLsbD 0 = true →
      Changes (.lookoutDisable k) s (fun d => d.lkoUpd k (fun l => { l with
        cfg := l.cfg &&& 0xFFFF_FFFE, cfgE := l.cfgE &&& 0xFFFF_FFFE, latch := true, fout := true, raw := true
        samples := List.replicate 7 true }))) ∧
    (l.cfgE.getLsbD 0 = true →
      Changes (.lookoutEnable k) s (fun d => d.lkoUpd k (fun l => { l with cfg := l.cfg ||| 1, cfgE := l.cfgE ||| 1 }))) ∧
    (l.cfgE.getLsbD 0 = false →
      Changes (.lookoutDisable k) s (fun d => d.lkoUpd k (fun l => { l with
        cfg := l.cfg &&& 0xFFFF_FFFE, cfgE := l.cfgE &&& 0xFFFF_FFFE })))

/-- R322, R323, R326, R329: a host request waits, is started by the idle converter, and completes 500 ns later into RES
and its input's register; a sample that waited 1 ms for its window is skipped; a FIFO read returns and pops the head.
Where the rules leave it open, the statement follows the model's choices (log entries 22 to 24). -/
def Obligations.Sounding : Prop :=
  ∀ s : State,
    let d := s.core.dev
    (∀ m : BitVec 7, Changes (.hostConversion m) s (fun d => { d with
      snd := { d.snd with reqMux := m, reqGo := true, reqDone := false } })) ∧
    (d.snd.ctl.getLsbD 0 = true → d.snd.conv = none → d.pwr.ana = .on → d.snd.reqGo = true →
      (d.snd.reqMux.toNat < 32 ∨ 64 ≤ d.snd.reqMux.toNat) →
      Changes .conversionStart s (fun d => { d with snd := { d.snd with
        reqGo := false, conv := some ⟨d.snd.reqMux.toNat, s.mt, true, false, none⟩ } })) ∧
    (d.snd.ctl.getLsbD 0 = false → Idles .conversionStart s) ∧
    (∀ (v : BitVec 12) (c : AdcConv), d.snd.conv = some c → c.host = true → c.e = none → c.mux < 80 → c.hold + 4000 ≤ s.mt →
      d.snd.ctl.getLsbD 3 = false → d.snd.reqGo = false →
      Changes (.conversionComplete v) s (fun d => { d with snd := { d.snd with
        conv := none, data := d.snd.data.put (Fin.ofNat 80 c.mux) (some v.toNat), resVal := v.toNat, resMux := c.mux
        reqDone := true } })) ∧
    (∀ (v : BitVec 12) (c : AdcConv), d.snd.conv = some c → s.mt < c.hold + 4000 → Idles (.conversionComplete v) s) ∧
    (∀ t : Nat, d.snd.waitAt = some t → t + 8000000 ≤ s.mt → d.snd.endNext = true →
      (d.snd.bgen.at (Fin.ofNat 3 (d.snd.pos / 32))).getLsbD (d.snd.pos % 32) = true →
      Changes .sampleSkip s (fun d => { d with snd := { d.snd with
        skip := min 255 (d.snd.skip + 1), pos := (d.snd.pos + 1) % 80, endNext := false, waitAt := none } })) ∧
    (d.snd.waitAt = none → Idles .sampleSkip s) ∧
    (∀ (v m : Nat) (l : List (Nat × Nat)), d.snd.fifo = (v, m) :: l →
      Changes .sndFifoRead s (fun d => { d with
        snd := { d.snd with fifo := l }
        hps := { d.hps with dout := BitVec.ofNat 32 (2147483648 + 65536 * (m % 128) + v % 4096) } })) ∧
    (d.snd.fifo = [] → Changes .sndFifoRead s (fun d => { d with hps := { d.hps with dout := 0 } }))

/-! ## Clove engines -/

/-- R261, R266, R271 to R274, R277: enable, disable, swap requests, the data ports and the flags of a clove engine, with
no output mapped; a TIMER line reads the clock, so its expiry changes no other state. Where the rules leave it open, the
statement follows the model's choices (log entries 42 and 43). -/
def Obligations.CloveControl : Prop :=
  ∀ (s : State) (n : CloveNo),
    let c := s.core.dev.clv.at n
    ((∀ k, c.mapped k = none) → c.en = false →
      Changes (.cloveEnable n) s (fun d => d.clvUpd n (fun c => { c with
        en := true, run := true, fault := false, st := 0, ent := s.mt, sr := 0, scnt := 0, stmpV := false, tx := [], rx := []
        forced := false, out := BitVec.ofNat 8 (if c.bank then fld c.init 15 8 else fld c.init 7 0) }))) ∧
    (c.en = true → Idles (.cloveEnable n) s) ∧
    (c.run = false → Changes (.forceSwap n) s (fun d => d.clvUpd n (fun c => { c with flagsW := c.flagsW ||| 1 }))) ∧
    Changes (.cloveDisable n) s (fun d => d.clvUpd n (fun c => { c with
      en := false, run := false, pend := false, forced := false })) ∧
    Changes (.swap n) s (fun d => d.clvUpd n (fun c => { c with pend := true })) ∧
    Changes (.cloveCancel n) s (fun d => d.clvUpd n (fun c => { c with pend := false })) ∧
    ((∀ k, c.mapped k = none) → c.run = true → c.cfg.getLsbD 21 = false →
      Changes (.forceSwap n) s (fun d => d.clvUpd n (fun c => { c with
        shifted := c.scnt, sr := 0, scnt := 0, forced := true, bank := !c.bank, pend := false, st := 0, ent := s.mt
        out := BitVec.ofNat 8 (if c.bank then fld c.init 7 0 else fld c.init 15 8) }))) ∧
    (∀ (w : Word) (t : Nat) (l : List (Word × Nat)), c.rx = (w, t) :: l → s.core.dev.turn.post.getLsbD n.val = false →
      Changes (.rxdRead n) s (fun d => { d.clvUpd n (fun c => { c with
          rxd := w, rxt := t, rx := if c.cfg.getLsbD 16 then (w, t) :: l else l }) with
        hps := { d.hps with dout := w } })) ∧
    (∀ v : Word, c.tx.length < 4 →
      Changes (.txdWrite n v) s (fun d => d.clvUpd n (fun c => { c with tx := c.tx ++ [v] }))) ∧
    (∀ v : Word, 4 ≤ c.tx.length →
      Changes (.txdWrite n v) s (fun d => d.clvUpd n (fun c => { c with flagsW := c.flagsW ||| 5 }))) ∧
    (∀ m : Byte, Changes (.flagSet n m) s (fun d => d.clvUpd n (fun c => { c with flag := c.flag ||| m })) ∧
      Changes (.flagClear n m) s (fun d => d.clvUpd n (fun c => { c with flag := c.flag &&& ~~~ m }))) ∧
    (∀ k : Fin 2, Idles (.cloveTimer n k) s) ∧
    (∀ k : Fin 8, fld (c.line.at k) 2 0 = 4 → fld (c.line.at k) 15 8 < 2 →
      (lineValue n k.val s.mt s.core.dev = true ↔
        c.ent + 32 * fld (c.timE.at (Fin.ofNat 2 (fld (c.line.at k) 15 8))) 23 0 ≤ s.mt))

namespace Sys2Proof.Machine

/-- R270: clove engine `n` has not acted at this boundary. -/
def acts (n : CloveNo) (s : State) : Prop := s.core.dev.turn.clv.getLsbD n.val = false

/-- R270: clove engine `n` has acted at this boundary. -/
def acted (n : CloveNo) (d : Device) : Device :=
  { d with turn := { d.turn with clv := d.turn.clv ||| BitVec.ofNat 32 (2 ^ n.val) } }

end Sys2Proof.Machine

/-- R263, R265, R267 to R270, R275: a running engine performs the transition word that its lines select: OUT, the shift
of its input into SR, NEXT and the entry time; a word that faults stops it with FAULT and its record; it acts once at a boundary. Where the rules
leave it open, the statement follows the model's choices (log entry 42). -/
def Obligations.CloveSteps : Prop :=
  ∀ (s : State) (n : CloveNo),
    let c := s.core.dev.clv.at n
    let st := c.st.toNat
    let lead := s.core.ram.clvWord n c.bank (4 * st)
    let j := transIndex (fld lead 30 29) (fld lead 28 26) (fun k => lineValue n k s.mt s.core.dev)
    let w := s.core.ram.clvWord n c.bank (4 * st + j)
    let partner := s.core.ram.clvWord n c.bank (4 * (fld w 5 0 - 1))
    (c.run = false ∨ s.core.dev.turn.clv.getLsbD n.val = true → Idles (.cloveStep n) s) ∧
    (c.run = true → acts n s → c.forced = false → c.pend = false → (∀ k, c.mapped k = none) → fld w 18 16 = 0 → fld w 15 14 ≤ 1 →
      wordFaults st lead w partner = false →
      Changes (.cloveStep n) s (fun d =>
        let inp := lineValue n (fld c.cfg 2 0) s.mt d
        (acted n d).clvUpd n (fun c => { c with
          out := BitVec.ofNat 8 (fld w 13 6)
          sr := if fld w 15 14 = 1 then (c.sr <<< 1) ||| (if inp then 1 else 0) else c.sr
          scnt := if fld w 15 14 = 1 then min 63 (c.scnt + 1) else c.scnt
          st := BitVec.ofNat 6 (fld w 5 0), ent := if BitVec.ofNat 6 (fld w 5 0) = c.st then c.ent else s.mt }))) ∧
    (c.run = true → acts n s → c.forced = false → wordFaults st lead w partner = true →
      Changes (.cloveStep n) s (fun d => raise 4 (224 + n.val / 2) 0x04 0x10 (st * 2 + n.val % 2) s.mt
        ((acted n d).clvUpd n (fun c => { c with run := false, fault := true })))) ∧
    (c.run = true → acts n s → c.forced = true →
      Changes (.cloveStep n) s (fun d => (acted n d).clvUpd n (fun c => { c with forced := false })))

/-! ## Links -/

namespace Sys2Proof.Machine

/-- R292: link `l` has entered LOST with cause `k` at `t`: its record is raised, and it is silent. -/
def lostWith (l : LinkNo) (k : Nat) (s : State) (d : Device) : Prop :=
  (d.glk.at l).st = .lost ∧ (d.glk.at l).lcause = k ∧ (d.glk.at l).quiet = some (s.mt + 81920) ∧ (d.glw.at l).frame = [] ∧
  (d.evc.src.at (Fin.ofNat 256 (128 + l.val))).rcnt = (s.core.dev.evc.src.at (Fin.ofNat 256 (128 + l.val))).rcnt + 2

/-- R282, R292: link `l` has entered TRAIN with the next link epoch. -/
def trains (l : LinkNo) (s : State) (d : Device) : Prop :=
  (d.glk.at l).st = .train ∧ (d.glk.at l).lep = (s.core.dev.glk.at l).lep + 1 ∧ (d.glk.at l).quiet = none ∧
  (d.glw.at l).trainAt = s.mt ∧ (d.glw.at l).syncs = []

end Sys2Proof.Machine

/-- R284, R292, R303, R309: the states of a link: enable, disable, RETRAIN, the end of the quiet period, the training
timeout, the retries of a keyed message, and bad frames, the third of which in a row loses a link that is UP. Where the
rules leave it open, the statement follows the model's choices (log entry 44). -/
def Obligations.LinkStates : Prop :=
  ∀ (s : State) (l : LinkNo),
    let d := s.core.dev
    let x := d.glk.at l
    (x.en = false → d.pwr.link = .on → Brings (.linkEnable l) s (fun d' => trains l s d' ∧ (d'.glk.at l).en = true)) ∧
    (x.en = true → Idles (.linkEnable l) s) ∧
    (x.en = true → Brings (.linkDisable l) s (fun d' =>
      (d'.glk.at l).st = .off ∧ (d'.glk.at l).en = false ∧ (d'.glw.at l).frame = [] ∧
      (∀ m, m ≠ l → d'.glk.at m = d.glk.at m))) ∧
    (x.st = .up ∨ x.st = .align ∨ x.st = .train → Brings (.retrain l) s (lostWith l 3 s)) ∧
    (x.st = .off → Idles (.retrain l) s) ∧
    (∀ t, x.st = .lost → x.quiet = some t → t ≤ s.mt → x.autore = true → Brings (.quietPeriodEnd l) s (trains l s)) ∧
    (∀ t, x.quiet = some t → s.mt < t → Idles (.quietPeriodEnd l) s) ∧
    (x.st = .train → (d.glw.at l).tmoDone = false → (d.glw.at l).trainAt + 8000000 ≤ s.mt →
      Changes (.trainTmo l) s (fun d => raise 4 (128 + l.val) 0x04 0x12 0 s.mt
        (d.glwUpd l (fun w => { w with tmoDone := true })))) ∧
    (∀ (m : KeyedMsg) (f : Nat), x.kmsg = some m → m.sent = some f → m.due = false → (f + 64) * 5120 ≤ s.mt →
      (x.ktry < 3 → Changes (.configRetry l) s (fun d => d.glkUpd l (fun x => { x with
        ktry := x.ktry + 1, kmsg := some { m with due := true } }))) ∧
      (3 ≤ x.ktry → Changes (.configRetry l) s (fun d => raise 4 (128 + l.val) 0x04 0x15 m.seq.toNat s.mt
        (d.glkUpd l (fun x => { x with kmsg := none }))))) ∧
    (x.st = .up → (d.glw.at l).badRun < 2 →
      Changes (.upstreamBadFrame l .crc) s (fun d =>
        (d.glkUpd l (fun x => { x with err := x.err.put 0 (min 255 (x.err.at 0 + 1)) })).glwUpd l (fun w =>
          { w with syncs := [], badRun := w.badRun + 1 }))) ∧
    (x.st = .up → 2 ≤ (d.glw.at l).badRun → Brings (.upstreamBadFrame l .missing) s (lostWith l 1 s)) ∧
    (x.st = .up → Brings (.upstreamBadFrame l .epoch) s (lostWith l 4 s))

/-- R278, R280 to R283, R285, R292, R294, R299, R300: the frame that starts at this boundary: a SYNC frame in TRAIN, in ALIGN
an ECHO every fourth frame, in UP a SAFE frame where a slot became safe; every frame has its header byte 0xBC, kind and
link epoch, 16 bytes, and its CRC, and goes out as code groups, K28.5 first, a transmission after silence at negative running
disparity; no frame starts elsewhere or on a link that is OFF. Where the rules leave it open, the statement follows the
model's choices (log entries 44 and 79). -/
def Obligations.FrameTransmission : Prop :=
  ∀ (s : State) (l : LinkNo),
    let d := s.core.dev
    let x := d.glk.at l
    let w := d.glw.at l
    let f := s.mt / 5120
    (s.mt % 5120 = 0 → w.nextF ≤ f → d.pwr.link = .on →
      (x.st = .train → Changes (.frameTransmit l) s (fun d => d.glwUpd l (fun w =>
        w.transmit (frameOf x 4 f (padPay (x.lep :: bytesBE 4 f))) f))) ∧
      (x.st = .align → f % 4 = 0 → Changes (.frameTransmit l) s (fun d => d.glwUpd l (fun w =>
        { w.transmit (frameOf x 2 f (padPay [BitVec.ofNat 8 f])) f with lastEcho := f, awaiting := w.awaiting ++ [f] }))) ∧
      (x.st = .up → w.safeDue ≠ 0 → Changes (.frameTransmit l) s (fun d => d.glwUpd l (fun w =>
        { w.transmit (frameOf x 1 f (padPay [w.safeDue])) f with safeDue := 0 })))) ∧
    (∀ b : List Byte, w.transmit b f = { w with
      frame := b, nextF := f + 1, line := (w.transmit b f).line, rd := (w.transmit b f).rd } ∧
      (w.transmit b f).line.length = b.tail.length + 1 ∧
      (w.transmit b f).line.head? = some (if w.rd = true ∧ w.frame ≠ [] then 0b1100000101 else 0b0011111010)) ∧
    (s.mt % 5120 ≠ 0 ∨ f < w.nextF ∨ x.st = .off → Idles (.frameTransmit l) s) ∧
    (∀ (k : Nat) (p : List Byte), p.length = 12 → k < 8 →
      (frameOf x k f p).length = 16 ∧ (frameOf x k f p).head? = some 0xBC ∧
      ((frameOf x k f p).drop 2).take 12 = p ∧
      (∃ h : Byte, ((frameOf x k f p).drop 1).head? = some h ∧ fld h 7 5 = k ∧ fld h 4 2 = f % 8 ∧
        fld h 1 0 = fld x.lep 1 0))

/-- R289 to R291, R294 to R296, R301, R302, R305: the good upstream frames of a link: STATUS, CAPT, FIX, ECHO and USER
on one that is UP, and SYNC in TRAIN. Where the rules leave it open, the statement follows the model's choices (log
entry 44). -/
def Obligations.UpstreamFrames : Prop :=
  ∀ (s : State) (l : LinkNo) (h : Byte) (p : Tab Byte 12) (a : DWord) (g : Nat),
    let d := s.core.dev
    let x := d.glk.at l
    fld h 1 0 = fld x.lep 1 0 →
    (x.st = .up → pairedFrame x a.toNat = some g →
      (fld h 7 5 = 0 →
        Brings (.upstreamStatus l h p a) s (fun d' => (d'.glk.at l).kack = p.at 1 ∧ (d'.glk.at l).st = .up ∧
          (d'.glk.at l).epflag = x.epflag ||| BitVec.ofNat 5 (p.at 0).toNat ∧
          (d'.glk.at l).epst.at 1 = (p.at 4) ++ (p.at 5) ++ (p.at 6) ++ (p.at 7) ∧ (d'.glw.at l).badRun = 0)) ∧
      (∀ t : Nat, fld h 7 5 = 1 → (p.at 0).getLsbD 3 = true → (p.at 3).getLsbD 3 = false → (p.at 6).getLsbD 3 = false →
        (p.at 9).getLsbD 3 = false →
        stampTime x a.toNat (fld (p.at 0) 2 0) (256 * (p.at 1).toNat + (p.at 2).toNat) = some t →
        let c := slotChan l (Fin.ofNat 8 (fld (p.at 0) 7 5))
        (d.chn.at c).cfg.en = true → (d.chn.at c).cfg.mode = 14 → (d.chn.at c).pin.cap.length < 16 →
        Brings (.upstreamCapt l h p a) s (fun d' =>
          (d'.chn.at c).pin.prevSel = some t ∧ (d'.chn.at c).pin.cap.length = (d.chn.at c).pin.cap.length + 1 ∧
          (∃ k, (d'.chn.at c).pin.cap.getLast? = some k ∧ k.stamp = t ∧ k.edge = (p.at 0).getLsbD 4) ∧ otherChans c d d')) ∧
      (∀ (t : Nat) (ax : Axis), fld h 7 5 = 2 → (p.at 0).getLsbD 3 = true →
        stampTime x a.toNat (fld (p.at 0) 2 0) (256 * (p.at 1).toNat + (p.at 2).toNat) = some t →
        (fins 64).filter (fun b => (d.axs.at b).reg.en && (d.axs.at b).reg.src == 3 &&
          (d.axs.at b).reg.srcidx == 8 * l.val + fld (p.at 0) 7 5) = [ax] → d.dr.q = [] → t ≤ s.mt + 4294967296 →
        Brings (.upstreamFix l h p a) s (fun d' =>
          d'.dr.q = [⟨ax, (p.at 3 ++ p.at 4 ++ p.at 5 ++ p.at 6 ++ p.at 7 ++ p.at 8).toInt, t, s.mt, 0, false⟩] ∧
          d'.axs = d.axs ∧ d'.chn = d.chn)) ∧
      (fld h 7 5 = 3 → (p.at 0).toNat = g % 256 → g ∈ (d.glw.at l).awaiting →
        (x.echoM ((a.toNat : Int) - g * 5120) - x.dq).natAbs ≤ 16 * x.echoWin →
        Brings (.upstreamEcho l h p a) s (fun d' => (d'.glk.at l).rtt = (a.toNat : Int) - g * 5120 ∧
          (d'.glk.at l).dq = fitS 24 (x.dq + (x.echoM ((a.toNat : Int) - g * 5120) - x.dq) / 8) ∧
          (d'.glw.at l).rejRun = 0 ∧ g ∉ (d'.glw.at l).awaiting ∧ (d'.glk.at l).st = .up)) ∧
      (fld h 7 5 = 5 → s.core.ram.wf →
        ∃ t, exec (.upstreamUser l h p a) s = .next t ∧ (t.core.dev.glk.at l).rxIdx = (x.rxIdx + 1) % 64 ∧
          (x.rxIdx < 64 → t.core.ram.lbufRead 4 (l.val * 2048 + 1024 + 16 * x.rxIdx + 12) = a.toNat % 4294967296 ∧
            t.core.ram.lbufRead 4 (l.val * 2048 + 1024 + 16 * x.rxIdx) =
              (p.at 0 ++ p.at 1 ++ p.at 2 ++ p.at 3 : Word).toNat) ∧
          t.core.ram.bank = s.core.ram.bank ∧ t.core.ram.alm = s.core.ram.alm ∧ t.core.dev.chn = d.chn)) ∧
    (x.st = .train → fld h 7 5 = 4 → (p.at 7) = x.lep → (d.glw.at l).syncs = [] →
      6400 ≤ 256 * (p.at 8).toNat + (p.at 9).toNat → 256 * (p.at 8).toNat + (p.at 9).toNat ≤ 40960 →
      Brings (.upstreamSync l h p a) s (fun d' =>
        (d'.glw.at l).syncs = [⟨a.toNat, BitVec.ofNat 3 (fld h 4 2), 256 * (p.at 8).toNat + (p.at 9).toNat⟩] ∧
        (d'.glk.at l).turn = 256 * (p.at 8).toNat + (p.at 9).toNat ∧ (d'.glk.at l).st = .train ∧
        (d'.glk.at l).epid = (p.at 2 ++ p.at 3 ++ p.at 0 ++ p.at 1 : Word)))

/-! ## Transfers -/

namespace Sys2Proof.Machine

/-- Command `i` takes effect in `s`, and `p` holds of the memories and blocks after it; time and queue stay. -/
def BringsAll (i : Instr) (s : State) (p : Core → Prop) : Prop := ∃ c, exec i s = .next { s with core := c } ∧ p c

/-- Every transfer channel but `n` is as it was. -/
def otherXfers (n : XcNo) (d d' : Device) : Prop := ∀ o, o ≠ n → d'.xfr.ch.at o = d.xfr.ch.at o

/-- Every data bank is on, and no change of its state is requested. -/
def banksReady (d : Device) : Prop := ∀ b : BankNo, (d.mem.bank.at b).st = .on ∧ (d.mem.bank.at b).pend = false

/-- The number of causes that source `k` has counted. -/
def causes (k : Nat) (d : Device) : BitVec 16 := (d.evc.src.at (Fin.ofNat 256 k)).rcnt

end Sys2Proof.Machine

/-- R348, R350, R351, R353, R355: GO starts an IDLE channel and is refused with REF in any other; ABORT stops one that
is not IDLE, and its completion frees it with the residue of its MOVE; RESUME retries an ASLEEP channel, AUTORESUME once
its bank is on; the bell is remembered; a kick counts up to 255 unless the channel is IDLE, and is counted as dropped
then. Where the rules leave it open, the statement follows the model's choices (log entries 45 to 47). -/
def Obligations.TransferControl : Prop :=
  ∀ (s : State) (n : XcNo),
    let x := s.core.dev.xfr.ch.at n
    (x.st = .idle → Changes (.xfrGo n) s (fun d => d.xcUpd n (fun x => { x with
      lc := Tab.all 0, kcnt := 0, bell := false, start := true, cur := none }))) ∧
    (x.st ≠ .idle → Changes (.xfrGo n) s (fun d => d.xcUpd n (fun x => { x with ref := true }))) ∧
    (x.st = .idle → Idles (.xfrAbort n) s) ∧
    (x.st ≠ .idle → Changes (.xfrAbort n) s (fun d => d.xcUpd n (fun x => { x with st := .abort }))) ∧
    (x.st ≠ .abort → Idles (.abortComplete n) s) ∧
    (x.st = .abort → bitOf x.cfg 9 = false →
      Brings (.abortComplete n) s (fun d =>
        let y := d.xfr.ch.at n
        y.st = .idle ∧ y.cur = none ∧ y.pc = x.pc ∧ (∀ u, d.xfr.plane.at u ≠ some n) ∧
        (∀ q, x.cur = some q → q.op = 1 → y.res = w32 (q.len - q.moved)) ∧ (x.cur = none → y.res = 0) ∧
        otherXfers n s.core.dev d ∧ causes (192 + n.val) d = causes (192 + n.val) s.core.dev + 1)) ∧
    (x.st = .asleep → Changes (.xfrResume n) s (fun d => d.xcUpd n (fun x => { x with st := .run }))) ∧
    (x.st ≠ .asleep → Idles (.xfrResume n) s) ∧
    (x.st = .asleep → x.autoresume = true → (s.core.dev.mem.bank.at (Fin.ofNat 16 x.abank)).st = .on →
      Changes (.xfrAutoresume n) s (fun d => d.xcUpd n (fun x => { x with st := .run }))) ∧
    (x.autoresume = false ∨ (s.core.dev.mem.bank.at (Fin.ofNat 16 x.abank)).st ≠ .on → Idles (.xfrAutoresume n) s) ∧
    Changes (.bell n) s (fun d => d.xcUpd n (fun x => { x with bell := true })) ∧
    (x.st ≠ .idle → x.kcnt < 255 → Changes (.kick n) s (fun d => d.xcUpd n (fun x => { x with kcnt := x.kcnt + 1 }))) ∧
    (x.st = .idle ∨ x.kcnt = 255 →
      Changes (.kick n) s (fun d => d.xcUpd n (fun x => { x with kdrop := min 255 (x.kdrop + 1) })))

/-- R333, R336, R338, R340, R341, R343, R353, R354: a running channel fetches the descriptor at its PC: END, JUMP, one
marked BAD; a burst of a linear MOVE in the banks copies the bytes and nothing else, split where it would touch more than
32 words (256 bytes) of a side, and the last one ends the descriptor; a WAIT ends with its kick or its time; a SIGNAL adds a data signal to a program; a plane unit goes to the
earliest waiting channel; and a channel at END fetches again once its bell rang. Where the rules leave it open, the
statement follows the model's choices (log entries 45, 46 and 48). -/
def Obligations.TransferMoves : Prop :=
  ∀ (s : State) (n : XcNo),
    let x := s.core.dev.xfr.ch.at n
    let a := x.pc.toNat
    let w := fetchWord s.core a
    let inBanks := a % 8 = 0 ∧ a < 0x200000 ∧ banksReady s.core.dev ∧ thold n s.core.dev = false
    let notJustNow (x : Xfer) : Prop := ∀ q, x.cur = some q → q.lastAt ≠ some s.mt
    (x.st ≠ .run ∨ x.cur ≠ none → Idles (.descriptorFetch n) s) ∧
    (x.st = .run → x.cur = none → inBanks → w = 0 →
      Brings (.descriptorFetch n) s (fun d =>
        let y := d.xfr.ch.at n
        y.st = .atend ∧ y.pc = x.pc ∧ y.cur = none ∧ otherXfers n s.core.dev d)) ∧
    (x.st = .run → x.cur = none → inBanks → fld w 63 56 = 6 → fld w 55 32 = 0 → fld w 31 0 % 8 = 0 → fld w 31 0 < 0x200000 →
      Brings (.descriptorFetch n) s (fun d =>
        let y := d.xfr.ch.at n
        y.st = .run ∧ y.pc.toNat = fld w 31 0 ∧ y.cur = none ∧ otherXfers n s.core.dev d)) ∧
    (x.st = .run → x.cur = none → inBanks → fld w 63 56 = 3 → fld w 55 55 = 1 →
      Brings (.descriptorFetch n) s (fun d =>
        let y := d.xfr.ch.at n
        y.st = .run ∧ y.pc = x.pc + 16 ∧ y.cur = none ∧ otherXfers n s.core.dev d)) ∧
    (x.st = .atend → x.bell = true → inBanks → w = 0 →
      Brings (.atendRefetch n) s (fun d =>
        let y := d.xfr.ch.at n
        y.st = .atend ∧ y.pc = x.pc ∧ y.bell = false ∧ otherXfers n s.core.dev d)) ∧
    (x.st ≠ .atend ∨ x.bell = false → Idles (.atendRefetch n) s) ∧
    (x.cur = none ∨ x.st ≠ .run → Idles (.burst n) s) ∧
    (∀ q, x.cur = some q → x.st = .run → thold n s.core.dev = false → banksReady s.core.dev → s.core.ram.wf →
      q.op = 1 → q.plane = 0 → q.pace = false → q.smode = 0 → q.dmode = 0 → q.moved < q.len → q.part = 0 →
      s.core.dev.mem.bytesB = [] →
      let unit := if 28 ≤ n.val then 16 else 8
      let whole := min q.burst (q.len - q.moved)
      let b := q.src x
      let e := q.dst x
      let k := min whole (min (256 - b % unit) (256 - e % unit))
      b + whole ≤ 0x200000 → e + whole ≤ 0x200000 →
      BringsAll (.burst n) s (fun c =>
        let y := c.dev.xfr.ch.at n
        (∀ i, i < k → c.ram.bankRead 1 (e + i) = s.core.ram.bankRead 1 (b + i)) ∧
        (∀ o, o < 0x200000 → o < e ∨ e + k ≤ o → c.ram.bankRead 1 o = s.core.ram.bankRead 1 o) ∧
        c.ram.alm = s.core.ram.alm ∧ c.ram.prog = s.core.ram.prog ∧ c.ram.lbuf = s.core.ram.lbuf ∧
        y.sptr = w32 (b + k) ∧ y.dptr = w32 (e + k) ∧ y.bytes = x.bytes + w32 k ∧ y.st = .run ∧
        (q.moved + k < q.len → y.pc = x.pc ∧ y.cur = some { q with
          moved := q.moved + k, part := whole - k, granted := q.granted && decide (k < whole), lastAt := some s.mt }) ∧
        (q.len ≤ q.moved + k → y.cur = none ∧ y.pc = w32 (a + 8 * q.words.length)) ∧
        otherXfers n s.core.dev c.dev)) ∧
    (x.st = .wkick → 0 < x.kcnt → notJustNow x → Brings (.xfrWaitSatisfied n) s (fun d =>
      let y := d.xfr.ch.at n
      y.st = .run ∧ y.kcnt = x.kcnt - 1 ∧ y.pc = x.pc + 16 ∧ y.cur = none ∧ otherXfers n s.core.dev d)) ∧
    (x.st = .wkick → x.kcnt = 0 → Idles (.xfrWaitSatisfied n) s) ∧
    (x.st = .wtime → x.wtime ≤ s.mt → notJustNow x → Brings (.xfrWaitSatisfied n) s (fun d =>
      let y := d.xfr.ch.at n
      y.st = .run ∧ y.kcnt = x.kcnt ∧ y.pc = x.pc + 16 ∧ y.cur = none ∧ otherXfers n s.core.dev d)) ∧
    (x.st = .wtime → s.mt < x.wtime → Idles (.xfrWaitSatisfied n) s) ∧
    (∀ q, x.cur = some q → q.signal = true → x.st = .run → fld (q.w 0) 49 48 = 0 →
      let h : Chan := Fin.ofNat 512 (fld (q.w 0) 8 0)
      Brings (.signalDelivery n) s (fun d =>
        let y := d.xfr.ch.at n
        (d.chn.at h).prog.dsig = (s.core.dev.chn.at h).prog.dsig + (if (s.core.dev.chn.at h).cfg.bound then 1 else 0) ∧
        y.sigref = (x.sigref || !(s.core.dev.chn.at h).cfg.bound) ∧
        y.st = .run ∧ y.pc = x.pc + 8 ∧ y.cur = none ∧ otherChans h s.core.dev d)) ∧
    (x.cur = none → Idles (.signalDelivery n) s) ∧
    ((∀ m, (s.core.dev.xfr.ch.at m).st ≠ .plane) → Idles .planeUnitGrant s) ∧
    (x.st = .plane → s.core.dev.xfr.plane.at 0 = none →
      (∀ m, m ≠ n → (s.core.dev.xfr.ch.at m).st = .plane → x.arrive < (s.core.dev.xfr.ch.at m).arrive) →
      Brings .planeUnitGrant s (fun d =>
        d.xfr.plane.at 0 = some n ∧ (d.xfr.ch.at n).st = .run ∧ (d.xfr.ch.at n).pc = x.pc))

/-! ## Banks, the mace and the almanac -/

/-- R363, R364, R366, R379: a request that changes REQ or OFFLINE waits for its boundary, REQ 3 is refused with REF; OFF
loses a bank's contents, RETENTION keeps them; waking and powering take a state of their own, and powering ends with
contents undefined; a change is recorded, and waits for the release of a borrowed window. R368 to R377: GO starts the mace
at row 0 of the lowest named bank that is on, and is refused while a run is not idle or when it names no bank; a window
borrows a row for the save buffer and, finished, steps to the next; a cell stuck at either value fails the row under both
March tests and every background, is recorded as the first failing row, and loses the saved word that it cannot hold
(R374); LIVEREP moves a failing row to the free spare; between windows the mace pauses while the thermal stage is above 0;
ABORT waits for a borrowed window, and it and the end of a destructive run leave the engine idle. Where the rules leave it
open, the statement follows the model's choices (log entries 25, 49 and 50). -/
def Obligations.BanksAndMace : Prop :=
  (∀ (s : State) (bk : BankNo) (v : Word),
     let b := s.core.dev.mem.bank.at bk
     let reached (d : Device) : Prop := (d.mem.bank.at bk).pend = false ∧ causes 247 d = causes 247 s.core.dev + 1
     let others (d : Device) : Prop := ∀ o, o ≠ bk → d.mem.bank.at o = s.core.dev.mem.bank.at o
     (fld v 1 0 = b.req.toNat → bitOf v 5 = b.offline →
       Changes (.bankStateRequest bk v) s (fun d => d.bankUpd bk (fun b => { b with autowake := bitOf v 4 }))) ∧
     (fld v 1 0 ≠ b.req.toNat → fld v 1 0 ≠ 3 → bitOf v 5 = false → s.core.dev.evc.en = false →
       Changes (.bankStateRequest bk v) s (fun d => d.bankUpd bk (fun b => { b with
         req := BitVec.ofNat 2 (fld v 1 0), autowake := bitOf v 4, offline := false, pend := true, pendAt := s.mt }))) ∧
     (b.req ≠ 3 → fld v 1 0 = 3 →
       Changes (.bankStateRequest bk v) s (fun d => d.bankUpd bk (fun b => { b with ref := true }))) ∧
     (b.pend = false ∨ s.mt ≤ b.pendAt ∨ (s.core.dev.mem.borrow = true ∧ s.core.dev.mem.mbank = bk.val) →
       Idles (.bankStateChange bk) s) ∧
     (b.pend = true → b.pendAt < s.mt → b.offline = false → s.core.dev.mem.mst = .idle → s.core.dev.mem.borrow = false →
       (b.st = .on → b.req = 2 → BringsAll (.bankStateChange bk) s (fun c =>
         (c.dev.mem.bank.at bk).st = .off ∧ reached c.dev ∧ others c.dev ∧ c.ram = s.core.ram.loseBank bk)) ∧
       (b.st = .on → b.req = 1 → Brings (.bankStateChange bk) s (fun d =>
         (d.mem.bank.at bk).st = .retention ∧ reached d ∧ others d)) ∧
       (b.st = .retention → b.req = 0 →
         Changes (.bankStateChange bk) s (fun d => d.bankUpd bk (fun b => { b with st := .waking }))) ∧
       (b.st = .off → b.req = 0 ∨ b.req = 1 →
         Changes (.bankStateChange bk) s (fun d => d.bankUpd bk (fun b => { b with st := .powering })))) ∧
     (b.st = .waking → b.offline = false → b.req = 0 → b.pend = true → Brings (.bankPowerComplete bk) s (fun d =>
       (d.mem.bank.at bk).st = .on ∧ reached d ∧ others d)) ∧
     (b.st = .powering → b.offline = false → b.req = 0 → b.pend = true → BringsAll (.bankPowerComplete bk) s (fun c =>
       (c.dev.mem.bank.at bk).st = .on ∧ reached c.dev ∧ others c.dev ∧ c.ram = s.core.ram.loseBank bk)) ∧
     (b.st ≠ .waking → b.st ≠ .powering → Idles (.bankPowerComplete bk) s)) ∧
  (∀ (s : State) (v : Word) (k : BankNo),
     let m := s.core.dev.mem
     let b := m.bank.at (Fin.ofNat 16 m.mbank)
     let named (b : BankNo) : Prop := bitOf v (16 + b.val) = true
     (bitOf v 1 = false → m.mst ≠ .idle → Brings (.maceGo v) s (fun d =>
       d.mem.mst = m.mst ∧ d.mem.merr = true ∧ d.mem.bank = m.bank ∧ causes 247 d = causes 247 s.core.dev + 1)) ∧
     (bitOf v 1 = false → m.mst = .idle → (∀ b, ¬ named b) → Brings (.maceGo v) s (fun d =>
       d.mem.mst = .idle ∧ d.mem.merr = true ∧ d.mem.bank = m.bank)) ∧
     (bitOf v 1 = false → bitOf v 3 = false → m.mst = .idle → m.borrow = false → named k → (m.bank.at k).st = .on →
       (∀ o, o < k → ¬ named o) →
       Brings (.maceGo v) s (fun d =>
         d.mem.mst = (if s.core.dev.thm.stage = 0 then .run else .paused) ∧ d.mem.mbank = k.val ∧ d.mem.mrow = 0 ∧
         d.mem.destr = false ∧ d.mem.run = d.mem.mctl ∧
         (∀ o, named o → (d.mem.bank.at o).nfail = 0 ∧ (d.mem.bank.at o).valid = false) ∧
         (∀ o, ¬ named o → d.mem.bank.at o = m.bank.at o) ∧ d.evc = s.core.dev.evc)) ∧
     (m.mst = .idle → Idles .maceAbort s) ∧
     (m.mst ≠ .idle → m.borrow = true → Changes .maceAbort s (fun d => { d with mem := { d.mem with stop := true } })) ∧
     (m.mst ≠ .idle → m.borrow = false → Brings .maceAbort s (fun d =>
       d.mem.mst = .idle ∧ d.mem.destr = false ∧ d.mem.bank = m.bank ∧ causes 247 d = causes 247 s.core.dev + 1)) ∧
     let saved := rowWords (Fin.ofNat 16 m.mbank) m.mrow s.core.ram
     let working := m.mst = .run ∧ m.destr = false ∧ m.borrow = true ∧ m.stop = false ∧ m.mrow < 255
     (m.mst ≠ .run ∨ m.destr = true ∨ m.borrow = true ∨ b.pend = true → Idles (.maceWindow .borrow) s) ∧
     (m.mst = .run → m.destr = false → m.borrow = false → b.pend = false →
       Changes (.maceWindow .borrow) s (fun d => { d with mem := { d.mem with borrow := true, cells := saved } })) ∧
     (∀ l g, m.borrow = false → Idles (.maceWindow (.finish l g)) s) ∧
     (∀ g, working →
       Changes (.maceWindow (.finish [] g)) s (fun d => { d with mem := { d.mem with
         borrow := false, cells := saved, mrow := d.mem.mrow + 1
         mst := if s.core.dev.thm.stage = 0 then .run else .paused, tpause := decide (1 ≤ s.core.dev.thm.stage) } })) ∧
     (∀ (g : List CellFault) (w i : Fin 64) (x : Bool), working → bitOf m.run 6 = false → b.nfail = 0 →
       let failed (d : Device) (n : BitVec 16) : Prop :=
         let b' := d.mem.bank.at (Fin.ofNat 16 m.mbank)
         b'.nfail = 1 ∧ b'.frow = m.mrow ∧ b'.spares = b.spares ∧ d.mem.mrow = m.mrow + 1 ∧ d.mem.borrow = false ∧
         causes 247 d = causes 247 s.core.dev + n
       ((saved.at w).getLsbD i.val = x → Brings (.maceWindow (.finish [.stuck w i x] g)) s (fun d => failed d 1)) ∧
       ((saved.at w).getLsbD i.val ≠ x → s.core.ram.wf → BringsAll (.maceWindow (.finish [.stuck w i x] g)) s (fun c =>
         failed c.dev 2 ∧ (c.dev.mem.bank.at (Fin.ofNat 16 m.mbank)).loss = true ∧ c.dev.mem.lrow = m.mrow ∧
         (∀ o, wordOf o ≠ rowWord (Fin.ofNat 16 m.mbank) m.mrow w → c.ram.bankRead 1 o = s.core.ram.bankRead 1 o) ∧
         c.ram.alm = s.core.ram.alm ∧ c.ram.prog = s.core.ram.prog))) ∧
     (∀ (w : Fin 64) (e : DWord), working → bitOf m.run 6 = true → e ≠ 0 → (b.spares.at 0).valid = false →
       (b.spares.at 0).bad = false → Brings (.maceWindow (.finish [.misread 1 0 w e] [])) s (fun d =>
         let p := (d.mem.bank.at (Fin.ofNat 16 m.mbank)).spares.at 0
         p.valid = true ∧ p.row.val = m.mrow ∧ p.fused = false)) ∧
     (m.mst ≠ .run ∨ m.destr = false → Idles (.destructiveRun [] []) s) ∧
     (m.mst = .run → m.destr = true → Brings (.destructiveRun [] []) s (fun d =>
       d.mem.mst = .idle ∧ d.mem.destr = false ∧
       (∀ o : BankNo, bitOf m.run (16 + o.val) = true → (m.bank.at o).intr = false →
         (d.mem.bank.at o).valid = true ∧ (d.mem.bank.at o).nfail = (m.bank.at o).nfail) ∧
       (∀ o : BankNo, bitOf m.run (16 + o.val) = false ∨ (m.bank.at o).intr = true → d.mem.bank.at o = m.bank.at o))) ∧
     (∀ (r : Fin 256) (w i : Fin 64) (x : Bool), m.mst = .run → m.destr = true → bitOf m.run (16 + k.val) = true →
       (m.bank.at k).intr = false → (m.bank.at k).nfail = 0 →
       Brings (.destructiveRun [⟨k, r, .stuck w i x⟩] []) s (fun d =>
         d.mem.mst = .idle ∧ (d.mem.bank.at k).nfail = 1 ∧ (d.mem.bank.at k).frow = r.val ∧ (d.mem.bank.at k).valid = true)))

/-- R226 to R230: GO in IDLE starts CHECK and is refused with REF in any other state; a table that is not defined, a bad
extent or the first entry that fails its checks refuses the switch; when all hold it is pending, in mode NEXT for the
next boundary; at its boundary live and shadow extents change places, the generation goes up and the old extent drains
until no service older than the switch runs; CANCEL, DEF 0 and DEF 1. Where the rules leave it open, the statement
follows the model's choices (log entry 26). -/
def Obligations.AlmanacSwitches : Prop :=
  ∀ (s : State) (n : TableNo) (atmode : BitVec 2) (sw : Axis) (lead : BitVec 11),
    let t := s.core.dev.alm.at n
    let d := s.core.dev
    (t.st = .idle → atmode ≠ 2 → Changes (.switchGo n atmode sw lead) s (fun d => d.tabUpd n (fun t => { t with
      atmode := atmode, swax := sw, lead := lead, st := .check, q := none }))) ∧
    (t.st ≠ .idle → Changes (.switchGo n atmode sw lead) s (fun d => d.tabUpd n (fun t => { t with ref := true }))) ∧
    (t.st ≠ .check → Idles (.checkComplete n) s) ∧
    (∀ code : Nat, t.st = .check →
      (code = 1 ∧ t.defd = false) ∨ (code = 2 ∧ t.defd = true ∧ t.atmode = 3) ∨
        (code = 3 ∧ t.defd = true ∧ t.atmode < 2 ∧ extentFails n d = true) →
      Brings (.checkComplete n) s (fun d' =>
        let t' := d'.alm.at n
        t'.st = .idle ∧ t'.err = true ∧ t'.ecode = code ∧ t'.eidx = t.eidx ∧ t'.lbase = t.lbase ∧ t'.llen = t.llen ∧
        causes 250 d' = causes 250 d + 1)) ∧
    (∀ j : Nat, t.st = .check → t.defd = true → t.atmode < 2 → extentFails n d = false → j < t.slen →
      entryCheck n j s.core ≠ 0 → (∀ i, i < j → entryCheck n i s.core = 0) →
      Brings (.checkComplete n) s (fun d' =>
        let t' := d'.alm.at n
        t'.st = .idle ∧ t'.err = true ∧ t'.ecode = entryCheck n j s.core ∧ t'.eidx = j ∧ t'.lbase = t.lbase ∧
        t'.llen = t.llen)) ∧
    (t.st = .check → t.defd = true → t.atmode < 2 → extentFails n d = false → (∀ j, j < t.slen → entryCheck n j s.core = 0) →
      Brings (.checkComplete n) s (fun d' =>
        let t' := d'.alm.at n
        t'.st = .pend ∧ t'.passAt = s.mt ∧ (t.atmode = 0 → switchShown n d' = s.mt + 32) ∧ t'.swt = t.swt ∧ t'.gen = t.gen ∧ d'.evc = d.evc)) ∧
    (t.st ≠ .pend → Idles (.tableSwitch n) s) ∧
    (t.st = .pend → switchAt n d ≤ s.mt → Changes (.tableSwitch n) s (fun d => d.tabUpd n (fun t => { t with
      lbase := t.sbase, llen := t.slen, sbase := t.lbase, slen := t.llen, gen := t.gen + 1, swt := s.mt
      st := .drain, drain := some (t.lbase, t.llen, s.mt) }))) ∧
    (t.st = .pend → s.mt < switchAt n d → Idles (.tableSwitch n) s) ∧
    (∀ b l u, t.drain = some (b, l, u) → (∀ c v, (d.chn.at c).prog.svc = some v → u ≤ v.view.at') →
      Changes (.drainEnd n) s (fun d => d.tabUpd n (fun t => { t with st := .idle, drain := none }))) ∧
    (∀ b l u c v, t.drain = some (b, l, u) → (d.chn.at c).prog.svc = some v → v.view.at' < u → Idles (.drainEnd n) s) ∧
    (t.drain = none → Idles (.drainEnd n) s) ∧
    (t.st = .check ∨ t.st = .pend →
      Changes (.switchCancel n) s (fun d => d.tabUpd n (fun t => { t with st := .idle }))) ∧
    (t.st = .idle ∨ t.st = .drain → Idles (.switchCancel n) s) ∧
    (t.st ≠ .idle → Changes (.tableUndefine n) s (fun d => d.tabUpd n (fun t => { t with ref := true })) ∧
      Changes (.tableDefine n) s (fun d => d.tabUpd n (fun t => { t with ref := true }))) ∧
    (t.st = .idle → t.defd = true → Changes (.tableUndefine n) s (fun d => d.tabUpd n (fun t => { t with undef := true })) ∧
      Idles (.tableDefine n) s) ∧
    (t.st = .idle → t.defd = false → Idles (.tableUndefine n) s ∧
      Changes (.tableDefine n) s (fun d => d.tabUpd n (fun t => { t with defd := true, llen := 0 })))

/-! ## The event controller -/

/-- R382, R386, R387, R389, R395: a software set joins the queue of an edge source or waits at a level source; DONE
releases the claim of a level source; CLR empties a source and keeps its raise count; a mode write clears the sources
whose mode it changes; a mask write takes the mask and holds the port while records are due, and itself waits behind
earlier accesses; RP moves up to WP and is refused beyond it. Where the rules leave it open, the statement follows the model's choices (log entry 52). -/
def Obligations.EventSources : Prop :=
  ∀ (s : State) (src : SourceNo) (dt : BitVec 16) (k : Fin 8) (v : Word),
    let e := s.core.dev.evc
    let x := e.src.at src
    (e.isLevel src = true → Changes (.softwareSet src dt) s (fun d => d.srcUpd src (fun x => { x with
      soft := some (dt, s.mt), rcnt := x.rcnt + 1 }))) ∧
    (e.isLevel src = false → x.q.length < 4 → (∀ c ∈ x.q, c.at' < s.mt) →
      Changes (.softwareSet src dt) s (fun d => d.srcUpd src (fun x => { x with
        q := x.q ++ [⟨0x11, dt, s.mt, s.mt, 2⟩], rcnt := x.rcnt + 1 }))) ∧
    (e.isLevel src = true → Changes (.evcDone src) s (fun d => d.srcUpd src (fun x => { x with claim := false }))) ∧
    (e.isLevel src = false → Idles (.evcDone src) s) ∧
    Changes (.evcClr src) s (fun d => d.srcUpd src (fun x => { x with
      q := [], drop := 0, ovf := false, claim := false, latch := none, prev := none, soft := none })) ∧
    Brings (.evcMode k v) s (fun d =>
      d.evc.mode = e.mode.put k v ∧ d.evc.mask = e.mask ∧ d.evc.due = e.due ∧
      (∀ o : SourceNo, o.val / 32 = k.val → bitOf (e.mode.at k) (o.val % 32) ≠ bitOf v (o.val % 32) →
        d.evc.src.at o = { e.src.at o with
          q := [], drop := 0, ovf := false, claim := false, latch := none, prev := none, soft := none }) ∧
      (∀ o : SourceNo, o.val / 32 ≠ k.val ∨ bitOf (e.mode.at k) (o.val % 32) = bitOf v (o.val % 32) →
        d.evc.src.at o = e.src.at o)) ∧
    (s.core.dev.hps.q = [] →
      (e.wp = e.rsv → Changes (.evcMask k v) s (fun d => { d with evc := { d.evc with
        mask := d.evc.mask.put k v, maskWait := false } })) ∧
      (e.wp ≠ e.rsv → Changes (.evcMask k v) s (fun d => { d with
        evc := { d.evc with mask := d.evc.mask.put k v, maskWait := true }
        hps := { d.hps with q := [.write (BitVec.ofNat 32 (0x003B_0100 + 4 * k.val)) v] } }))) ∧
    (s.core.dev.hps.q ≠ [] → Changes (.evcMask k v) s (fun d => { d with
      hps := { d.hps with q := d.hps.q ++ [.write (BitVec.ofNat 32 (0x003B_0100 + 4 * k.val)) v] } })) ∧
    ((v - e.rp).toNat ≤ (e.wp - e.rp).toNat → Brings (.evcRp v) s (fun d =>
      d.evc.rp = v ∧ d.evc.rpref = e.rpref ∧ d.evc.evtLow = (e.en && decide (e.wp ≠ v)) ∧
      (e.full = false → d.evc.full = false) ∧ d.evc.wp = e.wp ∧ d.evc.rsv = e.rsv ∧ d.evc.src = e.src)) ∧
    ((e.wp - e.rp).toNat < (v - e.rp).toNat → Changes (.evcRp v) s (fun d => { d with evc := { d.evc with rpref := true } }))

/-- R388, R390 to R393, R396: EN starts an empty ring when size, base and banks allow it, and is refused with CFGREF
when they do not or when size or layout would change while EN is 1; with EN 0, or nothing to record, or once at this
boundary already, nothing is reserved; the one unmasked edge source with an earlier cause gives it the next slot; a full
ring withholds it and sets FULL; the oldest reserved record is written to its slot, its two words and nothing else, and WP
goes up, but for a record of an earlier ring. Where the rules leave it open, the statement follows the model's choices
(log entry 52). -/
def Obligations.EventRing : Prop :=
  ∀ (s : State) (size : BitVec 4) (lay : Bool) (src : SourceNo),
    let e := s.core.dev.evc
    let b := e.rbase.toNat
    let unit := if lay then 128 else 16
    (e.en = false → 6 ≤ size.toNat → size.toNat ≤ 12 → (if lay then b % 16 else b % (16 * 2 ^ size.toNat)) = 0 →
      b + unit * 2 ^ size.toNat ≤ 0x200000 → (∀ k : BankNo, (s.core.dev.mem.bank.at k).st = .on) →
      Brings (.ringEnable size lay) s (fun d =>
        d.evc.en = true ∧ d.evc.size = size ∧ d.evc.layout = lay ∧ d.evc.wp = 0 ∧ d.evc.rp = 0 ∧ d.evc.rsv = 0 ∧
        d.evc.evtLow = false ∧ d.evc.cfgref = e.cfgref ∧ d.evc.src = e.src ∧
        d.evc.due = e.due.map (fun r => { r with stale := true }))) ∧
    (e.en = false → size.toNat < 6 ∨ 12 < size.toNat ∨ 0x200000 < b + unit * 2 ^ size.toNat →
      Changes (.ringEnable size lay) s (fun d => { d with evc := { d.evc with size := size, layout := lay, cfgref := true } })) ∧
    (e.en = true → size ≠ e.size ∨ lay ≠ e.layout →
      Changes (.ringEnable size lay) s (fun d => { d with evc := { d.evc with cfgref := true } })) ∧
    (e.en = true → Changes .ringDisable s (fun d => { d with evc := { d.evc with en := false, evtLow := false } })) ∧
    (e.en = false → Idles .ringDisable s) ∧
    (e.en = false ∨ s.core.dev.turn.rsv = true ∨ (∀ o, e.isMasked o = true) → Brings .recordReservation s (fun d =>
      d.evc.due = e.due ∧ d.evc.rsv = e.rsv ∧ (∀ o, (d.evc.src.at o).q = (e.src.at o).q))) ∧
    (∀ c l, e.en = true → e.isLevel src = false → (e.src.at src).q = c :: l → (e.src.at src).ovf = false →
      e.isMasked src = false → (∀ o, o ≠ src → e.isMasked o = true) → s.core.dev.turn.rsv = false → c.stamp < s.mt →
      (e.ringFull = false → Brings .recordReservation s (fun d =>
        d.evc.due = e.due ++ [⟨e.rsv, src.val, c.kind, c.detail, c.stamp, e.slotAddr e.rsv, false⟩] ∧
        d.turn.rsv = true ∧ d.evc.rsv = e.rsv + 1 ∧
        (d.evc.src.at src).q = l ∧ d.evc.full = false ∧ (∀ o, o ≠ src → (d.evc.src.at o).q = (e.src.at o).q))) ∧
      (e.ringFull = true → e.full = false → src ≠ 248 → Brings .recordReservation s (fun d =>
        d.evc.full = true ∧ d.evc.due = e.due ∧ d.evc.rsv = e.rsv ∧ (d.evc.src.at src).q = c :: l ∧
        causes 248 d = causes 248 s.core.dev + 1))) ∧
    (e.due = [] → Idles .recordWrite s) ∧
    (∀ r l, e.due = r :: l → s.core.ram.wf → s.core.dev.mem.bytesB = [] →
      let a := r.addr
      let wp := if r.stale then e.wp else e.wp + 1
      a + 16 ≤ 0x200000 →
      BringsAll .recordWrite s (fun c =>
        c.ram.bankRead 4 a = r.seq.toNat ∧ c.ram.bankRead 2 (a + 4) = r.detail.toNat ∧
        c.ram.bankRead 1 (a + 6) = r.kind.toNat ∧ c.ram.bankRead 1 (a + 7) = r.source % 256 ∧
        c.ram.bankRead 8 (a + 8) = r.stamp % 18446744073709551616 ∧
        (∀ o, o < 0x200000 → o < a ∨ a + 16 ≤ o → c.ram.bankRead 1 o = s.core.ram.bankRead 1 o) ∧
        c.dev.evc.due = l ∧ c.dev.evc.wp = wp ∧ c.dev.evc.rp = e.rp ∧
        c.dev.evc.evtLow = (e.en && decide (wp ≠ e.rp))))

/-! ## The host port -/

/-- R398 to R404, R407: WRITE posts its words at rising addresses, or drops one with WOVF when sixteen wait; a
misaligned burst, a broken one or an unlisted command byte is a protocol error; READ of a word in a bank that is on sends
the word with status A5, one in a bank that is off sends 5A and sets BERR, and one after a write of the base period waits
with status 00; RDSR; the parallel port's six local registers, written and read; an access held for 20 us is refused. The port that is not strapped, and any port before TEST ends, ignores all of them. Where the
rules leave it open, the statement follows the model's choices (log entries 60 to 65). -/
def Obligations.HostPort : Prop :=
  ∀ (s : State) (a v w : Word) (l : List Word) (why : ProtoError) (hpa : Byte) (lo hi : BitVec 16),
    let d := s.core.dev
    let h := d.hps
    let shows (v : BitVec 16) : Prop := Changes (.pdataHiRead hpa) s (fun d => d.hpsUpd (fun h => { h with hpd := v }))
    (portOn false d = false → Idles (.write a l) s ∧ Idles (.read a 1) s ∧ Idles .rdsr s ∧ Idles (.proto why) s) ∧
    (portOn true d = false → Idles (.paddrHiWrite hi) s ∧ Idles (.pdataLoWrite hpa lo) s ∧ Idles (.pdataHiWrite hi) s ∧
      Idles (.pdataHiRead hpa) s) ∧
    (portOn false d = true → fld a 1 0 = 0 → a.toNat + 8 ≤ 0x3C0000 → h.posted < 15 →
      Changes (.write a [v, w]) s (fun d => d.hpsUpd (fun h => { h with q := h.q ++ [.write a v, .write (a + 4) w] }))) ∧
    (portOn false d = true → fld a 1 0 = 0 → 16 ≤ h.posted → Brings (.write a [v]) s (fun d' =>
      d'.hps = { h with wovf := true } ∧ causes 243 d' = causes 243 d + 1)) ∧
    (portOn false d = true → fld a 1 0 ≠ 0 →
      Brings (.write a l) s (fun d' => d'.hps = { h with proto := true } ∧ causes 243 d' = causes 243 d + 1) ∧
      Brings (.read a 1) s (fun d' => d'.hps = { h with proto := true } ∧ causes 243 d' = causes 243 d + 1)) ∧
    (portOn false d = true → (∀ b : Byte, why = .command b → b ≠ 0x02 ∧ b ≠ 0x0B ∧ b ≠ 0x05) → Brings (.proto why) s (fun d' =>
      d'.hps = { h with proto := true } ∧ causes 243 d' = causes 243 d + 1)) ∧
    Idles (.proto (.command 0x02)) s ∧ Idles (.proto (.command 0x0B)) s ∧ Idles (.proto (.command 0x05)) s ∧
    (portOn false d = true → fld a 1 0 = 0 → d.turn.wrote = true → h.q = [] → Changes (.read a 1) s (fun d =>
      d.hpsUpd (fun h => { h with rdOut := [(0x00, 0)], q := [.read a true] }))) ∧
    (portOn false d = true → fld a 1 0 = 0 → a.toNat < 0x200000 → d.pwr.phase = .ready → d.turn.wrote = false → h.q = [] →
      h.heldAt = none →
      let b := (d.mem.bank.at (bankOf a.toNat)).st
      (b = .on → Brings (.read a 1) s (fun d' =>
        d'.hps = { h with rdOut := [(0xA5, w32 (s.core.ram.bankRead 4 a.toNat))]
                          dout := w32 (s.core.ram.bankRead 4 a.toNat) })) ∧
      (b = .off → h.berr = false → Brings (.read a 1) s (fun d' =>
        d'.hps.rdOut = [(0x5A, 0)] ∧ d'.hps.q = [] ∧ d'.hps.berr = true ∧ d'.hps.berrInfo = 4 ∧ d'.hps.berrAddr = a ∧
        d'.hps.dout = 0 ∧ causes 243 d' = causes 243 d + 1))) ∧
    (portOn false d = true → h.posted ≤ 16 → Brings .rdsr s (fun d' =>
      d'.hps.rdsr.toNat = 16 - h.posted + (if h.berr then 32 else 0) + (if d.key.job.isSome then 64 else 0) +
        (if d.evc.evtLow then 128 else 0) ∧ d' = { d with hps := { h with rdsr := d'.hps.rdsr } })) ∧
    (portOn true d = true →
      (let pa : Word := hi ++ BitVec.ofNat 16 (h.paddr.toNat % 65536)
       Changes (.paddrHiWrite hi) s (fun d => d.hpsUpd (fun h => { h with
        paddr := pa, q := if bitOf h.pctl 1 then h.q ++ [.start pa] else h.q, rdy := h.rdy && !bitOf h.pctl 1 }))) ∧
      (hpa = 0 → Brings (.pdataLoWrite hpa lo) s (fun d' =>
        d'.hps = { h with paddr := d'.hps.paddr } ∧
        d'.hps.paddr.toNat = h.paddr.toNat / 65536 * 65536 + lo.toNat ∧ d' = { d with hps := d'.hps })) ∧
      (hpa = 2 → Changes (.pdataLoWrite hpa lo) s (fun d => d.hpsUpd (fun h => { h with pwlo := lo }))) ∧
      (hpa = 5 → Changes (.pdataLoWrite hpa lo) s (fun d => d.hpsUpd (fun h => { h with
        pctl := BitVec.ofNat 2 (lo.toNat % 4) }))) ∧
      (hpa = 4 ∨ 6 ≤ hpa.toNat → Idles (.pdataLoWrite hpa lo) s) ∧
      (hpa = 0 → shows (BitVec.ofNat 16 (h.paddr.toNat % 65536))) ∧
      (hpa = 1 → shows (BitVec.ofNat 16 (h.paddr.toNat / 65536))) ∧
      (hpa = 2 → shows (if h.rdy then BitVec.ofNat 16 (h.prd.toNat % 65536) else 0)) ∧
      (hpa = 4 → h.posted ≤ 16 → shows (BitVec.ofNat 16 (16 - h.posted + (if h.berr then 32 else 0) +
        (if d.key.job.isSome then 64 else 0) + (if d.evc.evtLow then 128 else 0) + (if h.rdy then 256 else 0) +
        (if h.rerr then 512 else 0)))) ∧
      (hpa = 5 → shows (BitVec.ofNat 16 h.pctl.toNat)) ∧
      (6 ≤ hpa.toNat → shows 0) ∧
      (h.posted < 16 → h.paddr.toNat + 4 ≤ 0x3C0000 → Changes (.pdataHiWrite hi) s (fun d => d.hpsUpd (fun h => { h with
        q := h.q ++ [.write h.paddr (hi ++ h.pwlo)], paddr := if bitOf h.pctl 0 then h.paddr + 4 else h.paddr }))) ∧
      (hpa = 3 → h.rdy = false → shows 0) ∧
      (hpa = 3 → h.rdy = true → h.pctl = 0 → shows (BitVec.ofNat 16 (fld h.prd 31 16))) ∧
      (hpa = 3 → h.rdy = true → h.pctl = 3 → h.paddr.toNat + 4 ≤ 0x3C0000 → Changes (.pdataHiRead hpa) s (fun d => d.hpsUpd (fun h =>
        { h with hpd := BitVec.ofNat 16 (fld h.prd 31 16), paddr := h.paddr + 4, q := h.q ++ [.start (h.paddr + 4)]
                 rdy := false })))) ∧
    ((∀ x r, h.q ≠ .start x :: r) → Idles .parallelReadComplete s) ∧
    (∀ x, h.q = [.start x] → x.toNat % 4 = 0 → x.toNat < 0x200000 → d.pwr.phase = .ready →
      (d.mem.bank.at (bankOf x.toNat)).st = .on → Brings .parallelReadComplete s (fun d' =>
        d'.hps.prd = w32 (s.core.ram.bankRead 4 x.toNat) ∧ d'.hps.rdy = true ∧ d'.hps.rerr = false ∧ d'.hps.q = [])) ∧
    (∀ r t, h.q = .write a v :: r → h.heldAt = some t → d.dbg.acc = none →
      (t + 160000 ≤ s.mt → Brings .accessTimeout s (fun d' =>
        d'.hps.q = r ∧ d'.hps.heldAt = none ∧ d'.hps.berr = true ∧ (h.berr = false → d'.hps.berrInfo = 14) ∧
        causes 243 d' = causes 243 d + 1)) ∧
      (s.mt < t + 160000 → Idles .accessTimeout s))

/-- R405, R406, R408, R472, R474: a word written or read through the port in a bank that is on, by its address or
through the data port, is the word at that address, whose four bytes are all that changes; the data port's pointer rises
by 4; an address where nothing is assigned sets BERR with its cause and word address; an access behind others waits; before
TEST, and without VIO7, the rows do nothing. Where
the rules leave it open, the statement follows the model's choices (log entries 60, 62, 64 and 65). -/
def Obligations.HostAccesses : Prop :=
  ∀ (s : State) (a v : Word) (wr : Option Word),
    let d := s.core.dev
    let h := d.hps
    let onlyWord (a : Nat) (c : Core) : Prop :=
      c.ram.bankRead 4 a = v.toNat ∧
      (∀ o, o < 0x200000 → o < a ∨ a + 4 ≤ o → c.ram.bankRead 1 o = s.core.ram.bankRead 1 o) ∧
      c.ram.alm = s.core.ram.alm ∧ c.ram.prog = s.core.ram.prog ∧ c.ram.lut = s.core.ram.lut ∧ c.ram.lbuf = s.core.ram.lbuf
    let served : Prop := bitOf d.pwr.vioIn 7 = true ∧ h.q = [] ∧ h.heldAt = none ∧ d.evc.maskWait = false
    let fills : Prop := served ∧ d.mem.bytesB = [] ∧ s.core.ram.wf ∧
      (d.pwr.phase = .ready ∨ d.pwr.phase = .load ∧ d.hlm.waithost = true)
    (d.pwr.phase = .pll ∨ d.pwr.phase = .fuse ∨ bitOf d.pwr.vioIn 7 = false →
      Idles (.registerWrite a v) s ∧ Idles (.dataPortAccess wr) s) ∧
    (portUp d = true → h.q ≠ [] → h.posted < 16 →
      Changes (.registerWrite a v) s (fun d => d.hpsUpd (fun h => { h with q := h.q ++ [.write a v] })) ∧
      Changes (.dataPortAccess none) s (fun d => d.hpsUpd (fun h => { h with q := h.q ++ [.read 0x3C0018 false] }))) ∧
    (fills → a.toNat < 0x200000 → (d.mem.bank.at (bankOf a.toNat)).st = .on →
      BringsAll (.registerWrite a v) s (fun c => onlyWord (a.toNat / 4 * 4) c ∧ c.dev.hps = h)) ∧
    (served → d.pwr.phase = .load ∨ d.pwr.phase = .ready → 0x278000 ≤ a.toNat → a.toNat < 0x280000 → h.berr = false →
      Brings (.registerWrite a v) s (fun d' =>
        d'.hps = { h with berr := true, berrInfo := 9, berrAddr := a &&& 0xFFFF_FFFC } ∧ causes 243 d' = causes 243 d + 1)) ∧
    (fills → h.width = false → h.dptr.toNat < 0x200000 → (d.mem.bank.at (bankOf h.dptr.toNat)).st = .on →
      BringsAll (.dataPortAccess (some v)) s (fun c =>
        onlyWord (h.dptr.toNat / 4 * 4) c ∧ c.dev.hps = { h with dptr := h.dptr + 4, half := none })) ∧
    (served → d.pwr.phase = .ready → d.turn.wrote = false → h.width = false → h.dptr.toNat < 0x200000 →
      (d.mem.bank.at (bankOf h.dptr.toNat)).st = .on →
      Brings (.dataPortAccess none) s (fun d' => d'.hps = { h with
        dptr := h.dptr + 4, half := none, dout := w32 (s.core.ram.bankRead 4 (h.dptr.toNat / 4 * 4)) })) ∧
    (served → d.pwr.phase = .load ∨ d.pwr.phase = .ready → 0x278000 ≤ h.dptr.toNat → h.dptr.toNat < 0x280000 → h.berr = false →
      Brings (.dataPortAccess (some v)) s (fun d' =>
        d'.hps = { h with berr := true, berrInfo := 15, berrAddr := 0x3C0018 } ∧ causes 243 d' = causes 243 d + 1))

/-! ## Keyed commands and the debug port -/

namespace Sys2Proof.Machine

/-- The block that a keyed command's row stands for, and whether VAUX lies in the window of R418 (R409). -/
def blockOf (i : Instr) : Option (Block × Bool) :=
  match i with
  | .arm cnt mac => some (Block.make 1 cnt [] mac, true)
  | .disarm cnt mac => some (Block.make 2 cnt [] mac, true)
  | .safecfg cnt mac a0 a1 a2 => some (Block.make 3 cnt [a0, a1, a2] mac, true)
  | .storeload cnt mac a0 => some (Block.make 4 cnt [a0] mac, true)
  | .fuse cnt mac args vaux => some (Block.make 5 cnt args mac, vaux)
  | .dbgopen cnt mac r => some (Block.make 6 cnt
      [w32 (r.toNat >>> 96), w32 (r.toNat >>> 64), w32 (r.toNat >>> 32), w32 r.toNat] mac, true)
  | .linkcfg cnt mac a0 a1 a2 a3 => some (Block.make 7 cnt [a0, a1, a2, a3] mac, true)
  | .keyroll cnt mac a0 => some (Block.make 8 cnt [a0] mac, true)
  | .ctrseed cnt mac => some (Block.make 9 cnt [] mac, true)
  | _ => none

/-- The block passes steps 1 to 6 and its own checks (R411). -/
def accepted (b : Block) (vaux : Bool) (d : Device) : Prop :=
  d.key.job = none ∧ blockCheck b d = 0 ∧ cmdCheck b vaux d = 0

/-- The block ended with `res`: DONE, the result, its OPC, and a record of source 242 (R414). -/
def ended (b : Block) (res : Nat) (d d' : Device) : Prop :=
  d'.key.done = true ∧ d'.key.result = res ∧ d'.key.opc = b.opc ∧ d'.key.job = none ∧ d'.key.buf = b ∧
  causes 242 d + 1 = causes 242 d'

end Sys2Proof.Machine

/-- R409, R411, R412, R414: a block sent while another is in process is refused with CMDREF; one that fails steps 1 to 6
ends with that result and leaves counter, PERMIT and fuses alone, and a bad MAC counts; one that passes takes the
counter's value. R415 to R420, R426, R440: what the nine commands do when accepted; a lockout ends at its time. Where
the rules leave it open, the statement follows the model's choices (log entries 55 and 56). -/
def Obligations.KeyedCommands : Prop :=
  (∀ (s : State) (i : Instr) (b : Block) (ok : Bool), blockOf i = some (b, ok) →
     let d := s.core.dev
     (d.key.job ≠ none → Changes i s (fun d => { d with hps := { d.hps with cmdref := true } })) ∧
     (d.key.job = none → blockCheck b d ≠ 0 → blockCheck b d ≠ 6 → Brings i s (fun d' =>
       ended b (blockCheck b d) d d' ∧ d'.keel = d.keel ∧ d'.pwr = d.pwr ∧ d'.fuses = d.fuses ∧ d'.chn = d.chn ∧
       d'.key.badmac = d.key.badmac ∧ d'.key.lockEnd = d.key.lockEnd ∧ d'.key.nonce = d.key.nonce)) ∧
     (d.key.job = none → blockCheck b d = 6 → Brings i s (fun d' =>
       d'.key.done = true ∧ d'.key.result = 6 ∧ d'.keel = d.keel ∧ d'.pwr = d.pwr ∧ d'.fuses = d.fuses ∧
       d'.key.badmac = min 8 (d.key.badmac + 1) ∧
       (7 ≤ d.key.badmac → d'.key.lockEnd = some (s.mt + 8000000000)) ∧
       (d.key.badmac < 7 → d'.key.lockEnd = d.key.lockEnd))) ∧
     (d.key.job = none → blockCheck b d = 0 → cmdCheck b ok d ≠ 0 → Brings i s (fun d' =>
       ended b (cmdCheck b ok d) d d' ∧ d'.keel.counter = b.cnt ∧ d'.key.badmac = 0 ∧ d'.pwr = d.pwr ∧ d'.fuses = d.fuses ∧
       d'.chn = d.chn))) ∧
  (∀ (s : State) (cnt : DWord) (mac resp : BitVec 128) (a0 a1 a2 a3 : Word),
     let d := s.core.dev
     (d.key.lockEnd.isSome = true → blockCheck (Block.make 1 cnt [] mac) d = 3) ∧
     (d.key.lockEnd = none → d.keel.ctrLost = true → blockCheck (Block.make 1 cnt [] mac) d = 4) ∧
     (d.key.lockEnd = none → d.keel.ctrLost = false → cnt.toNat ≤ d.keel.counter.toNat →
       blockCheck (Block.make 1 cnt [] mac) d = 5) ∧
     (d.key.lockEnd = none → d.keel.ctrLost = false → blockCheck (Block.make 9 cnt [] mac) d = 7) ∧
     (accepted (Block.make 1 cnt [] mac) true d → Brings (.arm cnt mac) s (fun d' =>
       ended (Block.make 1 cnt [] mac) 0 d d' ∧ d'.keel.counter = cnt ∧ d'.pwr.armed = true ∧
       (d.pwr.armed = false → d'.pwr.permit = true ∧ d'.pwr.gate = true) ∧ (d.pwr.armed = true → d'.pwr = d.pwr))) ∧
     (accepted (Block.make 2 cnt [] mac) true d → Brings (.disarm cnt mac) s (fun d' =>
       ended (Block.make 2 cnt [] mac) 0 d d' ∧ d'.keel.counter = cnt ∧
       d'.pwr = { d.pwr with armed := false, permit := false } ∧ d'.chn = d.chn)) ∧
     (accepted (Block.make 3 cnt [a0, a1, a2] mac) true d → bitOf a0 31 = false →
       Brings (.safecfg cnt mac a0 a1 a2) s (fun d' =>
         ended (Block.make 3 cnt [a0, a1, a2] mac) 0 d d' ∧
         (∀ c : Chan, fld a0 8 0 ≤ c.val → c.val < fld a0 8 0 + fld a0 25 16 →
           let w := (d'.chn.at c).cfg.safe
           let o := (d.chn.at c).cfg.safe
           fld w 1 0 = (if bitOf a2 0 then fld a1 1 0 else fld o 1 0) ∧
           fld w 7 4 = (if bitOf a2 1 then fld a1 7 4 else fld o 7 4) ∧
           fld w 8 8 = (if bitOf a2 2 then fld a1 8 8 else fld o 8 8)) ∧
         (∀ c : Chan, c.val < fld a0 8 0 ∨ fld a0 8 0 + fld a0 25 16 ≤ c.val → d'.chn.at c = d.chn.at c))) ∧
     (accepted (Block.make 4 cnt [a0] mac) true d → BringsAll (.storeload cnt mac a0) s (fun c =>
       ended (Block.make 4 cnt [a0] mac) 0 d c.dev ∧ c.ram = { s.core.ram with store := [] } ∧
       c.dev.pwr.armed = false ∧ c.dev.pwr.permit = false ∧ c.dev.pwr.gate = false ∧
       (∀ h, (c.dev.chn.at h).cfg.en = false) ∧ c.dev.hlm.mode = .recovery ∧ c.dev.hlm.loaded = false ∧
       c.dev.hlm.locked = false ∧ c.dev.hlm.reload = true ∧ c.dev.hlm.waithost = decide (fld a0 1 0 = 2))) ∧
     (accepted (Block.make 5 cnt [a0] mac) true d → fld a0 7 0 = 9 → Brings (.fuse cnt mac [a0] true) s (fun d' =>
       ended (Block.make 5 cnt [a0] mac) 0 d d' ∧ d'.fuses = { d.fuses with provC := 7 } ∧ d'.fuses.prov = true)) ∧
     (let b := Block.make 6 cnt [w32 (resp.toNat >>> 96), w32 (resp.toNat >>> 64), w32 (resp.toNat >>> 32), w32 resp.toNat] mac
      accepted b true d → debugResponse d = some (beBytes 16 resp.toNat) → Brings (.dbgopen cnt mac resp) s (fun d' =>
       ended b 0 d d' ∧ d'.dbg.opened = true ∧ d'.dbg.tries = d.dbg.tries)) ∧
     (accepted (Block.make 7 cnt [a0, a1, a2, a3] mac) true d → Brings (.linkcfg cnt mac a0 a1 a2 a3) s (fun d' =>
       let l : LinkNo := Fin.ofNat 32 (fld a0 4 0)
       ended (Block.make 7 cnt [a0, a1, a2, a3] mac) 0 d d' ∧
       (∃ m, (d'.glk.at l).kmsg = some m ∧ (d'.glk.at l).ktry = 0 ∧ (d'.glk.at l).kseq = m.seq ∧ 0x80 ≤ m.seq.toNat) ∧
       (∀ o, o ≠ l → d'.glk.at o = d.glk.at o))) ∧
     (accepted (Block.make 8 cnt [a0] mac) true d → fld a0 1 0 = 0 → Brings (.keyroll cnt mac a0) s (fun d' =>
       ended (Block.make 8 cnt [a0] mac) 0 d d' ∧ d.fuses.ckslot < d'.fuses.ckslot ∧
       d.fuses.slotUsed 1 d'.fuses.ckslot.val = true ∧
       (∀ j : Fin 4, d.fuses.ckslot < j → j < d'.fuses.ckslot → d.fuses.slotUsed 1 j.val = false))) ∧
     (accepted (Block.make 9 cnt [] mac) true d → Brings (.ctrseed cnt mac) s (fun d' =>
       ended (Block.make 9 cnt [] mac) 0 d d' ∧ d'.keel.ctr = Tab.all cnt ∧ d'.keel.ctrLost = false)) ∧
     (∀ t, d.key.lockEnd = some t → t ≤ s.mt →
       Changes .lockoutEnd s (fun d => { d with key := { d.key with lockEnd := none } })) ∧
     (∀ t, d.key.lockEnd = some t → s.mt < t → Idles .lockoutEnd s) ∧
     (d.key.lockEnd = none → Idles .lockoutEnd s))

/-- R424 to R427, R475: IDCODE and BYPASS always take over; CHAL and RESP in CLOSED alone, a right response opens the
port and the eighth wrong one exhausts it; the boundary-scan rows and BUSACC in OPEN and OPENED alone, and are BYPASS
elsewhere; SAMPLE captures the pins; EXTEST disarms the device, takes the timing pins of the powered banks, and records
its entry and its end; BUSACC waits behind a host access; without VIO6 nothing is shifted in. Where the rules leave it
open, the statement follows the model's choices (log entries 63 and 66). -/
def Obligations.DebugPort : Prop :=
  ∀ (s : State) (resp : BitVec 128) (bsr : List Bool) (a v : Word),
    let d := s.core.dev
    let b := d.dbg
    (bitOf d.pwr.vioIn 6 = false →
      Idles .idcode s ∧ Idles .bypass s ∧ Idles .chal s ∧ Idles (.resp resp) s ∧ Idles (.samplePreload bsr) s ∧
      Idles (.extest bsr) s ∧ Idles .extestExit s ∧ Idles (.busacc a v true true) s) ∧
    (bitOf d.pwr.vioIn 6 = true →
    let taken (i : Instr) (ir : Byte) (dr : BitVec 128) : Prop :=
      (b.extest = false → Changes i s (fun d => { d with dbg := { d.dbg with ir := ir, dr := dr } })) ∧
      (b.extest = true → Brings i s (fun d' =>
        d'.dbg = { b with ir := ir, dr := dr, extest := false } ∧ causes 252 d' = causes 252 d + 1 ∧ d'.pwr = d.pwr))
    taken .idcode 0x01 0xB512_0A6B ∧ taken .bypass 0xFF 0 ∧
    (dbgState d = 1 → taken .chal 0x10 (if b.exhausted then 0 else d.key.nonce)) ∧
    (dbgState d ≠ 1 → taken .chal 0xFF 0 ∧ taken (.resp resp) 0xFF 0) ∧
    (dbgState d = 1 → b.exhausted = true → taken (.resp resp) 0x11 resp) ∧
    (dbgState d = 1 → b.exhausted = false → debugResponse d = some (beBytes 16 resp.toNat) → Brings (.resp resp) s (fun d' =>
      d'.dbg.opened = true ∧ d'.dbg.ir = 0x11 ∧ d'.dbg.tries = b.tries ∧ dbgState d' = 2)) ∧
    (dbgState d = 1 → b.exhausted = false → debugResponse d ≠ some (beBytes 16 resp.toNat) → Brings (.resp resp) s (fun d' =>
      d'.dbg.opened = b.opened ∧ d'.dbg.ir = 0x11 ∧ d'.dbg.tries = b.tries + 1 ∧ d'.dbg.exhausted = decide (b.tries = 7))) ∧
    (dbgState d = 1 ∨ dbgState d = 3 →
      taken (.samplePreload bsr) 0xFF 0 ∧ taken (.extest bsr) 0xFF 0 ∧ taken (.busacc a v true true) 0xFF 0) ∧
    (dbgState d = 0 ∨ dbgState d = 2 →
      (b.extest = false → Brings (.samplePreload bsr) s (fun d' =>
        d' = { d with dbg := { b with ir := 2, dr := 0, bsr := bsr, sample := d'.dbg.sample } } ∧
        ∀ p : Fin 256, d'.dbg.sample[p.val]? = some (d.chn.at (Fin.castLE (by decide) p)).pin.ball)) ∧
      (b.extest = false → Brings (.extest bsr) s (fun d' =>
        d'.dbg = { b with ir := 0, bsr := bsr, extest := true } ∧
        d'.pwr = { d.pwr with armed := false, permit := false } ∧ causes 252 d' = causes 252 d + 1 ∧
        (d.pwr.hold = 0 → ∀ p : Fin 256, bitOf d.pwr.vioIn (p.val / 32) = true → tpOut p d' = .scan))) ∧
      (b.extest = true → Changes (.extest bsr) s (fun d => { d with dbg := { d.dbg with ir := 0, bsr := bsr } })) ∧
      (b.extest = false → Changes (.busacc a v true false) s (fun d => { d with dbg := { d.dbg with ir := 0x20 } })) ∧
      (b.extest = false → d.hps.q ≠ [] → 2 ≤ d.pwr.phase.num → Brings (.busacc a v true true) s (fun d' =>
        d'.dbg.ir = 0x20 ∧ d'.dbg.acc = some ⟨a, some v, s.mt⟩ ∧ bitOf d'.dbg.dr 66 = false ∧ d'.hps = d.hps)) ∧
      (d.pwr.phase = .ready → b.extest = false → d.hps.q = [] → a.toNat < 0x200000 → d.mem.bytesB = [] →
        (d.mem.bank.at (bankOf a.toNat)).st = .on → s.core.ram.wf →
        BringsAll (.busacc a v true true) s (fun c =>
          c.ram.bankRead 4 (a.toNat / 4 * 4) = v.toNat ∧
          (∀ o, o < 0x200000 → o < a.toNat / 4 * 4 ∨ a.toNat / 4 * 4 + 4 ≤ o →
            c.ram.bankRead 1 o = s.core.ram.bankRead 1 o) ∧
          c.dev.dbg.ir = 0x20 ∧ c.dev.dbg.acc = none ∧ bitOf c.dev.dbg.dr 66 = true ∧ bitOf c.dev.dbg.dr 67 = false ∧
          c.dev.hps = d.hps))) ∧
    (b.extest = false → Idles .extestExit s) ∧
    (b.extest = true → Brings .extestExit s (fun d' =>
      d'.dbg = { b with extest := false } ∧ causes 252 d' = causes 252 d + 1)))

/-! ## Resets, boot, power and temperature -/

/-- R30, R433 to R438, R257, R258: a cold reset restarts machine time and leaves what reset leaves but for the keel, the
fuses, the lookout inputs, the supplies and the cause, every timing pin pulled down; it lasts while PORST_N is low or a core
supply is out; a warm reset also keeps the time base and its ports; each boot phase ends into the next, unless the device
is held in reset, and its command does nothing outside its phase; ROMRUN opens the run gate in RECOVERY; HOSTGO and SKIP act
only while the boot ROM waits for the host: an image in the banks that passes every step is loaded and locked, one that fails
stops with its code. Where the rules leave it
open, the statement follows the model's choices (log entries 8, 53, 57 and 58). -/
def Obligations.ResetsAndBoot : Prop :=
  ∀ (s : State) (why : ColdCause) (which : CoreSupply) (par storeOk : Bool) (vio33 : Byte),
    let d := s.core.dev
    let holds (k : Nat) (on : Bool) (d' : Device) : Prop :=
      ∀ i, i < 4 → bitOf d'.pwr.hold i = (if i = k then on else bitOf d.pwr.hold i)
    let kept (d' : Device) : Prop := (d.key.job = none → d'.keel = d.keel ∧ d'.fuses = d.fuses) ∧ d'.pwr.permit = false ∧ d'.pwr.armed = false ∧
      d'.pwr.gate = false ∧ d'.chn = Device.reset.chn ∧ d'.axs = Device.reset.axs ∧ d'.evc = Device.reset.evc ∧
      d'.xfr = Device.reset.xfr ∧ d'.mem = Device.reset.mem ∧ d'.alm = Device.reset.alm ∧ d'.hlm = Device.reset.hlm ∧
      (∀ k, (d'.lko.at k).uv = (d.lko.at k).uv) ∧ (∀ p, tpOut p d' = .pullDown) ∧ d'.pwr.vioIn = d.pwr.vioIn
    (∃ t, exec (.porst why true) s = .next t ∧ t.mt = 0 ∧ t.pending = s.pending ∧ kept t.core.dev ∧ holds 0 true t.core.dev ∧
      t.core.dev.stb = Device.reset.stb ∧ t.core.dev.pwr.phase = .pll ∧ t.core.ram.store = [] ∧
      t.core.dev.pwr.rstcause = (match why with | .porstPin => 2 | .powerUp => 1)) ∧
    Brings (.porst why false) s (fun d' => holds 0 false d' ∧ d' = { d with pwr := { d.pwr with hold := d'.pwr.hold } }) ∧
    (∃ t, exec (.brown which) s = .next t ∧ t.mt = 0 ∧ t.pending = s.pending ∧ kept t.core.dev ∧
      t.core.dev.stb = Device.reset.stb ∧ t.core.dev.pwr.phase = .pll ∧ t.core.dev.pwr.rstcause = 8 ∧
      holds (match which with | .vcore => 2 | .vaux => 3) true t.core.dev) ∧
    (bitOf d.pwr.hold 0 = false → BringsAll (.warmReset true) s (fun c =>
      kept c.dev ∧ c.dev.keel = d.keel ∧ c.dev.fuses = d.fuses ∧ c.dev.stb = d.stb ∧ c.dev.port = d.port ∧
      holds 1 true c.dev ∧ c.dev.pwr.phase = (if d.pwr.phase = .pll then .pll else .fuse) ∧ c.dev.pwr.rstcause = 4 ∧
      c.ram.store = [])) ∧
    (bitOf d.pwr.hold 0 = true → Idles (.warmReset true) s) ∧
    Brings (.warmReset false) s (fun d' => holds 1 false d' ∧ d' = { d with pwr := { d.pwr with hold := d'.pwr.hold } }) ∧
    (d.pwr.hold ≠ 0 → ∀ st, Idles (.bootFlow st) s) ∧
    (d.pwr.hold = 0 →
    (d.pwr.phase = .fuse → d.keel.ctrLost = false → d.fuses.cut = [] → Brings (.bootFlow (.fuse par [] vio33)) s (fun d' =>
      d'.pwr = { d.pwr with phase := .test, vcoreOk := d.pwr.vcoreIn, vauxOk := d.pwr.vauxIn, vioOk := d.pwr.vioIn
                            vio33 := vio33 } ∧
      d'.hps = { d.hps with par := par } ∧ d'.fuses = { d.fuses with bad := [] } ∧ d'.evc = d.evc)) ∧
    (d.pwr.phase ≠ .fuse → Idles (.bootFlow (.fuse par [] vio33)) s) ∧
    (d.pwr.phase = .test → BringsAll (.bootFlow (.test [] [])) s (fun c =>
      c.dev.pwr.phase = .clear ∧ c.ram = s.core.ram.loseBanks ∧
      (∀ b, (c.dev.mem.bank.at b).nfail = 0 ∧ (c.dev.mem.bank.at b).valid = true ∧ (c.dev.mem.bank.at b).unrep = false))) ∧
    (d.pwr.phase ≠ .test → Idles (.bootFlow (.test [] [])) s) ∧
    (d.pwr.phase = .clear → BringsAll (.bootFlow .clear) s (fun c =>
      c.dev.pwr.phase = .load ∧ c.ram.bank = s.core.ram.bank ∧
      (∀ n a, c.ram.progRead n a = 0 ∧ c.ram.almRead n a = 0 ∧ c.ram.lutRead n a = 0 ∧ c.ram.lbufRead n a = 0))) ∧
    (d.pwr.phase ≠ .clear → Idles (.bootFlow .clear) s) ∧
    (d.pwr.phase = .load → d.hlm.mode = .boot → d.hlm.locked = false → d.hlm.waithost = false →
      Changes (.bootFlow (.load [] storeOk)) s (fun d => { d with hlm := { d.hlm with waithost := true } })) ∧
    (d.pwr.phase = .load → d.hlm.waithost = false → d.hlm.loaded = true ∨ d.hlm.mode = .recovery →
      Brings (.bootFlow .ready) s (fun d' =>
        d'.pwr.phase = .ready ∧ d'.hlm.mode = (if d.hlm.loaded then .normal else .recovery) ∧
        (∀ n : Fin 16, (d'.hlm.eng.at n).insvc =
          ((d.hlm.eng.at n).insvc || (d.hlm.emask.getLsbD n.val && !(d.hlm.eng.at n).fail))) ∧
        causes 241 d' = causes 241 d + 2)) ∧
    (d.pwr.phase ≠ .load ∨ d.hlm.waithost = true → Idles (.bootFlow .ready) s)) ∧
    (d.hlm.mode = .recovery → Changes .romrun s (fun d => { d with pwr := { d.pwr with gate := true } })) ∧
    (d.hlm.mode ≠ .recovery → Idles .romrun s) ∧
    (d.hlm.waithost = false → Idles (.hostgo storeOk) s ∧ Idles .skip s) ∧
    (d.hlm.waithost = true → Changes .skip s (fun d => { d with hlm := { d.hlm with
      waithost := false, err := 0, mode := .recovery, reload := false } })) ∧
    (let n := d.hlm.len
     let image := (nats (max n 128)).map (fun a => BitVec.ofNat 8 (s.core.ram.bankRead 1 a))
     let h := imgHead image
     let p := imgPayload d.fuses image
     let ws := imgWords h.nd h.nw p
     d.hlm.waithost = true → (∀ b, (d.mem.bank.at b).st = .on) →
      (imgCheck d.fuses image n ≠ 0 → Brings (.hostgo storeOk) s (fun d' =>
        d'.hlm = { d.hlm with src := 2, waithost := false, err := imgCheck d.fuses image n, mode := .recovery, reload := false } ∧
        causes 249 d' = causes 249 d + 1)) ∧
      (imgCheck d.fuses image n = 0 → payloadCheck (imgRecs h.nd p) ws = 0 →
        BringsAll (.hostgo true) s (fun c =>
          let q := c.dev.hlm
          q.loaded = true ∧ q.locked = true ∧ q.waithost = false ∧ q.err = 0 ∧ q.src = 2 ∧ q.svn = h.svn ∧ q.nw = h.nw ∧
          q.nd = h.nd ∧ q.mode = d.hlm.mode ∧ causes 249 c.dev = causes 249 d + 1 ∧ c.ram.bank = s.core.ram.bank ∧
          ∀ (i : Nat) (w : Word), ws[i]? = some w → c.ram.storeRead 4 (4 * i) = w.toNat) ∧
        BringsAll (.hostgo false) s (fun c =>
          c.dev.hlm.err = 11 ∧ c.dev.hlm.mode = .recovery ∧ c.dev.hlm.waithost = false ∧ c.dev.hlm.locked = d.hlm.locked ∧
          causes 249 c.dev = causes 249 d + 1 ∧ c.ram.bank = s.core.ram.bank))) ∧
    (∀ b, d.hlm.waithost = true → (d.mem.bank.at b).st ≠ .on → Brings (.hostgo storeOk) s (fun d' =>
      d'.hlm = { d.hlm with src := 2, waithost := false, err := 10, mode := .recovery, reload := false } ∧
      causes 249 d' = causes 249 d + 1))

/-- R432, R434, R442: a core supply above its window or an I/O supply in use that is lost sets its HALT-class fault and
ends PERMIT, and the channels concerned go to their safe state; a supply that returns clears its mark, ends the cold reset
that its loss began, and is shown once the monitors work; a domain in use
is not turned off, one that is requested powers and then stands ON, one no longer requested goes OFF, each with a
record; a fault bit is cleared once its condition has gone. Where the rules leave it open, the statement follows the
model's choices (log entries 58 and 59). -/
def Obligations.SuppliesAndDomains : Prop :=
  ∀ (s : State) (w : CoreSupply) (k : Fin 8) (x : PowerDomain) (v : BitVec 3) (m : BitVec 6),
    let d := s.core.dev
    let ok := match w with | .vcore => d.pwr.vcoreOk | .vaux => d.pwr.vauxOk
    let halted (b : Nat) (d' : Device) : Prop := bitOf d'.pwr.hfault b = true ∧ d'.pwr.permit = false ∧ d'.pwr.armed = false
    let out (p : Pwr) : Pwr := { p with vcoreIn := p.vcoreIn && decide (w ≠ .vcore), vauxIn := p.vauxIn && decide (w ≠ .vaux) }
    let lost (p : Pwr) : Pwr := { p with vioIn := setFld p.vioIn k.val k.val 0 }
    let monitored := d.pwr.phase ≠ .pll ∧ d.pwr.phase ≠ .fuse
    (ok = false → Changes (.supply w) s (fun d => { d with pwr := out d.pwr })) ∧
    (ok = true → Brings (.supply w) s (fun d' =>
      halted 4 d' ∧ d'.pwr.vcoreIn = (out d.pwr).vcoreIn ∧ d'.pwr.vauxIn = (out d.pwr).vauxIn ∧ (w = .vcore → d'.pwr.vcoreOk = false) ∧ (w = .vaux → d'.pwr.vauxOk = false) ∧
      (∀ c, (d.chn.at c).cfg.en = true →
        (d'.chn.at c).stat.safe = true ∧ (d'.chn.at c).cfg.en = true ∧ (d'.chn.at c).comm = [] ∨
        (d.chn.at c).stat.safe = true) ∧
      (∀ c, (d.chn.at c).cfg.en = false → (d'.chn.at c).stat = (d.chn.at c).stat))) ∧
    (d.pwr.vioOk.getLsbD k.val = false → Changes (.ioloss k) s (fun d => { d with pwr := lost d.pwr })) ∧
    (d.pwr.vioOk.getLsbD k.val = true → bankInUse k d = false →
      Changes (.ioloss k) s (fun d => { d with pwr := { lost d.pwr with vioOk := setFld d.pwr.vioOk k.val k.val 0 } })) ∧
    (d.pwr.vioOk.getLsbD k.val = true → bankInUse k d = true → Brings (.ioloss k) s (fun d' =>
      halted 5 d' ∧ d'.pwr.vioIn = (lost d.pwr).vioIn ∧ d'.pwr.ioLost.getLsbD k.val = true ∧ d'.pwr.vioOk.getLsbD k.val = false ∧
      (∀ c, (d.chn.at c).cfg.en = true → pinBank c = some k → (d'.chn.at c).stat.safe = true))) ∧
    Changes (.supplyRestored .vkeel) s (fun d => { d with keel := { d.keel with vkeelOk := true } }) ∧
    Brings (.supplyRestored (.vio k)) s (fun d' =>
      d' = { d with pwr := { d.pwr with vioIn := setFld d.pwr.vioIn k.val k.val 1, vioOk := d'.pwr.vioOk } } ∧
      (monitored → d'.pwr.vioOk = setFld d.pwr.vioOk k.val k.val 1) ∧ (¬ monitored → d'.pwr.vioOk = d.pwr.vioOk)) ∧
    Brings (.supplyRestored (.core w)) s (fun d' =>
      d' = { d with pwr := { d.pwr with
        vcoreIn := d.pwr.vcoreIn || decide (w = .vcore), vauxIn := d.pwr.vauxIn || decide (w = .vaux)
        vcoreOk := d'.pwr.vcoreOk, vauxOk := d'.pwr.vauxOk, hold := d'.pwr.hold } } ∧
      (∀ i, i < 4 → bitOf d'.pwr.hold i = (bitOf d.pwr.hold i && decide (i ≠ (match w with | .vcore => 2 | .vaux => 3)))) ∧
      (monitored → d'.pwr.vcoreOk = (d.pwr.vcoreOk || decide (w = .vcore)) ∧
        d'.pwr.vauxOk = (d.pwr.vauxOk || decide (w = .vaux))) ∧
      (¬ monitored → d'.pwr.vcoreOk = d.pwr.vcoreOk ∧ d'.pwr.vauxOk = d.pwr.vauxOk)) ∧
    ((∀ y, v.getLsbD (domBit y) = true ∨ d.pwr.dctl.getLsbD (domBit y) = false ∨ domainInUse y d = false) →
      Changes (.domainRequest v) s (fun d => { d with pwr := { d.pwr with dctl := v } })) ∧
    (v.getLsbD (domBit x) = false → d.pwr.dctl.getLsbD (domBit x) = true → domainInUse x d = true →
      Brings (.domainRequest v) s (fun d' =>
        d'.pwr.dref = true ∧ d'.pwr.dctl.getLsbD (domBit x) = true ∧ d'.evc = d.evc)) ∧
    (d.pwr.dctl.getLsbD (domBit x) = true →
      (d.pwr.dom x = .off → Brings (.domainStateChange x) s (fun d' =>
        d'.pwr = d.pwr.setDom x .powering ∧ causes 241 d' = causes 241 d + 1)) ∧
      (d.pwr.dom x ≠ .off → Idles (.domainStateChange x) s)) ∧
    (d.pwr.dctl.getLsbD (domBit x) = false →
      (d.pwr.dom x = .off → Idles (.domainStateChange x) s) ∧
      (d.pwr.dom x ≠ .off → Brings (.domainStateChange x) s (fun d' =>
        d'.pwr = d.pwr.setDom x .off ∧ causes 241 d' = causes 241 d + 1 ∧
        (x = .link → ∀ l, (d'.glk.at l).st = .off)))) ∧
    (d.pwr.dom x ≠ .powering → Idles (.domainPowerComplete x) s) ∧
    (d.pwr.dom x = .powering → BringsAll (.domainPowerComplete x) s (fun c =>
      c.dev.pwr = d.pwr.setDom x .on ∧ causes 241 c.dev = causes 241 d + 1 ∧ c.ram.bank = s.core.ram.bank ∧
      (x = .link → ∀ n a, c.ram.lbufRead n a = 0) ∧ (x = .alm → c.ram = s.core.ram.loseAlm) ∧
      (x = .ana → c.ram = s.core.ram ∧ ∀ n, (c.dev.lko.at n).latch = true))) ∧
    Brings (.hfaultClear m) s (fun d' =>
      (bitOf m 0 = true → bitOf d'.pwr.hfault 0 = false) ∧
      (bitOf m 2 = true → d.stb.refOk = true → d.stb.pllLock = true → bitOf d'.pwr.hfault 2 = false) ∧
      (bitOf m 4 = true → d.pwr.vcoreOk = true → d.pwr.vauxOk = true → bitOf d'.pwr.hfault 4 = false) ∧
      (d.pwr.vcoreOk = false → bitOf d'.pwr.hfault 4 = bitOf d.pwr.hfault 4) ∧
      (∀ b, b < 6 → bitOf m b = false → bitOf d'.pwr.hfault b = bitOf d.pwr.hfault b) ∧
      d'.pwr.armed = d.pwr.armed ∧ d'.pwr.permit = d.pwr.permit ∧ d'.evc = d.evc)

/-- R444 to R448: an evaluation with four sensors in range that agree takes the hottest as the junction temperature;
CAUTION rises at its threshold; the stage rises from 0 at 920 eighths of a degree; 1000 eighths, or no valid sensor,
shut the device down: every channel goes to its safe state, PERMIT ends, the governor keeps its stage, and the shutdown acts
once until its fault is cleared. Where the rules leave it open, the statement follows the model's choices (log entry 59). -/
def Obligations.Governor : Prop :=
  ∀ (s : State) (t : Tab Int 4) (p : BitVec 16),
    let d := s.core.dev
    let hot := max (max (t.at 0) (t.at 1)) (max (t.at 2) (t.at 3))
    let agree := ∀ i j : Fin 4, -440 ≤ t.at i ∧ t.at i ≤ 1200 ∧ (t.at i - t.at j).natAbs ≤ 80
    let down (d' : Device) : Prop := bitOf d'.pwr.hfault 3 = true ∧ d'.pwr.permit = false ∧ d'.pwr.armed = false ∧
      (∀ c, (d.chn.at c).cfg.en = true → (d'.chn.at c).stat.safe = true)
    (agree → hot < 1000 → Brings (.thermalEvaluation t p) s (fun d' =>
      d'.thm.tj = hot ∧ d'.thm.p = p.toNat ∧ d'.thm.sfail = d.thm.sfail ∧
      d'.thm.tmax = some (match d.thm.tmax with | some m => max m hot | none => hot) ∧
      (cautAt d.thm.tcfg ≤ hot → d'.thm.caution = true) ∧ (hot ≤ cautAt d.thm.tcfg - 8 → d'.thm.caution = false) ∧
      (d.thm.stage = 0 → bitOf d.pwr.hfault 3 = false → d'.thm.stage = (if 920 ≤ hot then 1 else 0)) ∧
      (bitOf d.pwr.hfault 3 = true → d'.thm.stage = d.thm.stage ∧ d'.thm.pace = d.thm.pace) ∧ d'.pwr = d.pwr ∧ d'.chn = d.chn)) ∧
    (agree → 1000 ≤ hot → bitOf d.pwr.hfault 3 = false → Brings (.thermalEvaluation t p) s (fun d' =>
      d'.thm.tj = hot ∧ d'.thm.stage = d.thm.stage ∧ d'.thm.pace = d.thm.pace ∧ down d')) ∧
    ((∀ i, t.at i < -440 ∨ 1200 < t.at i) → bitOf d.pwr.hfault 3 = false → Brings (.thermalEvaluation t p) s (fun d' =>
      d'.thm.tj = d.thm.tj ∧ d'.thm.sfail = true ∧ down d')) ∧
    (bitOf d.pwr.hfault 3 = false → Brings .shutdown s (fun d' => down d' ∧ causes 240 d' = causes 240 d + 1)) ∧
    (bitOf d.pwr.hfault 3 = true → Idles .shutdown s)
end

