-- ==== Sys2Proof/Laws/Tables.lean ====
section
/-! SUPPORT. Tables, runs over all numbers, and lists of numbers. -/

namespace Sys2Proof

/-! ## Tables -/

@[simp] theorem Tab.at_all {α : Type} {n : Nat} (a : α) (i : Fin n) : (Tab.all a : Tab α n).at i = a := by
  simp [Tab.all, Tab.at]

@[simp] theorem Tab.at_put_same {α : Type} {n : Nat} (t : Tab α n) (i : Fin n) (a : α) : (t.put i a).at i = a := by
  simp [Tab.put, Tab.at]

theorem Tab.at_put_ne {α : Type} {n : Nat} (t : Tab α n) {i j : Fin n} (a : α) (h : j ≠ i) :
    (t.put i a).at j = t.at j := by
  have : (i : Nat) ≠ j := fun e => h (Fin.ext e.symm)
  simp [Tab.put, Tab.at, this]

@[simp] theorem Tab.at_upd_same {α : Type} {n : Nat} (t : Tab α n) (i : Fin n) (f : α → α) :
    (t.upd i f).at i = f (t.at i) := by simp [Tab.upd]

theorem Tab.at_upd_ne {α : Type} {n : Nat} (t : Tab α n) {i j : Fin n} (f : α → α) (h : j ≠ i) :
    (t.upd i f).at j = t.at j := by simp [Tab.upd, Tab.at_put_ne _ _ h]

/-- Two tables with the same entries are the same. -/
theorem Tab.ext_at {α : Type} {n : Nat} {t u : Tab α n} (h : ∀ i, t.at i = u.at i) : t = u := by
  apply Vector.ext
  intro i hi
  exact h ⟨i, hi⟩

@[simp] theorem Tab.put_at {α : Type} {n : Nat} (t : Tab α n) (i : Fin n) : t.put i (t.at i) = t := by
  apply Tab.ext_at
  intro j
  by_cases h : j = i
  · subst h; simp
  · exact Tab.at_put_ne _ _ h

/-- An update that leaves its entry as it is changes nothing. -/
theorem Tab.upd_same {α : Type} {n : Nat} (t : Tab α n) (i : Fin n) (f : α → α) (h : f (t.at i) = t.at i) :
    t.upd i f = t := by simp [Tab.upd, h]

/-- Two updates of one entry are one. -/
theorem Tab.upd_upd {α : Type} {n : Nat} (t : Tab α n) (i : Fin n) (f g : α → α) :
    (t.upd i f).upd i g = t.upd i (fun a => g (f a)) := by
  apply Tab.ext_at
  intro j
  by_cases h : j = i
  · subst h; simp
  · simp [Tab.at_upd_ne _ _ h]

namespace Machine

/-! ## Numbers below a bound -/

theorem mem_finsUpTo {n : Nat} (i : Fin n) : ∀ (k : Nat) (h : k ≤ n) (acc : List (Fin n)),
    i ∈ finsUpTo k h acc ↔ i.val < k ∨ i ∈ acc
  | 0, _, acc => by simp [finsUpTo]
  | k + 1, h, acc => by
    rw [finsUpTo, mem_finsUpTo i k]
    have e : i = ⟨k, h⟩ ↔ i.val = k := by rw [Fin.ext_iff]
    have e' : (i.val < k ∨ i.val = k) ↔ i.val < k + 1 := by omega
    rw [List.mem_cons, e, ← or_assoc, e']

/-- `fins n` lists every number below `n`. -/
@[simp] theorem mem_fins {n : Nat} (i : Fin n) : i ∈ fins n := by simp [fins, mem_finsUpTo]

theorem natsUpTo_eq (k : Nat) : ∀ acc, natsUpTo k acc = List.range k ++ acc := by
  induction k with
  | zero => intro acc; rfl
  | succ k ih => intro acc; simp [natsUpTo, ih, List.range_succ]

/-- `nats n` lists the numbers below `n`, ascending. -/
@[simp] theorem nats_eq (n : Nat) : nats n = List.range n := by simp [nats, natsUpTo_eq]

/-- What every one of the `n` turns keeps, a run over all numbers keeps. -/
theorem forAll_keeps {σ : Type} {n : Nat} (P : σ → Prop) (f : Fin n → σ → σ) (hf : ∀ i s, P s → P (f i s)) :
    ∀ s, P s → P (forAll f s) := by
  have go : ∀ (k : Nat) (h : k ≤ n) (s : σ), P s → P (forUpTo f k h s) := by
    intro k
    induction k with
    | zero => intro _ s hs; exact hs
    | succ k ih => intro h s hs; exact hf _ _ (ih _ s hs)
  exact fun s hs => go n _ s hs

/-- A value that every turn leaves as it is, a run over all numbers leaves as it is. -/
theorem forAll_same {σ β : Type} {n : Nat} (g : σ → β) (f : Fin n → σ → σ) (hf : ∀ i s, g (f i s) = g s) (s : σ) :
    g (forAll f s) = g s :=
  forAll_keeps (fun t => g t = g s) f (fun i t h => (hf i t).trans h) s rfl

/-- A value that every turn leaves as it is, a fold leaves as it is. -/
theorem foldl_same {σ β γ : Type} (g : σ → β) (f : σ → γ → σ) (hf : ∀ s a, g (f s a) = g s) :
    ∀ (l : List γ) (s : σ), g (l.foldl f s) = g s
  | [], _ => rfl
  | a :: l, s => (foldl_same g f hf l (f s a)).trans (hf s a)

/-- What every turn of a fold keeps, the fold keeps. -/
theorem foldl_keeps {σ γ : Type} (P : σ → Prop) (f : σ → γ → σ) (hf : ∀ s a, P s → P (f s a)) :
    ∀ (l : List γ) (s : σ), P s → P (l.foldl f s)
  | [], _, h => h
  | a :: l, s, h => foldl_keeps P f hf l (f s a) (hf s a h)

end Machine

end Sys2Proof
end

