-- ==== Sys2Proof/Laws/Memory.lean ====
section
/-! SUPPORT. Memories: what a write leaves to be read, and that every operation keeps the canonical form. -/

namespace Sys2Proof.Machine

open Sys2Proof

/-! ## One byte -/

theorem Memory.wfFrom_mono {dflt : Nat → Byte} {size lo lo' : Nat} (h : lo' ≤ lo) :
    ∀ {m : List Host.Cell}, Memory.wfFrom dflt size lo m → Memory.wfFrom dflt size lo' m
  | [], _ => trivial
  | (_, _) :: _, ⟨h1, h2⟩ => ⟨Nat.le_trans h h1, h2⟩

/-- A byte below every listed address reads as an unlisted one. -/
theorem Memory.read_below {dflt : Nat → Byte} {size : Nat} : ∀ {m : List Host.Cell} {lo a : Nat},
    Memory.wfFrom dflt size lo m → a < lo → Memory.read dflt m a = dflt a
  | [], _, _, _, _ => rfl
  | (k, b) :: m, lo, a, ⟨h1, _, _, h4⟩, h => by
    have : a ≠ k := by omega
    rw [Memory.read, if_neg this, Memory.read_below h4 (by omega)]

/-- A byte reads as it was last written; every other byte reads as before. -/
theorem Memory.read_write {dflt : Nat → Byte} {size : Nat} (a : Nat) (v : Byte) (b : Nat) :
    ∀ {m : List Host.Cell} {lo : Nat}, Memory.wfFrom dflt size lo m →
      Memory.read dflt (Memory.write dflt a v m) b = if b = a then v else Memory.read dflt m b
  | [], _, _ => by
    unfold Memory.write
    by_cases hv : v = dflt a
    · by_cases hb : b = a
      · subst hb; simp [Memory.read, hv]
      · simp [Memory.read, hv, hb]
    · by_cases hb : b = a <;> simp [Memory.read, hv, hb]
  | (k, w) :: m, lo, ⟨h1, h2, h3, h4⟩ => by
    unfold Memory.write
    by_cases hk : a < k
    · have hak : Memory.read dflt ((k, w) :: m) a = dflt a :=
        Memory.read_below (size := size) (lo := k) ⟨Nat.le_refl k, h2, h3, h4⟩ hk
      by_cases hv : v = dflt a
      · by_cases hb : b = a
        · subst hb; simp [hk, hv, hak]
        · simp [hk, hv, hb]
      · by_cases hb : b = a <;> simp [hk, hv, Memory.read, hb]
    · by_cases he : a = k
      · subst he
        have hd : Memory.read dflt m a = dflt a := Memory.read_below h4 (Nat.lt_succ_self a)
        by_cases hv : v = dflt a
        · by_cases hb : b = a
          · subst hb; simp [hv, hd]
          · simp [hv, hb, Memory.read]
        · by_cases hb : b = a <;> simp [hv, hb, Memory.read]
      · have hr := Memory.read_write a v b h4
        simp only [if_neg hk, if_neg he, Memory.read]
        by_cases hb : b = k
        · simp [hb]
          intro h; exact absurd h.symm he
        · simp [hb, hr]

/-- A write keeps the canonical form. -/
theorem Memory.write_wfFrom {dflt : Nat → Byte} {size a : Nat} {v : Byte} (ha : a < size) :
    ∀ {m : List Host.Cell} {lo : Nat}, lo ≤ a → Memory.wfFrom dflt size lo m →
      Memory.wfFrom dflt size lo (Memory.write dflt a v m)
  | [], lo, hl, _ => by
    unfold Memory.write
    by_cases hv : v = dflt a
    · simp [hv, Memory.wfFrom]
    · simp [hv, Memory.wfFrom, hl, ha]
  | (k, w) :: m, lo, hl, ⟨h1, h2, h3, h4⟩ => by
    unfold Memory.write
    by_cases hk : a < k
    · by_cases hv : v = dflt a
      · simp only [if_pos hk, if_pos hv]; exact ⟨h1, h2, h3, h4⟩
      · simp only [if_pos hk, if_neg hv]
        exact ⟨hl, ha, hv, ⟨hk, h2, h3, h4⟩⟩
    · by_cases he : a = k
      · subst he
        by_cases hv : v = dflt a
        · simp only [if_neg hk, if_true, if_pos hv]
          exact Memory.wfFrom_mono (Nat.le_succ_of_le h1) h4
        · simp only [if_neg hk, if_true, if_neg hv]
          exact ⟨h1, ha, hv, h4⟩
      · simp only [if_neg hk, if_neg he]
        exact ⟨h1, h2, h3, Memory.write_wfFrom ha (by omega) h4⟩

/-! ## Several bytes -/

theorem Memory.writeN_wf {dflt : Nat → Byte} {size : Nat} : ∀ (n a v : Nat) {m : List Host.Cell},
    a + n ≤ size → Memory.wf dflt size m → Memory.wf dflt size (Memory.writeN dflt n a v m)
  | 0, _, _, _, _, h => h
  | n + 1, a, v, _, ha, h =>
    Memory.writeN_wf n (a + 1) (v / 256) (by omega) (Memory.write_wfFrom (by omega) (Nat.zero_le a) h)

/-- What a byte reads as after `n` bytes of `v` were written from `a`. -/
theorem Memory.read_writeN {dflt : Nat → Byte} {size : Nat} : ∀ (n a v : Nat) (b : Nat) {m : List Host.Cell},
    a + n ≤ size → Memory.wf dflt size m →
    Memory.read dflt (Memory.writeN dflt n a v m) b =
      if a ≤ b ∧ b < a + n then BitVec.ofNat 8 (v / 256 ^ (b - a)) else Memory.read dflt m b
  | 0, a, v, b, m, _, _ => by
    have : ¬ (a ≤ b ∧ b < a + 0) := by omega
    rw [if_neg this]; rfl
  | n + 1, a, v, b, m, ha, h => by
    have hw := Memory.write_wfFrom (v := BitVec.ofNat 8 v) (show a < size by omega) (Nat.zero_le a) h
    rw [Memory.writeN, Memory.read_writeN n (a + 1) (v / 256) b (by omega) hw, Memory.read_write a _ b h]
    by_cases h1 : b = a
    · subst h1
      have c1 : ¬ (b + 1 ≤ b ∧ b < b + 1 + n) := by omega
      have c2 : b ≤ b ∧ b < b + (n + 1) := by omega
      rw [if_neg c1, if_pos rfl, if_pos c2]; simp
    · rw [if_neg h1]
      by_cases h2 : a + 1 ≤ b ∧ b < a + 1 + n
      · have c2 : a ≤ b ∧ b < a + (n + 1) := by omega
        rw [if_pos h2, if_pos c2, Nat.div_div_eq_div_mul, ← Nat.pow_succ']
        congr 3; omega
      · have c2 : ¬ (a ≤ b ∧ b < a + (n + 1)) := by omega
        rw [if_neg h2, if_neg c2]

theorem Memory.readN_congr {dflt : Nat → Byte} {m m' : List Host.Cell} : ∀ (n a : Nat),
    (∀ b, a ≤ b → b < a + n → Memory.read dflt m b = Memory.read dflt m' b) →
    Memory.readN dflt m n a = Memory.readN dflt m' n a
  | 0, _, _ => rfl
  | n + 1, a, h => by
    rw [Memory.readN, Memory.readN, h a (Nat.le_refl a) (by omega),
      Memory.readN_congr n (a + 1) (fun b h1 h2 => h b (by omega) (by omega))]

/-- Bytes that spell `v` read as its low `n` bytes. -/
theorem Memory.readN_of_bytes {dflt : Nat → Byte} {m : List Host.Cell} : ∀ (n a v : Nat),
    (∀ i, i < n → Memory.read dflt m (a + i) = BitVec.ofNat 8 (v / 256 ^ i)) →
    Memory.readN dflt m n a = v % 256 ^ n
  | 0, a, v, _ => by simp [Memory.readN, Nat.mod_one]
  | n + 1, a, v, h => by
    have h0 := h 0 (by omega)
    have hr := Memory.readN_of_bytes n (a + 1) (v / 256) (fun i hi => by
      have := h (i + 1) (by omega)
      rw [show a + 1 + i = a + (i + 1) by omega, this, Nat.div_div_eq_div_mul, ← Nat.pow_succ'])
    simp only [Nat.add_zero, Nat.pow_zero, Nat.div_one] at h0
    have e : v % 256 ^ (n + 1) = v % 256 + 256 * (v / 256 % 256 ^ n) := by rw [Nat.pow_succ', Nat.mod_mul]
    rw [Memory.readN, h0, hr, BitVec.toNat_ofNat, e]

/-- The bytes that were written read back. -/
theorem Memory.readN_writeN {dflt : Nat → Byte} {size : Nat} (n a v : Nat) {m : List Host.Cell}
    (ha : a + n ≤ size) (h : Memory.wf dflt size m) :
    Memory.readN dflt (Memory.writeN dflt n a v m) n a = v % 256 ^ n := by
  apply Memory.readN_of_bytes
  intro i hi
  have c : a ≤ a + i ∧ a + i < a + n := by omega
  rw [Memory.read_writeN n a v (a + i) ha h, if_pos c, Nat.add_sub_cancel_left]

/-- Bytes apart from those written read as before. -/
theorem Memory.readN_writeN_apart {dflt : Nat → Byte} {size : Nat} (n a v k b : Nat) {m : List Host.Cell}
    (ha : a + n ≤ size) (h : Memory.wf dflt size m) (hb : b + k ≤ a ∨ a + n ≤ b) :
    Memory.readN dflt (Memory.writeN dflt n a v m) k b = Memory.readN dflt m k b := by
  apply Memory.readN_congr
  intro c h1 h2
  have : ¬ (a ≤ c ∧ c < a + n) := by omega
  rw [Memory.read_writeN n a v c ha h, if_neg this]

/-! ## The memories of the block -/

/-- Reading after writing `n` bytes of the data banks. -/
theorem Ram.bankRead_bankWrite {r : Ram} (h : r.wf) (n a v : Nat) (ha : a + n ≤ bankSize) :
    (r.bankWrite n a v).bankRead n a = v % 256 ^ n := by
  simp only [Ram.bankWrite, if_pos ha, Ram.bankRead]
  exact Memory.readN_writeN n a v ha h.1

/-- Reading the data banks apart from what was written. -/
theorem Ram.bankRead_bankWrite_apart {r : Ram} (h : r.wf) (n a v k b : Nat) (hb : b + k ≤ a ∨ a + n ≤ b) :
    (r.bankWrite n a v).bankRead k b = r.bankRead k b := by
  unfold Ram.bankWrite
  split
  · exact Memory.readN_writeN_apart n a v k b ‹_› h.1 hb
  · rfl

@[simp] theorem Ram.bankWrite_alm (n a v : Nat) (r : Ram) : (r.bankWrite n a v).alm = r.alm := by
  unfold Ram.bankWrite; split <;> rfl
@[simp] theorem Ram.bankWrite_almGen (n a v : Nat) (r : Ram) : (r.bankWrite n a v).almGen = r.almGen := by
  unfold Ram.bankWrite; split <;> rfl
@[simp] theorem Ram.bankWrite_bankGen (n a v : Nat) (r : Ram) : (r.bankWrite n a v).bankGen = r.bankGen := by
  unfold Ram.bankWrite; split <;> rfl
@[simp] theorem Ram.bankWrite_prog (n a v : Nat) (r : Ram) : (r.bankWrite n a v).prog = r.prog := by
  unfold Ram.bankWrite; split <;> rfl
@[simp] theorem Ram.bankWrite_store (n a v : Nat) (r : Ram) : (r.bankWrite n a v).store = r.store := by
  unfold Ram.bankWrite; split <;> rfl
@[simp] theorem Ram.bankWrite_lut (n a v : Nat) (r : Ram) : (r.bankWrite n a v).lut = r.lut := by
  unfold Ram.bankWrite; split <;> rfl
@[simp] theorem Ram.bankWrite_lbuf (n a v : Nat) (r : Ram) : (r.bankWrite n a v).lbuf = r.lbuf := by
  unfold Ram.bankWrite; split <;> rfl

theorem Ram.bankWrite_wf {r : Ram} (h : r.wf) (n a v : Nat) : (r.bankWrite n a v).wf := by
  unfold Ram.bankWrite; split
  · exact ⟨Memory.writeN_wf n a v ‹_› h.1, h.2⟩
  · exact h
theorem Ram.almWrite_wf {r : Ram} (h : r.wf) (n a v : Nat) : (r.almWrite n a v).wf := by
  unfold Ram.almWrite; split
  · exact ⟨h.1, Memory.writeN_wf n a v ‹_› h.2.1, h.2.2⟩
  · exact h
theorem Ram.progWrite_wf {r : Ram} (h : r.wf) (n a v : Nat) : (r.progWrite n a v).wf := by
  unfold Ram.progWrite; split
  · exact ⟨h.1, h.2.1, Memory.writeN_wf n a v ‹_› h.2.2.1, h.2.2.2⟩
  · exact h
theorem Ram.storeWrite_wf {r : Ram} (h : r.wf) (n a v : Nat) : (r.storeWrite n a v).wf := by
  unfold Ram.storeWrite; split
  · exact ⟨h.1, h.2.1, h.2.2.1, Memory.writeN_wf n a v ‹_› h.2.2.2.1, h.2.2.2.2⟩
  · exact h
theorem Ram.lutWrite_wf {r : Ram} (h : r.wf) (n a v : Nat) : (r.lutWrite n a v).wf := by
  unfold Ram.lutWrite; split
  · exact ⟨h.1, h.2.1, h.2.2.1, h.2.2.2.1, Memory.writeN_wf n a v ‹_› h.2.2.2.2.1, h.2.2.2.2.2⟩
  · exact h
theorem Ram.lbufWrite_wf {r : Ram} (h : r.wf) (n a v : Nat) : (r.lbufWrite n a v).wf := by
  unfold Ram.lbufWrite; split
  · exact ⟨h.1, h.2.1, h.2.2.1, h.2.2.2.1, h.2.2.2.2.1, Memory.writeN_wf n a v ‹_› h.2.2.2.2.2⟩
  · exact h

/-! ## Lost contents -/

/-- The canonical form outlasts the loss of some addresses, and a change of what those read as. -/
theorem Memory.filter_wfFrom {d d' : Nat → Byte} {size : Nat} (p : Nat → Bool) (hp : ∀ a, p a = true → d' a = d a) :
    ∀ {m : List Host.Cell} {lo : Nat}, Memory.wfFrom d size lo m →
      Memory.wfFrom d' size lo (m.filter (fun c => p c.1))
  | [], _, _ => trivial
  | (k, w) :: m, lo, ⟨h1, h2, h3, h4⟩ => by
    have ih := Memory.filter_wfFrom p hp h4
    by_cases hk : p k = true
    · rw [List.filter_cons, if_pos hk]
      exact ⟨h1, h2, by rw [hp k hk]; exact h3, ih⟩
    · rw [List.filter_cons, if_neg hk]
      exact Memory.wfFrom_mono (Nat.le_succ_of_le h1) ih

theorem Ram.loseBank_wf {r : Ram} (h : r.wf) (bk : BankNo) : (r.loseBank bk).wf := by
  refine ⟨?_, h.2⟩
  have := Memory.filter_wfFrom (d := Ram.bankDflt r.bankGen) (d' := Ram.bankDflt (r.bankGen.upd bk (· + 1)))
    (size := bankSize) (fun a => decide (bankOf a ≠ bk))
    (fun a ha => by
      have hne : bankOf a ≠ bk := by simpa using ha
      simp [Ram.bankDflt, Tab.at_upd_ne _ _ hne]) h.1
  exact this

theorem Ram.loseBanks_wf {r : Ram} (h : r.wf) : r.loseBanks.wf := ⟨trivial, h.2⟩
theorem Ram.loseAlm_wf {r : Ram} (h : r.wf) : r.loseAlm.wf := ⟨h.1, trivial, h.2.2⟩
theorem Ram.clearAlm_wf {r : Ram} (h : r.wf) : r.clearAlm.wf := ⟨h.1, trivial, h.2.2⟩

/-- The memories after reset are in canonical form. -/
theorem Ram.reset_wf : Ram.reset.wf := by simp [Ram.wf, Ram.reset, Memory.wf, Memory.wfFrom]

end Sys2Proof.Machine
end

