-- ==== Sys2Proof/Laws/State.lean ====
section
/-! SUPPORT. What each update of one part of the state leaves: every lemma is true by unfolding. -/

namespace Sys2Proof.Machine

open Sys2Proof

/-! ## `Device.chnUpd` -/

@[simp] theorem Device.chnUpd_chn (c : Chan) (f : Channel → Channel) (d : Device) :
    (d.chnUpd c f).chn = d.chn.upd c f := rfl
@[simp] theorem Device.chnUpd_keel (c : Chan) (f : Channel → Channel) (d : Device) : (d.chnUpd c f).keel = d.keel := rfl
@[simp] theorem Device.chnUpd_fuses (c : Chan) (f : Channel → Channel) (d : Device) : (d.chnUpd c f).fuses = d.fuses := rfl
@[simp] theorem Device.chnUpd_stb (c : Chan) (f : Channel → Channel) (d : Device) : (d.chnUpd c f).stb = d.stb := rfl
@[simp] theorem Device.chnUpd_port (c : Chan) (f : Channel → Channel) (d : Device) : (d.chnUpd c f).port = d.port := rfl
@[simp] theorem Device.chnUpd_axs (c : Chan) (f : Channel → Channel) (d : Device) : (d.chnUpd c f).axs = d.axs := rfl
@[simp] theorem Device.chnUpd_dr (c : Chan) (f : Channel → Channel) (d : Device) : (d.chnUpd c f).dr = d.dr := rfl
@[simp] theorem Device.chnUpd_sys (c : Chan) (f : Channel → Channel) (d : Device) : (d.chnUpd c f).sys = d.sys := rfl
@[simp] theorem Device.chnUpd_hlm (c : Chan) (f : Channel → Channel) (d : Device) : (d.chnUpd c f).hlm = d.hlm := rfl
@[simp] theorem Device.chnUpd_clv (c : Chan) (f : Channel → Channel) (d : Device) : (d.chnUpd c f).clv = d.clv := rfl
@[simp] theorem Device.chnUpd_glk (c : Chan) (f : Channel → Channel) (d : Device) : (d.chnUpd c f).glk = d.glk := rfl
@[simp] theorem Device.chnUpd_glw (c : Chan) (f : Channel → Channel) (d : Device) : (d.chnUpd c f).glw = d.glw := rfl
@[simp] theorem Device.chnUpd_lko (c : Chan) (f : Channel → Channel) (d : Device) : (d.chnUpd c f).lko = d.lko := rfl
@[simp] theorem Device.chnUpd_snd (c : Chan) (f : Channel → Channel) (d : Device) : (d.chnUpd c f).snd = d.snd := rfl
@[simp] theorem Device.chnUpd_xfr (c : Chan) (f : Channel → Channel) (d : Device) : (d.chnUpd c f).xfr = d.xfr := rfl
@[simp] theorem Device.chnUpd_mem (c : Chan) (f : Channel → Channel) (d : Device) : (d.chnUpd c f).mem = d.mem := rfl
@[simp] theorem Device.chnUpd_alm (c : Chan) (f : Channel → Channel) (d : Device) : (d.chnUpd c f).alm = d.alm := rfl
@[simp] theorem Device.chnUpd_evc (c : Chan) (f : Channel → Channel) (d : Device) : (d.chnUpd c f).evc = d.evc := rfl
@[simp] theorem Device.chnUpd_hps (c : Chan) (f : Channel → Channel) (d : Device) : (d.chnUpd c f).hps = d.hps := rfl
@[simp] theorem Device.chnUpd_key (c : Chan) (f : Channel → Channel) (d : Device) : (d.chnUpd c f).key = d.key := rfl
@[simp] theorem Device.chnUpd_dbg (c : Chan) (f : Channel → Channel) (d : Device) : (d.chnUpd c f).dbg = d.dbg := rfl
@[simp] theorem Device.chnUpd_pwr (c : Chan) (f : Channel → Channel) (d : Device) : (d.chnUpd c f).pwr = d.pwr := rfl
@[simp] theorem Device.chnUpd_thm (c : Chan) (f : Channel → Channel) (d : Device) : (d.chnUpd c f).thm = d.thm := rfl
@[simp] theorem Device.chnUpd_free (c : Chan) (f : Channel → Channel) (d : Device) : (d.chnUpd c f).free = d.free := rfl
@[simp] theorem Device.chnUpd_turn (c : Chan) (f : Channel → Channel) (d : Device) : (d.chnUpd c f).turn = d.turn := rfl

/-! ## `Device.axUpd` -/

@[simp] theorem Device.axUpd_axs (a : Axis) (f : AxisSt → AxisSt) (d : Device) :
    (d.axUpd a f).axs = d.axs.upd a f := rfl
@[simp] theorem Device.axUpd_keel (a : Axis) (f : AxisSt → AxisSt) (d : Device) : (d.axUpd a f).keel = d.keel := rfl
@[simp] theorem Device.axUpd_fuses (a : Axis) (f : AxisSt → AxisSt) (d : Device) : (d.axUpd a f).fuses = d.fuses := rfl
@[simp] theorem Device.axUpd_stb (a : Axis) (f : AxisSt → AxisSt) (d : Device) : (d.axUpd a f).stb = d.stb := rfl
@[simp] theorem Device.axUpd_port (a : Axis) (f : AxisSt → AxisSt) (d : Device) : (d.axUpd a f).port = d.port := rfl
@[simp] theorem Device.axUpd_dr (a : Axis) (f : AxisSt → AxisSt) (d : Device) : (d.axUpd a f).dr = d.dr := rfl
@[simp] theorem Device.axUpd_chn (a : Axis) (f : AxisSt → AxisSt) (d : Device) : (d.axUpd a f).chn = d.chn := rfl
@[simp] theorem Device.axUpd_sys (a : Axis) (f : AxisSt → AxisSt) (d : Device) : (d.axUpd a f).sys = d.sys := rfl
@[simp] theorem Device.axUpd_hlm (a : Axis) (f : AxisSt → AxisSt) (d : Device) : (d.axUpd a f).hlm = d.hlm := rfl
@[simp] theorem Device.axUpd_clv (a : Axis) (f : AxisSt → AxisSt) (d : Device) : (d.axUpd a f).clv = d.clv := rfl
@[simp] theorem Device.axUpd_glk (a : Axis) (f : AxisSt → AxisSt) (d : Device) : (d.axUpd a f).glk = d.glk := rfl
@[simp] theorem Device.axUpd_glw (a : Axis) (f : AxisSt → AxisSt) (d : Device) : (d.axUpd a f).glw = d.glw := rfl
@[simp] theorem Device.axUpd_lko (a : Axis) (f : AxisSt → AxisSt) (d : Device) : (d.axUpd a f).lko = d.lko := rfl
@[simp] theorem Device.axUpd_snd (a : Axis) (f : AxisSt → AxisSt) (d : Device) : (d.axUpd a f).snd = d.snd := rfl
@[simp] theorem Device.axUpd_xfr (a : Axis) (f : AxisSt → AxisSt) (d : Device) : (d.axUpd a f).xfr = d.xfr := rfl
@[simp] theorem Device.axUpd_mem (a : Axis) (f : AxisSt → AxisSt) (d : Device) : (d.axUpd a f).mem = d.mem := rfl
@[simp] theorem Device.axUpd_alm (a : Axis) (f : AxisSt → AxisSt) (d : Device) : (d.axUpd a f).alm = d.alm := rfl
@[simp] theorem Device.axUpd_evc (a : Axis) (f : AxisSt → AxisSt) (d : Device) : (d.axUpd a f).evc = d.evc := rfl
@[simp] theorem Device.axUpd_hps (a : Axis) (f : AxisSt → AxisSt) (d : Device) : (d.axUpd a f).hps = d.hps := rfl
@[simp] theorem Device.axUpd_key (a : Axis) (f : AxisSt → AxisSt) (d : Device) : (d.axUpd a f).key = d.key := rfl
@[simp] theorem Device.axUpd_dbg (a : Axis) (f : AxisSt → AxisSt) (d : Device) : (d.axUpd a f).dbg = d.dbg := rfl
@[simp] theorem Device.axUpd_pwr (a : Axis) (f : AxisSt → AxisSt) (d : Device) : (d.axUpd a f).pwr = d.pwr := rfl
@[simp] theorem Device.axUpd_thm (a : Axis) (f : AxisSt → AxisSt) (d : Device) : (d.axUpd a f).thm = d.thm := rfl
@[simp] theorem Device.axUpd_free (a : Axis) (f : AxisSt → AxisSt) (d : Device) : (d.axUpd a f).free = d.free := rfl
@[simp] theorem Device.axUpd_turn (a : Axis) (f : AxisSt → AxisSt) (d : Device) : (d.axUpd a f).turn = d.turn := rfl

/-! ## `Device.clvUpd` -/

@[simp] theorem Device.clvUpd_clv (n : CloveNo) (f : Clove → Clove) (d : Device) :
    (d.clvUpd n f).clv = d.clv.upd n f := rfl
@[simp] theorem Device.clvUpd_keel (n : CloveNo) (f : Clove → Clove) (d : Device) : (d.clvUpd n f).keel = d.keel := rfl
@[simp] theorem Device.clvUpd_fuses (n : CloveNo) (f : Clove → Clove) (d : Device) : (d.clvUpd n f).fuses = d.fuses := rfl
@[simp] theorem Device.clvUpd_stb (n : CloveNo) (f : Clove → Clove) (d : Device) : (d.clvUpd n f).stb = d.stb := rfl
@[simp] theorem Device.clvUpd_port (n : CloveNo) (f : Clove → Clove) (d : Device) : (d.clvUpd n f).port = d.port := rfl
@[simp] theorem Device.clvUpd_axs (n : CloveNo) (f : Clove → Clove) (d : Device) : (d.clvUpd n f).axs = d.axs := rfl
@[simp] theorem Device.clvUpd_dr (n : CloveNo) (f : Clove → Clove) (d : Device) : (d.clvUpd n f).dr = d.dr := rfl
@[simp] theorem Device.clvUpd_chn (n : CloveNo) (f : Clove → Clove) (d : Device) : (d.clvUpd n f).chn = d.chn := rfl
@[simp] theorem Device.clvUpd_sys (n : CloveNo) (f : Clove → Clove) (d : Device) : (d.clvUpd n f).sys = d.sys := rfl
@[simp] theorem Device.clvUpd_hlm (n : CloveNo) (f : Clove → Clove) (d : Device) : (d.clvUpd n f).hlm = d.hlm := rfl
@[simp] theorem Device.clvUpd_glk (n : CloveNo) (f : Clove → Clove) (d : Device) : (d.clvUpd n f).glk = d.glk := rfl
@[simp] theorem Device.clvUpd_glw (n : CloveNo) (f : Clove → Clove) (d : Device) : (d.clvUpd n f).glw = d.glw := rfl
@[simp] theorem Device.clvUpd_lko (n : CloveNo) (f : Clove → Clove) (d : Device) : (d.clvUpd n f).lko = d.lko := rfl
@[simp] theorem Device.clvUpd_snd (n : CloveNo) (f : Clove → Clove) (d : Device) : (d.clvUpd n f).snd = d.snd := rfl
@[simp] theorem Device.clvUpd_xfr (n : CloveNo) (f : Clove → Clove) (d : Device) : (d.clvUpd n f).xfr = d.xfr := rfl
@[simp] theorem Device.clvUpd_mem (n : CloveNo) (f : Clove → Clove) (d : Device) : (d.clvUpd n f).mem = d.mem := rfl
@[simp] theorem Device.clvUpd_alm (n : CloveNo) (f : Clove → Clove) (d : Device) : (d.clvUpd n f).alm = d.alm := rfl
@[simp] theorem Device.clvUpd_evc (n : CloveNo) (f : Clove → Clove) (d : Device) : (d.clvUpd n f).evc = d.evc := rfl
@[simp] theorem Device.clvUpd_hps (n : CloveNo) (f : Clove → Clove) (d : Device) : (d.clvUpd n f).hps = d.hps := rfl
@[simp] theorem Device.clvUpd_key (n : CloveNo) (f : Clove → Clove) (d : Device) : (d.clvUpd n f).key = d.key := rfl
@[simp] theorem Device.clvUpd_dbg (n : CloveNo) (f : Clove → Clove) (d : Device) : (d.clvUpd n f).dbg = d.dbg := rfl
@[simp] theorem Device.clvUpd_pwr (n : CloveNo) (f : Clove → Clove) (d : Device) : (d.clvUpd n f).pwr = d.pwr := rfl
@[simp] theorem Device.clvUpd_thm (n : CloveNo) (f : Clove → Clove) (d : Device) : (d.clvUpd n f).thm = d.thm := rfl
@[simp] theorem Device.clvUpd_free (n : CloveNo) (f : Clove → Clove) (d : Device) : (d.clvUpd n f).free = d.free := rfl
@[simp] theorem Device.clvUpd_turn (n : CloveNo) (f : Clove → Clove) (d : Device) : (d.clvUpd n f).turn = d.turn := rfl

/-! ## `Device.glkUpd` -/

@[simp] theorem Device.glkUpd_glk (l : LinkNo) (f : Link → Link) (d : Device) :
    (d.glkUpd l f).glk = d.glk.upd l f := rfl
@[simp] theorem Device.glkUpd_keel (l : LinkNo) (f : Link → Link) (d : Device) : (d.glkUpd l f).keel = d.keel := rfl
@[simp] theorem Device.glkUpd_fuses (l : LinkNo) (f : Link → Link) (d : Device) : (d.glkUpd l f).fuses = d.fuses := rfl
@[simp] theorem Device.glkUpd_stb (l : LinkNo) (f : Link → Link) (d : Device) : (d.glkUpd l f).stb = d.stb := rfl
@[simp] theorem Device.glkUpd_port (l : LinkNo) (f : Link → Link) (d : Device) : (d.glkUpd l f).port = d.port := rfl
@[simp] theorem Device.glkUpd_axs (l : LinkNo) (f : Link → Link) (d : Device) : (d.glkUpd l f).axs = d.axs := rfl
@[simp] theorem Device.glkUpd_dr (l : LinkNo) (f : Link → Link) (d : Device) : (d.glkUpd l f).dr = d.dr := rfl
@[simp] theorem Device.glkUpd_chn (l : LinkNo) (f : Link → Link) (d : Device) : (d.glkUpd l f).chn = d.chn := rfl
@[simp] theorem Device.glkUpd_sys (l : LinkNo) (f : Link → Link) (d : Device) : (d.glkUpd l f).sys = d.sys := rfl
@[simp] theorem Device.glkUpd_hlm (l : LinkNo) (f : Link → Link) (d : Device) : (d.glkUpd l f).hlm = d.hlm := rfl
@[simp] theorem Device.glkUpd_clv (l : LinkNo) (f : Link → Link) (d : Device) : (d.glkUpd l f).clv = d.clv := rfl
@[simp] theorem Device.glkUpd_glw (l : LinkNo) (f : Link → Link) (d : Device) : (d.glkUpd l f).glw = d.glw := rfl
@[simp] theorem Device.glkUpd_lko (l : LinkNo) (f : Link → Link) (d : Device) : (d.glkUpd l f).lko = d.lko := rfl
@[simp] theorem Device.glkUpd_snd (l : LinkNo) (f : Link → Link) (d : Device) : (d.glkUpd l f).snd = d.snd := rfl
@[simp] theorem Device.glkUpd_xfr (l : LinkNo) (f : Link → Link) (d : Device) : (d.glkUpd l f).xfr = d.xfr := rfl
@[simp] theorem Device.glkUpd_mem (l : LinkNo) (f : Link → Link) (d : Device) : (d.glkUpd l f).mem = d.mem := rfl
@[simp] theorem Device.glkUpd_alm (l : LinkNo) (f : Link → Link) (d : Device) : (d.glkUpd l f).alm = d.alm := rfl
@[simp] theorem Device.glkUpd_evc (l : LinkNo) (f : Link → Link) (d : Device) : (d.glkUpd l f).evc = d.evc := rfl
@[simp] theorem Device.glkUpd_hps (l : LinkNo) (f : Link → Link) (d : Device) : (d.glkUpd l f).hps = d.hps := rfl
@[simp] theorem Device.glkUpd_key (l : LinkNo) (f : Link → Link) (d : Device) : (d.glkUpd l f).key = d.key := rfl
@[simp] theorem Device.glkUpd_dbg (l : LinkNo) (f : Link → Link) (d : Device) : (d.glkUpd l f).dbg = d.dbg := rfl
@[simp] theorem Device.glkUpd_pwr (l : LinkNo) (f : Link → Link) (d : Device) : (d.glkUpd l f).pwr = d.pwr := rfl
@[simp] theorem Device.glkUpd_thm (l : LinkNo) (f : Link → Link) (d : Device) : (d.glkUpd l f).thm = d.thm := rfl
@[simp] theorem Device.glkUpd_free (l : LinkNo) (f : Link → Link) (d : Device) : (d.glkUpd l f).free = d.free := rfl
@[simp] theorem Device.glkUpd_turn (l : LinkNo) (f : Link → Link) (d : Device) : (d.glkUpd l f).turn = d.turn := rfl

/-! ## `Device.glwUpd` -/

@[simp] theorem Device.glwUpd_glw (l : LinkNo) (f : LinkWork → LinkWork) (d : Device) :
    (d.glwUpd l f).glw = d.glw.upd l f := rfl
@[simp] theorem Device.glwUpd_keel (l : LinkNo) (f : LinkWork → LinkWork) (d : Device) : (d.glwUpd l f).keel = d.keel := rfl
@[simp] theorem Device.glwUpd_fuses (l : LinkNo) (f : LinkWork → LinkWork) (d : Device) : (d.glwUpd l f).fuses = d.fuses := rfl
@[simp] theorem Device.glwUpd_stb (l : LinkNo) (f : LinkWork → LinkWork) (d : Device) : (d.glwUpd l f).stb = d.stb := rfl
@[simp] theorem Device.glwUpd_port (l : LinkNo) (f : LinkWork → LinkWork) (d : Device) : (d.glwUpd l f).port = d.port := rfl
@[simp] theorem Device.glwUpd_axs (l : LinkNo) (f : LinkWork → LinkWork) (d : Device) : (d.glwUpd l f).axs = d.axs := rfl
@[simp] theorem Device.glwUpd_dr (l : LinkNo) (f : LinkWork → LinkWork) (d : Device) : (d.glwUpd l f).dr = d.dr := rfl
@[simp] theorem Device.glwUpd_chn (l : LinkNo) (f : LinkWork → LinkWork) (d : Device) : (d.glwUpd l f).chn = d.chn := rfl
@[simp] theorem Device.glwUpd_sys (l : LinkNo) (f : LinkWork → LinkWork) (d : Device) : (d.glwUpd l f).sys = d.sys := rfl
@[simp] theorem Device.glwUpd_hlm (l : LinkNo) (f : LinkWork → LinkWork) (d : Device) : (d.glwUpd l f).hlm = d.hlm := rfl
@[simp] theorem Device.glwUpd_clv (l : LinkNo) (f : LinkWork → LinkWork) (d : Device) : (d.glwUpd l f).clv = d.clv := rfl
@[simp] theorem Device.glwUpd_glk (l : LinkNo) (f : LinkWork → LinkWork) (d : Device) : (d.glwUpd l f).glk = d.glk := rfl
@[simp] theorem Device.glwUpd_lko (l : LinkNo) (f : LinkWork → LinkWork) (d : Device) : (d.glwUpd l f).lko = d.lko := rfl
@[simp] theorem Device.glwUpd_snd (l : LinkNo) (f : LinkWork → LinkWork) (d : Device) : (d.glwUpd l f).snd = d.snd := rfl
@[simp] theorem Device.glwUpd_xfr (l : LinkNo) (f : LinkWork → LinkWork) (d : Device) : (d.glwUpd l f).xfr = d.xfr := rfl
@[simp] theorem Device.glwUpd_mem (l : LinkNo) (f : LinkWork → LinkWork) (d : Device) : (d.glwUpd l f).mem = d.mem := rfl
@[simp] theorem Device.glwUpd_alm (l : LinkNo) (f : LinkWork → LinkWork) (d : Device) : (d.glwUpd l f).alm = d.alm := rfl
@[simp] theorem Device.glwUpd_evc (l : LinkNo) (f : LinkWork → LinkWork) (d : Device) : (d.glwUpd l f).evc = d.evc := rfl
@[simp] theorem Device.glwUpd_hps (l : LinkNo) (f : LinkWork → LinkWork) (d : Device) : (d.glwUpd l f).hps = d.hps := rfl
@[simp] theorem Device.glwUpd_key (l : LinkNo) (f : LinkWork → LinkWork) (d : Device) : (d.glwUpd l f).key = d.key := rfl
@[simp] theorem Device.glwUpd_dbg (l : LinkNo) (f : LinkWork → LinkWork) (d : Device) : (d.glwUpd l f).dbg = d.dbg := rfl
@[simp] theorem Device.glwUpd_pwr (l : LinkNo) (f : LinkWork → LinkWork) (d : Device) : (d.glwUpd l f).pwr = d.pwr := rfl
@[simp] theorem Device.glwUpd_thm (l : LinkNo) (f : LinkWork → LinkWork) (d : Device) : (d.glwUpd l f).thm = d.thm := rfl
@[simp] theorem Device.glwUpd_free (l : LinkNo) (f : LinkWork → LinkWork) (d : Device) : (d.glwUpd l f).free = d.free := rfl
@[simp] theorem Device.glwUpd_turn (l : LinkNo) (f : LinkWork → LinkWork) (d : Device) : (d.glwUpd l f).turn = d.turn := rfl

/-! ## `Device.lkoUpd` -/

@[simp] theorem Device.lkoUpd_lko (k : LkNo) (f : Lookout → Lookout) (d : Device) :
    (d.lkoUpd k f).lko = d.lko.upd k f := rfl
@[simp] theorem Device.lkoUpd_keel (k : LkNo) (f : Lookout → Lookout) (d : Device) : (d.lkoUpd k f).keel = d.keel := rfl
@[simp] theorem Device.lkoUpd_fuses (k : LkNo) (f : Lookout → Lookout) (d : Device) : (d.lkoUpd k f).fuses = d.fuses := rfl
@[simp] theorem Device.lkoUpd_stb (k : LkNo) (f : Lookout → Lookout) (d : Device) : (d.lkoUpd k f).stb = d.stb := rfl
@[simp] theorem Device.lkoUpd_port (k : LkNo) (f : Lookout → Lookout) (d : Device) : (d.lkoUpd k f).port = d.port := rfl
@[simp] theorem Device.lkoUpd_axs (k : LkNo) (f : Lookout → Lookout) (d : Device) : (d.lkoUpd k f).axs = d.axs := rfl
@[simp] theorem Device.lkoUpd_dr (k : LkNo) (f : Lookout → Lookout) (d : Device) : (d.lkoUpd k f).dr = d.dr := rfl
@[simp] theorem Device.lkoUpd_chn (k : LkNo) (f : Lookout → Lookout) (d : Device) : (d.lkoUpd k f).chn = d.chn := rfl
@[simp] theorem Device.lkoUpd_sys (k : LkNo) (f : Lookout → Lookout) (d : Device) : (d.lkoUpd k f).sys = d.sys := rfl
@[simp] theorem Device.lkoUpd_hlm (k : LkNo) (f : Lookout → Lookout) (d : Device) : (d.lkoUpd k f).hlm = d.hlm := rfl
@[simp] theorem Device.lkoUpd_clv (k : LkNo) (f : Lookout → Lookout) (d : Device) : (d.lkoUpd k f).clv = d.clv := rfl
@[simp] theorem Device.lkoUpd_glk (k : LkNo) (f : Lookout → Lookout) (d : Device) : (d.lkoUpd k f).glk = d.glk := rfl
@[simp] theorem Device.lkoUpd_glw (k : LkNo) (f : Lookout → Lookout) (d : Device) : (d.lkoUpd k f).glw = d.glw := rfl
@[simp] theorem Device.lkoUpd_snd (k : LkNo) (f : Lookout → Lookout) (d : Device) : (d.lkoUpd k f).snd = d.snd := rfl
@[simp] theorem Device.lkoUpd_xfr (k : LkNo) (f : Lookout → Lookout) (d : Device) : (d.lkoUpd k f).xfr = d.xfr := rfl
@[simp] theorem Device.lkoUpd_mem (k : LkNo) (f : Lookout → Lookout) (d : Device) : (d.lkoUpd k f).mem = d.mem := rfl
@[simp] theorem Device.lkoUpd_alm (k : LkNo) (f : Lookout → Lookout) (d : Device) : (d.lkoUpd k f).alm = d.alm := rfl
@[simp] theorem Device.lkoUpd_evc (k : LkNo) (f : Lookout → Lookout) (d : Device) : (d.lkoUpd k f).evc = d.evc := rfl
@[simp] theorem Device.lkoUpd_hps (k : LkNo) (f : Lookout → Lookout) (d : Device) : (d.lkoUpd k f).hps = d.hps := rfl
@[simp] theorem Device.lkoUpd_key (k : LkNo) (f : Lookout → Lookout) (d : Device) : (d.lkoUpd k f).key = d.key := rfl
@[simp] theorem Device.lkoUpd_dbg (k : LkNo) (f : Lookout → Lookout) (d : Device) : (d.lkoUpd k f).dbg = d.dbg := rfl
@[simp] theorem Device.lkoUpd_pwr (k : LkNo) (f : Lookout → Lookout) (d : Device) : (d.lkoUpd k f).pwr = d.pwr := rfl
@[simp] theorem Device.lkoUpd_thm (k : LkNo) (f : Lookout → Lookout) (d : Device) : (d.lkoUpd k f).thm = d.thm := rfl
@[simp] theorem Device.lkoUpd_free (k : LkNo) (f : Lookout → Lookout) (d : Device) : (d.lkoUpd k f).free = d.free := rfl
@[simp] theorem Device.lkoUpd_turn (k : LkNo) (f : Lookout → Lookout) (d : Device) : (d.lkoUpd k f).turn = d.turn := rfl

/-! ## `Device.xcUpd` -/

@[simp] theorem Device.xcUpd_xfr (n : XcNo) (f : Xfer → Xfer) (d : Device) :
    (d.xcUpd n f).xfr = { d.xfr with ch := d.xfr.ch.upd n f } := rfl
@[simp] theorem Device.xcUpd_keel (n : XcNo) (f : Xfer → Xfer) (d : Device) : (d.xcUpd n f).keel = d.keel := rfl
@[simp] theorem Device.xcUpd_fuses (n : XcNo) (f : Xfer → Xfer) (d : Device) : (d.xcUpd n f).fuses = d.fuses := rfl
@[simp] theorem Device.xcUpd_stb (n : XcNo) (f : Xfer → Xfer) (d : Device) : (d.xcUpd n f).stb = d.stb := rfl
@[simp] theorem Device.xcUpd_port (n : XcNo) (f : Xfer → Xfer) (d : Device) : (d.xcUpd n f).port = d.port := rfl
@[simp] theorem Device.xcUpd_axs (n : XcNo) (f : Xfer → Xfer) (d : Device) : (d.xcUpd n f).axs = d.axs := rfl
@[simp] theorem Device.xcUpd_dr (n : XcNo) (f : Xfer → Xfer) (d : Device) : (d.xcUpd n f).dr = d.dr := rfl
@[simp] theorem Device.xcUpd_chn (n : XcNo) (f : Xfer → Xfer) (d : Device) : (d.xcUpd n f).chn = d.chn := rfl
@[simp] theorem Device.xcUpd_sys (n : XcNo) (f : Xfer → Xfer) (d : Device) : (d.xcUpd n f).sys = d.sys := rfl
@[simp] theorem Device.xcUpd_hlm (n : XcNo) (f : Xfer → Xfer) (d : Device) : (d.xcUpd n f).hlm = d.hlm := rfl
@[simp] theorem Device.xcUpd_clv (n : XcNo) (f : Xfer → Xfer) (d : Device) : (d.xcUpd n f).clv = d.clv := rfl
@[simp] theorem Device.xcUpd_glk (n : XcNo) (f : Xfer → Xfer) (d : Device) : (d.xcUpd n f).glk = d.glk := rfl
@[simp] theorem Device.xcUpd_glw (n : XcNo) (f : Xfer → Xfer) (d : Device) : (d.xcUpd n f).glw = d.glw := rfl
@[simp] theorem Device.xcUpd_lko (n : XcNo) (f : Xfer → Xfer) (d : Device) : (d.xcUpd n f).lko = d.lko := rfl
@[simp] theorem Device.xcUpd_snd (n : XcNo) (f : Xfer → Xfer) (d : Device) : (d.xcUpd n f).snd = d.snd := rfl
@[simp] theorem Device.xcUpd_mem (n : XcNo) (f : Xfer → Xfer) (d : Device) : (d.xcUpd n f).mem = d.mem := rfl
@[simp] theorem Device.xcUpd_alm (n : XcNo) (f : Xfer → Xfer) (d : Device) : (d.xcUpd n f).alm = d.alm := rfl
@[simp] theorem Device.xcUpd_evc (n : XcNo) (f : Xfer → Xfer) (d : Device) : (d.xcUpd n f).evc = d.evc := rfl
@[simp] theorem Device.xcUpd_hps (n : XcNo) (f : Xfer → Xfer) (d : Device) : (d.xcUpd n f).hps = d.hps := rfl
@[simp] theorem Device.xcUpd_key (n : XcNo) (f : Xfer → Xfer) (d : Device) : (d.xcUpd n f).key = d.key := rfl
@[simp] theorem Device.xcUpd_dbg (n : XcNo) (f : Xfer → Xfer) (d : Device) : (d.xcUpd n f).dbg = d.dbg := rfl
@[simp] theorem Device.xcUpd_pwr (n : XcNo) (f : Xfer → Xfer) (d : Device) : (d.xcUpd n f).pwr = d.pwr := rfl
@[simp] theorem Device.xcUpd_thm (n : XcNo) (f : Xfer → Xfer) (d : Device) : (d.xcUpd n f).thm = d.thm := rfl
@[simp] theorem Device.xcUpd_free (n : XcNo) (f : Xfer → Xfer) (d : Device) : (d.xcUpd n f).free = d.free := rfl
@[simp] theorem Device.xcUpd_turn (n : XcNo) (f : Xfer → Xfer) (d : Device) : (d.xcUpd n f).turn = d.turn := rfl

/-! ## `Device.bankUpd` -/

@[simp] theorem Device.bankUpd_mem (b : BankNo) (f : Bank → Bank) (d : Device) :
    (d.bankUpd b f).mem = { d.mem with bank := d.mem.bank.upd b f } := rfl
@[simp] theorem Device.bankUpd_keel (b : BankNo) (f : Bank → Bank) (d : Device) : (d.bankUpd b f).keel = d.keel := rfl
@[simp] theorem Device.bankUpd_fuses (b : BankNo) (f : Bank → Bank) (d : Device) : (d.bankUpd b f).fuses = d.fuses := rfl
@[simp] theorem Device.bankUpd_stb (b : BankNo) (f : Bank → Bank) (d : Device) : (d.bankUpd b f).stb = d.stb := rfl
@[simp] theorem Device.bankUpd_port (b : BankNo) (f : Bank → Bank) (d : Device) : (d.bankUpd b f).port = d.port := rfl
@[simp] theorem Device.bankUpd_axs (b : BankNo) (f : Bank → Bank) (d : Device) : (d.bankUpd b f).axs = d.axs := rfl
@[simp] theorem Device.bankUpd_dr (b : BankNo) (f : Bank → Bank) (d : Device) : (d.bankUpd b f).dr = d.dr := rfl
@[simp] theorem Device.bankUpd_chn (b : BankNo) (f : Bank → Bank) (d : Device) : (d.bankUpd b f).chn = d.chn := rfl
@[simp] theorem Device.bankUpd_sys (b : BankNo) (f : Bank → Bank) (d : Device) : (d.bankUpd b f).sys = d.sys := rfl
@[simp] theorem Device.bankUpd_hlm (b : BankNo) (f : Bank → Bank) (d : Device) : (d.bankUpd b f).hlm = d.hlm := rfl
@[simp] theorem Device.bankUpd_clv (b : BankNo) (f : Bank → Bank) (d : Device) : (d.bankUpd b f).clv = d.clv := rfl
@[simp] theorem Device.bankUpd_glk (b : BankNo) (f : Bank → Bank) (d : Device) : (d.bankUpd b f).glk = d.glk := rfl
@[simp] theorem Device.bankUpd_glw (b : BankNo) (f : Bank → Bank) (d : Device) : (d.bankUpd b f).glw = d.glw := rfl
@[simp] theorem Device.bankUpd_lko (b : BankNo) (f : Bank → Bank) (d : Device) : (d.bankUpd b f).lko = d.lko := rfl
@[simp] theorem Device.bankUpd_snd (b : BankNo) (f : Bank → Bank) (d : Device) : (d.bankUpd b f).snd = d.snd := rfl
@[simp] theorem Device.bankUpd_xfr (b : BankNo) (f : Bank → Bank) (d : Device) : (d.bankUpd b f).xfr = d.xfr := rfl
@[simp] theorem Device.bankUpd_alm (b : BankNo) (f : Bank → Bank) (d : Device) : (d.bankUpd b f).alm = d.alm := rfl
@[simp] theorem Device.bankUpd_evc (b : BankNo) (f : Bank → Bank) (d : Device) : (d.bankUpd b f).evc = d.evc := rfl
@[simp] theorem Device.bankUpd_hps (b : BankNo) (f : Bank → Bank) (d : Device) : (d.bankUpd b f).hps = d.hps := rfl
@[simp] theorem Device.bankUpd_key (b : BankNo) (f : Bank → Bank) (d : Device) : (d.bankUpd b f).key = d.key := rfl
@[simp] theorem Device.bankUpd_dbg (b : BankNo) (f : Bank → Bank) (d : Device) : (d.bankUpd b f).dbg = d.dbg := rfl
@[simp] theorem Device.bankUpd_pwr (b : BankNo) (f : Bank → Bank) (d : Device) : (d.bankUpd b f).pwr = d.pwr := rfl
@[simp] theorem Device.bankUpd_thm (b : BankNo) (f : Bank → Bank) (d : Device) : (d.bankUpd b f).thm = d.thm := rfl
@[simp] theorem Device.bankUpd_free (b : BankNo) (f : Bank → Bank) (d : Device) : (d.bankUpd b f).free = d.free := rfl
@[simp] theorem Device.bankUpd_turn (b : BankNo) (f : Bank → Bank) (d : Device) : (d.bankUpd b f).turn = d.turn := rfl

/-! ## `Device.tabUpd` -/

@[simp] theorem Device.tabUpd_alm (n : TableNo) (f : ATable → ATable) (d : Device) :
    (d.tabUpd n f).alm = d.alm.upd n f := rfl
@[simp] theorem Device.tabUpd_keel (n : TableNo) (f : ATable → ATable) (d : Device) : (d.tabUpd n f).keel = d.keel := rfl
@[simp] theorem Device.tabUpd_fuses (n : TableNo) (f : ATable → ATable) (d : Device) : (d.tabUpd n f).fuses = d.fuses := rfl
@[simp] theorem Device.tabUpd_stb (n : TableNo) (f : ATable → ATable) (d : Device) : (d.tabUpd n f).stb = d.stb := rfl
@[simp] theorem Device.tabUpd_port (n : TableNo) (f : ATable → ATable) (d : Device) : (d.tabUpd n f).port = d.port := rfl
@[simp] theorem Device.tabUpd_axs (n : TableNo) (f : ATable → ATable) (d : Device) : (d.tabUpd n f).axs = d.axs := rfl
@[simp] theorem Device.tabUpd_dr (n : TableNo) (f : ATable → ATable) (d : Device) : (d.tabUpd n f).dr = d.dr := rfl
@[simp] theorem Device.tabUpd_chn (n : TableNo) (f : ATable → ATable) (d : Device) : (d.tabUpd n f).chn = d.chn := rfl
@[simp] theorem Device.tabUpd_sys (n : TableNo) (f : ATable → ATable) (d : Device) : (d.tabUpd n f).sys = d.sys := rfl
@[simp] theorem Device.tabUpd_hlm (n : TableNo) (f : ATable → ATable) (d : Device) : (d.tabUpd n f).hlm = d.hlm := rfl
@[simp] theorem Device.tabUpd_clv (n : TableNo) (f : ATable → ATable) (d : Device) : (d.tabUpd n f).clv = d.clv := rfl
@[simp] theorem Device.tabUpd_glk (n : TableNo) (f : ATable → ATable) (d : Device) : (d.tabUpd n f).glk = d.glk := rfl
@[simp] theorem Device.tabUpd_glw (n : TableNo) (f : ATable → ATable) (d : Device) : (d.tabUpd n f).glw = d.glw := rfl
@[simp] theorem Device.tabUpd_lko (n : TableNo) (f : ATable → ATable) (d : Device) : (d.tabUpd n f).lko = d.lko := rfl
@[simp] theorem Device.tabUpd_snd (n : TableNo) (f : ATable → ATable) (d : Device) : (d.tabUpd n f).snd = d.snd := rfl
@[simp] theorem Device.tabUpd_xfr (n : TableNo) (f : ATable → ATable) (d : Device) : (d.tabUpd n f).xfr = d.xfr := rfl
@[simp] theorem Device.tabUpd_mem (n : TableNo) (f : ATable → ATable) (d : Device) : (d.tabUpd n f).mem = d.mem := rfl
@[simp] theorem Device.tabUpd_evc (n : TableNo) (f : ATable → ATable) (d : Device) : (d.tabUpd n f).evc = d.evc := rfl
@[simp] theorem Device.tabUpd_hps (n : TableNo) (f : ATable → ATable) (d : Device) : (d.tabUpd n f).hps = d.hps := rfl
@[simp] theorem Device.tabUpd_key (n : TableNo) (f : ATable → ATable) (d : Device) : (d.tabUpd n f).key = d.key := rfl
@[simp] theorem Device.tabUpd_dbg (n : TableNo) (f : ATable → ATable) (d : Device) : (d.tabUpd n f).dbg = d.dbg := rfl
@[simp] theorem Device.tabUpd_pwr (n : TableNo) (f : ATable → ATable) (d : Device) : (d.tabUpd n f).pwr = d.pwr := rfl
@[simp] theorem Device.tabUpd_thm (n : TableNo) (f : ATable → ATable) (d : Device) : (d.tabUpd n f).thm = d.thm := rfl
@[simp] theorem Device.tabUpd_free (n : TableNo) (f : ATable → ATable) (d : Device) : (d.tabUpd n f).free = d.free := rfl
@[simp] theorem Device.tabUpd_turn (n : TableNo) (f : ATable → ATable) (d : Device) : (d.tabUpd n f).turn = d.turn := rfl

/-! ## `Device.srcUpd` -/

@[simp] theorem Device.srcUpd_evc (s : SourceNo) (f : Source → Source) (d : Device) :
    (d.srcUpd s f).evc = { d.evc with src := d.evc.src.upd s f } := rfl
@[simp] theorem Device.srcUpd_keel (s : SourceNo) (f : Source → Source) (d : Device) : (d.srcUpd s f).keel = d.keel := rfl
@[simp] theorem Device.srcUpd_fuses (s : SourceNo) (f : Source → Source) (d : Device) : (d.srcUpd s f).fuses = d.fuses := rfl
@[simp] theorem Device.srcUpd_stb (s : SourceNo) (f : Source → Source) (d : Device) : (d.srcUpd s f).stb = d.stb := rfl
@[simp] theorem Device.srcUpd_port (s : SourceNo) (f : Source → Source) (d : Device) : (d.srcUpd s f).port = d.port := rfl
@[simp] theorem Device.srcUpd_axs (s : SourceNo) (f : Source → Source) (d : Device) : (d.srcUpd s f).axs = d.axs := rfl
@[simp] theorem Device.srcUpd_dr (s : SourceNo) (f : Source → Source) (d : Device) : (d.srcUpd s f).dr = d.dr := rfl
@[simp] theorem Device.srcUpd_chn (s : SourceNo) (f : Source → Source) (d : Device) : (d.srcUpd s f).chn = d.chn := rfl
@[simp] theorem Device.srcUpd_sys (s : SourceNo) (f : Source → Source) (d : Device) : (d.srcUpd s f).sys = d.sys := rfl
@[simp] theorem Device.srcUpd_hlm (s : SourceNo) (f : Source → Source) (d : Device) : (d.srcUpd s f).hlm = d.hlm := rfl
@[simp] theorem Device.srcUpd_clv (s : SourceNo) (f : Source → Source) (d : Device) : (d.srcUpd s f).clv = d.clv := rfl
@[simp] theorem Device.srcUpd_glk (s : SourceNo) (f : Source → Source) (d : Device) : (d.srcUpd s f).glk = d.glk := rfl
@[simp] theorem Device.srcUpd_glw (s : SourceNo) (f : Source → Source) (d : Device) : (d.srcUpd s f).glw = d.glw := rfl
@[simp] theorem Device.srcUpd_lko (s : SourceNo) (f : Source → Source) (d : Device) : (d.srcUpd s f).lko = d.lko := rfl
@[simp] theorem Device.srcUpd_snd (s : SourceNo) (f : Source → Source) (d : Device) : (d.srcUpd s f).snd = d.snd := rfl
@[simp] theorem Device.srcUpd_xfr (s : SourceNo) (f : Source → Source) (d : Device) : (d.srcUpd s f).xfr = d.xfr := rfl
@[simp] theorem Device.srcUpd_mem (s : SourceNo) (f : Source → Source) (d : Device) : (d.srcUpd s f).mem = d.mem := rfl
@[simp] theorem Device.srcUpd_alm (s : SourceNo) (f : Source → Source) (d : Device) : (d.srcUpd s f).alm = d.alm := rfl
@[simp] theorem Device.srcUpd_hps (s : SourceNo) (f : Source → Source) (d : Device) : (d.srcUpd s f).hps = d.hps := rfl
@[simp] theorem Device.srcUpd_key (s : SourceNo) (f : Source → Source) (d : Device) : (d.srcUpd s f).key = d.key := rfl
@[simp] theorem Device.srcUpd_dbg (s : SourceNo) (f : Source → Source) (d : Device) : (d.srcUpd s f).dbg = d.dbg := rfl
@[simp] theorem Device.srcUpd_pwr (s : SourceNo) (f : Source → Source) (d : Device) : (d.srcUpd s f).pwr = d.pwr := rfl
@[simp] theorem Device.srcUpd_thm (s : SourceNo) (f : Source → Source) (d : Device) : (d.srcUpd s f).thm = d.thm := rfl
@[simp] theorem Device.srcUpd_free (s : SourceNo) (f : Source → Source) (d : Device) : (d.srcUpd s f).free = d.free := rfl
@[simp] theorem Device.srcUpd_turn (s : SourceNo) (f : Source → Source) (d : Device) : (d.srcUpd s f).turn = d.turn := rfl

/-! ## `Device.progUpd` -/

@[simp] theorem Device.progUpd_chn (c : Chan) (f : Prog → Prog) (d : Device) :
    (d.progUpd c f).chn = d.chn.upd c (fun h => { h with prog := f h.prog }) := rfl
@[simp] theorem Device.progUpd_keel (c : Chan) (f : Prog → Prog) (d : Device) : (d.progUpd c f).keel = d.keel := rfl
@[simp] theorem Device.progUpd_fuses (c : Chan) (f : Prog → Prog) (d : Device) : (d.progUpd c f).fuses = d.fuses := rfl
@[simp] theorem Device.progUpd_stb (c : Chan) (f : Prog → Prog) (d : Device) : (d.progUpd c f).stb = d.stb := rfl
@[simp] theorem Device.progUpd_port (c : Chan) (f : Prog → Prog) (d : Device) : (d.progUpd c f).port = d.port := rfl
@[simp] theorem Device.progUpd_axs (c : Chan) (f : Prog → Prog) (d : Device) : (d.progUpd c f).axs = d.axs := rfl
@[simp] theorem Device.progUpd_dr (c : Chan) (f : Prog → Prog) (d : Device) : (d.progUpd c f).dr = d.dr := rfl
@[simp] theorem Device.progUpd_sys (c : Chan) (f : Prog → Prog) (d : Device) : (d.progUpd c f).sys = d.sys := rfl
@[simp] theorem Device.progUpd_hlm (c : Chan) (f : Prog → Prog) (d : Device) : (d.progUpd c f).hlm = d.hlm := rfl
@[simp] theorem Device.progUpd_clv (c : Chan) (f : Prog → Prog) (d : Device) : (d.progUpd c f).clv = d.clv := rfl
@[simp] theorem Device.progUpd_glk (c : Chan) (f : Prog → Prog) (d : Device) : (d.progUpd c f).glk = d.glk := rfl
@[simp] theorem Device.progUpd_glw (c : Chan) (f : Prog → Prog) (d : Device) : (d.progUpd c f).glw = d.glw := rfl
@[simp] theorem Device.progUpd_lko (c : Chan) (f : Prog → Prog) (d : Device) : (d.progUpd c f).lko = d.lko := rfl
@[simp] theorem Device.progUpd_snd (c : Chan) (f : Prog → Prog) (d : Device) : (d.progUpd c f).snd = d.snd := rfl
@[simp] theorem Device.progUpd_xfr (c : Chan) (f : Prog → Prog) (d : Device) : (d.progUpd c f).xfr = d.xfr := rfl
@[simp] theorem Device.progUpd_mem (c : Chan) (f : Prog → Prog) (d : Device) : (d.progUpd c f).mem = d.mem := rfl
@[simp] theorem Device.progUpd_alm (c : Chan) (f : Prog → Prog) (d : Device) : (d.progUpd c f).alm = d.alm := rfl
@[simp] theorem Device.progUpd_evc (c : Chan) (f : Prog → Prog) (d : Device) : (d.progUpd c f).evc = d.evc := rfl
@[simp] theorem Device.progUpd_hps (c : Chan) (f : Prog → Prog) (d : Device) : (d.progUpd c f).hps = d.hps := rfl
@[simp] theorem Device.progUpd_key (c : Chan) (f : Prog → Prog) (d : Device) : (d.progUpd c f).key = d.key := rfl
@[simp] theorem Device.progUpd_dbg (c : Chan) (f : Prog → Prog) (d : Device) : (d.progUpd c f).dbg = d.dbg := rfl
@[simp] theorem Device.progUpd_pwr (c : Chan) (f : Prog → Prog) (d : Device) : (d.progUpd c f).pwr = d.pwr := rfl
@[simp] theorem Device.progUpd_thm (c : Chan) (f : Prog → Prog) (d : Device) : (d.progUpd c f).thm = d.thm := rfl
@[simp] theorem Device.progUpd_free (c : Chan) (f : Prog → Prog) (d : Device) : (d.progUpd c f).free = d.free := rfl
@[simp] theorem Device.progUpd_turn (c : Chan) (f : Prog → Prog) (d : Device) : (d.progUpd c f).turn = d.turn := rfl

/-! ## `Device.cfgUpd` -/

@[simp] theorem Device.cfgUpd_chn (c : Chan) (f : ChnCfg → ChnCfg) (d : Device) :
    (d.cfgUpd c f).chn = d.chn.upd c (fun h => { h with cfg := f h.cfg }) := rfl
@[simp] theorem Device.cfgUpd_keel (c : Chan) (f : ChnCfg → ChnCfg) (d : Device) : (d.cfgUpd c f).keel = d.keel := rfl
@[simp] theorem Device.cfgUpd_fuses (c : Chan) (f : ChnCfg → ChnCfg) (d : Device) : (d.cfgUpd c f).fuses = d.fuses := rfl
@[simp] theorem Device.cfgUpd_stb (c : Chan) (f : ChnCfg → ChnCfg) (d : Device) : (d.cfgUpd c f).stb = d.stb := rfl
@[simp] theorem Device.cfgUpd_port (c : Chan) (f : ChnCfg → ChnCfg) (d : Device) : (d.cfgUpd c f).port = d.port := rfl
@[simp] theorem Device.cfgUpd_axs (c : Chan) (f : ChnCfg → ChnCfg) (d : Device) : (d.cfgUpd c f).axs = d.axs := rfl
@[simp] theorem Device.cfgUpd_dr (c : Chan) (f : ChnCfg → ChnCfg) (d : Device) : (d.cfgUpd c f).dr = d.dr := rfl
@[simp] theorem Device.cfgUpd_sys (c : Chan) (f : ChnCfg → ChnCfg) (d : Device) : (d.cfgUpd c f).sys = d.sys := rfl
@[simp] theorem Device.cfgUpd_hlm (c : Chan) (f : ChnCfg → ChnCfg) (d : Device) : (d.cfgUpd c f).hlm = d.hlm := rfl
@[simp] theorem Device.cfgUpd_clv (c : Chan) (f : ChnCfg → ChnCfg) (d : Device) : (d.cfgUpd c f).clv = d.clv := rfl
@[simp] theorem Device.cfgUpd_glk (c : Chan) (f : ChnCfg → ChnCfg) (d : Device) : (d.cfgUpd c f).glk = d.glk := rfl
@[simp] theorem Device.cfgUpd_glw (c : Chan) (f : ChnCfg → ChnCfg) (d : Device) : (d.cfgUpd c f).glw = d.glw := rfl
@[simp] theorem Device.cfgUpd_lko (c : Chan) (f : ChnCfg → ChnCfg) (d : Device) : (d.cfgUpd c f).lko = d.lko := rfl
@[simp] theorem Device.cfgUpd_snd (c : Chan) (f : ChnCfg → ChnCfg) (d : Device) : (d.cfgUpd c f).snd = d.snd := rfl
@[simp] theorem Device.cfgUpd_xfr (c : Chan) (f : ChnCfg → ChnCfg) (d : Device) : (d.cfgUpd c f).xfr = d.xfr := rfl
@[simp] theorem Device.cfgUpd_mem (c : Chan) (f : ChnCfg → ChnCfg) (d : Device) : (d.cfgUpd c f).mem = d.mem := rfl
@[simp] theorem Device.cfgUpd_alm (c : Chan) (f : ChnCfg → ChnCfg) (d : Device) : (d.cfgUpd c f).alm = d.alm := rfl
@[simp] theorem Device.cfgUpd_evc (c : Chan) (f : ChnCfg → ChnCfg) (d : Device) : (d.cfgUpd c f).evc = d.evc := rfl
@[simp] theorem Device.cfgUpd_hps (c : Chan) (f : ChnCfg → ChnCfg) (d : Device) : (d.cfgUpd c f).hps = d.hps := rfl
@[simp] theorem Device.cfgUpd_key (c : Chan) (f : ChnCfg → ChnCfg) (d : Device) : (d.cfgUpd c f).key = d.key := rfl
@[simp] theorem Device.cfgUpd_dbg (c : Chan) (f : ChnCfg → ChnCfg) (d : Device) : (d.cfgUpd c f).dbg = d.dbg := rfl
@[simp] theorem Device.cfgUpd_pwr (c : Chan) (f : ChnCfg → ChnCfg) (d : Device) : (d.cfgUpd c f).pwr = d.pwr := rfl
@[simp] theorem Device.cfgUpd_thm (c : Chan) (f : ChnCfg → ChnCfg) (d : Device) : (d.cfgUpd c f).thm = d.thm := rfl
@[simp] theorem Device.cfgUpd_free (c : Chan) (f : ChnCfg → ChnCfg) (d : Device) : (d.cfgUpd c f).free = d.free := rfl
@[simp] theorem Device.cfgUpd_turn (c : Chan) (f : ChnCfg → ChnCfg) (d : Device) : (d.cfgUpd c f).turn = d.turn := rfl

/-! ## `Device.statUpd` -/

@[simp] theorem Device.statUpd_chn (c : Chan) (f : ChnStat → ChnStat) (d : Device) :
    (d.statUpd c f).chn = d.chn.upd c (fun h => { h with stat := f h.stat }) := rfl
@[simp] theorem Device.statUpd_keel (c : Chan) (f : ChnStat → ChnStat) (d : Device) : (d.statUpd c f).keel = d.keel := rfl
@[simp] theorem Device.statUpd_fuses (c : Chan) (f : ChnStat → ChnStat) (d : Device) : (d.statUpd c f).fuses = d.fuses := rfl
@[simp] theorem Device.statUpd_stb (c : Chan) (f : ChnStat → ChnStat) (d : Device) : (d.statUpd c f).stb = d.stb := rfl
@[simp] theorem Device.statUpd_port (c : Chan) (f : ChnStat → ChnStat) (d : Device) : (d.statUpd c f).port = d.port := rfl
@[simp] theorem Device.statUpd_axs (c : Chan) (f : ChnStat → ChnStat) (d : Device) : (d.statUpd c f).axs = d.axs := rfl
@[simp] theorem Device.statUpd_dr (c : Chan) (f : ChnStat → ChnStat) (d : Device) : (d.statUpd c f).dr = d.dr := rfl
@[simp] theorem Device.statUpd_sys (c : Chan) (f : ChnStat → ChnStat) (d : Device) : (d.statUpd c f).sys = d.sys := rfl
@[simp] theorem Device.statUpd_hlm (c : Chan) (f : ChnStat → ChnStat) (d : Device) : (d.statUpd c f).hlm = d.hlm := rfl
@[simp] theorem Device.statUpd_clv (c : Chan) (f : ChnStat → ChnStat) (d : Device) : (d.statUpd c f).clv = d.clv := rfl
@[simp] theorem Device.statUpd_glk (c : Chan) (f : ChnStat → ChnStat) (d : Device) : (d.statUpd c f).glk = d.glk := rfl
@[simp] theorem Device.statUpd_glw (c : Chan) (f : ChnStat → ChnStat) (d : Device) : (d.statUpd c f).glw = d.glw := rfl
@[simp] theorem Device.statUpd_lko (c : Chan) (f : ChnStat → ChnStat) (d : Device) : (d.statUpd c f).lko = d.lko := rfl
@[simp] theorem Device.statUpd_snd (c : Chan) (f : ChnStat → ChnStat) (d : Device) : (d.statUpd c f).snd = d.snd := rfl
@[simp] theorem Device.statUpd_xfr (c : Chan) (f : ChnStat → ChnStat) (d : Device) : (d.statUpd c f).xfr = d.xfr := rfl
@[simp] theorem Device.statUpd_mem (c : Chan) (f : ChnStat → ChnStat) (d : Device) : (d.statUpd c f).mem = d.mem := rfl
@[simp] theorem Device.statUpd_alm (c : Chan) (f : ChnStat → ChnStat) (d : Device) : (d.statUpd c f).alm = d.alm := rfl
@[simp] theorem Device.statUpd_evc (c : Chan) (f : ChnStat → ChnStat) (d : Device) : (d.statUpd c f).evc = d.evc := rfl
@[simp] theorem Device.statUpd_hps (c : Chan) (f : ChnStat → ChnStat) (d : Device) : (d.statUpd c f).hps = d.hps := rfl
@[simp] theorem Device.statUpd_key (c : Chan) (f : ChnStat → ChnStat) (d : Device) : (d.statUpd c f).key = d.key := rfl
@[simp] theorem Device.statUpd_dbg (c : Chan) (f : ChnStat → ChnStat) (d : Device) : (d.statUpd c f).dbg = d.dbg := rfl
@[simp] theorem Device.statUpd_pwr (c : Chan) (f : ChnStat → ChnStat) (d : Device) : (d.statUpd c f).pwr = d.pwr := rfl
@[simp] theorem Device.statUpd_thm (c : Chan) (f : ChnStat → ChnStat) (d : Device) : (d.statUpd c f).thm = d.thm := rfl
@[simp] theorem Device.statUpd_free (c : Chan) (f : ChnStat → ChnStat) (d : Device) : (d.statUpd c f).free = d.free := rfl
@[simp] theorem Device.statUpd_turn (c : Chan) (f : ChnStat → ChnStat) (d : Device) : (d.statUpd c f).turn = d.turn := rfl

/-! ## `Device.pinUpd` -/

@[simp] theorem Device.pinUpd_chn (c : Chan) (f : PinCell → PinCell) (d : Device) :
    (d.pinUpd c f).chn = d.chn.upd c (fun h => { h with pin := f h.pin }) := rfl
@[simp] theorem Device.pinUpd_keel (c : Chan) (f : PinCell → PinCell) (d : Device) : (d.pinUpd c f).keel = d.keel := rfl
@[simp] theorem Device.pinUpd_fuses (c : Chan) (f : PinCell → PinCell) (d : Device) : (d.pinUpd c f).fuses = d.fuses := rfl
@[simp] theorem Device.pinUpd_stb (c : Chan) (f : PinCell → PinCell) (d : Device) : (d.pinUpd c f).stb = d.stb := rfl
@[simp] theorem Device.pinUpd_port (c : Chan) (f : PinCell → PinCell) (d : Device) : (d.pinUpd c f).port = d.port := rfl
@[simp] theorem Device.pinUpd_axs (c : Chan) (f : PinCell → PinCell) (d : Device) : (d.pinUpd c f).axs = d.axs := rfl
@[simp] theorem Device.pinUpd_dr (c : Chan) (f : PinCell → PinCell) (d : Device) : (d.pinUpd c f).dr = d.dr := rfl
@[simp] theorem Device.pinUpd_sys (c : Chan) (f : PinCell → PinCell) (d : Device) : (d.pinUpd c f).sys = d.sys := rfl
@[simp] theorem Device.pinUpd_hlm (c : Chan) (f : PinCell → PinCell) (d : Device) : (d.pinUpd c f).hlm = d.hlm := rfl
@[simp] theorem Device.pinUpd_clv (c : Chan) (f : PinCell → PinCell) (d : Device) : (d.pinUpd c f).clv = d.clv := rfl
@[simp] theorem Device.pinUpd_glk (c : Chan) (f : PinCell → PinCell) (d : Device) : (d.pinUpd c f).glk = d.glk := rfl
@[simp] theorem Device.pinUpd_glw (c : Chan) (f : PinCell → PinCell) (d : Device) : (d.pinUpd c f).glw = d.glw := rfl
@[simp] theorem Device.pinUpd_lko (c : Chan) (f : PinCell → PinCell) (d : Device) : (d.pinUpd c f).lko = d.lko := rfl
@[simp] theorem Device.pinUpd_snd (c : Chan) (f : PinCell → PinCell) (d : Device) : (d.pinUpd c f).snd = d.snd := rfl
@[simp] theorem Device.pinUpd_xfr (c : Chan) (f : PinCell → PinCell) (d : Device) : (d.pinUpd c f).xfr = d.xfr := rfl
@[simp] theorem Device.pinUpd_mem (c : Chan) (f : PinCell → PinCell) (d : Device) : (d.pinUpd c f).mem = d.mem := rfl
@[simp] theorem Device.pinUpd_alm (c : Chan) (f : PinCell → PinCell) (d : Device) : (d.pinUpd c f).alm = d.alm := rfl
@[simp] theorem Device.pinUpd_evc (c : Chan) (f : PinCell → PinCell) (d : Device) : (d.pinUpd c f).evc = d.evc := rfl
@[simp] theorem Device.pinUpd_hps (c : Chan) (f : PinCell → PinCell) (d : Device) : (d.pinUpd c f).hps = d.hps := rfl
@[simp] theorem Device.pinUpd_key (c : Chan) (f : PinCell → PinCell) (d : Device) : (d.pinUpd c f).key = d.key := rfl
@[simp] theorem Device.pinUpd_dbg (c : Chan) (f : PinCell → PinCell) (d : Device) : (d.pinUpd c f).dbg = d.dbg := rfl
@[simp] theorem Device.pinUpd_pwr (c : Chan) (f : PinCell → PinCell) (d : Device) : (d.pinUpd c f).pwr = d.pwr := rfl
@[simp] theorem Device.pinUpd_thm (c : Chan) (f : PinCell → PinCell) (d : Device) : (d.pinUpd c f).thm = d.thm := rfl
@[simp] theorem Device.pinUpd_free (c : Chan) (f : PinCell → PinCell) (d : Device) : (d.pinUpd c f).free = d.free := rfl
@[simp] theorem Device.pinUpd_turn (c : Chan) (f : PinCell → PinCell) (d : Device) : (d.pinUpd c f).turn = d.turn := rfl

/-! ## `Device.estUpd` -/

@[simp] theorem Device.estUpd_axs (a : Axis) (f : AxEst → AxEst) (d : Device) :
    (d.estUpd a f).axs = d.axs.upd a (fun x => { x with est := f x.est }) := rfl
@[simp] theorem Device.estUpd_keel (a : Axis) (f : AxEst → AxEst) (d : Device) : (d.estUpd a f).keel = d.keel := rfl
@[simp] theorem Device.estUpd_fuses (a : Axis) (f : AxEst → AxEst) (d : Device) : (d.estUpd a f).fuses = d.fuses := rfl
@[simp] theorem Device.estUpd_stb (a : Axis) (f : AxEst → AxEst) (d : Device) : (d.estUpd a f).stb = d.stb := rfl
@[simp] theorem Device.estUpd_port (a : Axis) (f : AxEst → AxEst) (d : Device) : (d.estUpd a f).port = d.port := rfl
@[simp] theorem Device.estUpd_dr (a : Axis) (f : AxEst → AxEst) (d : Device) : (d.estUpd a f).dr = d.dr := rfl
@[simp] theorem Device.estUpd_chn (a : Axis) (f : AxEst → AxEst) (d : Device) : (d.estUpd a f).chn = d.chn := rfl
@[simp] theorem Device.estUpd_sys (a : Axis) (f : AxEst → AxEst) (d : Device) : (d.estUpd a f).sys = d.sys := rfl
@[simp] theorem Device.estUpd_hlm (a : Axis) (f : AxEst → AxEst) (d : Device) : (d.estUpd a f).hlm = d.hlm := rfl
@[simp] theorem Device.estUpd_clv (a : Axis) (f : AxEst → AxEst) (d : Device) : (d.estUpd a f).clv = d.clv := rfl
@[simp] theorem Device.estUpd_glk (a : Axis) (f : AxEst → AxEst) (d : Device) : (d.estUpd a f).glk = d.glk := rfl
@[simp] theorem Device.estUpd_glw (a : Axis) (f : AxEst → AxEst) (d : Device) : (d.estUpd a f).glw = d.glw := rfl
@[simp] theorem Device.estUpd_lko (a : Axis) (f : AxEst → AxEst) (d : Device) : (d.estUpd a f).lko = d.lko := rfl
@[simp] theorem Device.estUpd_snd (a : Axis) (f : AxEst → AxEst) (d : Device) : (d.estUpd a f).snd = d.snd := rfl
@[simp] theorem Device.estUpd_xfr (a : Axis) (f : AxEst → AxEst) (d : Device) : (d.estUpd a f).xfr = d.xfr := rfl
@[simp] theorem Device.estUpd_mem (a : Axis) (f : AxEst → AxEst) (d : Device) : (d.estUpd a f).mem = d.mem := rfl
@[simp] theorem Device.estUpd_alm (a : Axis) (f : AxEst → AxEst) (d : Device) : (d.estUpd a f).alm = d.alm := rfl
@[simp] theorem Device.estUpd_evc (a : Axis) (f : AxEst → AxEst) (d : Device) : (d.estUpd a f).evc = d.evc := rfl
@[simp] theorem Device.estUpd_hps (a : Axis) (f : AxEst → AxEst) (d : Device) : (d.estUpd a f).hps = d.hps := rfl
@[simp] theorem Device.estUpd_key (a : Axis) (f : AxEst → AxEst) (d : Device) : (d.estUpd a f).key = d.key := rfl
@[simp] theorem Device.estUpd_dbg (a : Axis) (f : AxEst → AxEst) (d : Device) : (d.estUpd a f).dbg = d.dbg := rfl
@[simp] theorem Device.estUpd_pwr (a : Axis) (f : AxEst → AxEst) (d : Device) : (d.estUpd a f).pwr = d.pwr := rfl
@[simp] theorem Device.estUpd_thm (a : Axis) (f : AxEst → AxEst) (d : Device) : (d.estUpd a f).thm = d.thm := rfl
@[simp] theorem Device.estUpd_free (a : Axis) (f : AxEst → AxEst) (d : Device) : (d.estUpd a f).free = d.free := rfl
@[simp] theorem Device.estUpd_turn (a : Axis) (f : AxEst → AxEst) (d : Device) : (d.estUpd a f).turn = d.turn := rfl

/-! ## `Core` and `State` -/

@[simp] theorem Core.mapDev_dev (f : Device → Device) (c : Core) : (c.mapDev f).dev = f c.dev := rfl
@[simp] theorem Core.mapDev_ram (f : Device → Device) (c : Core) : (c.mapDev f).ram = c.ram := rfl
@[simp] theorem Core.mapRam_dev (f : Ram → Ram) (c : Core) : (c.mapRam f).dev = c.dev := rfl
@[simp] theorem Core.mapRam_ram (f : Ram → Ram) (c : Core) : (c.mapRam f).ram = f c.ram := rfl

/-- What a command over the blocks alone can do: it takes effect, and memories, time and queue stay. -/
theorem State.runDev_next (s : State) (f : Nat → Device → Device) :
    s.runDev f = .next { s with core := { s.core with dev := f s.mt s.core.dev } } := rfl

/-- What a command over blocks and memories can do: it takes effect, and time and queue stay. -/
theorem State.run_next (s : State) (f : Nat → Core → Core) : s.run f = .next { s with core := f s.mt s.core } := rfl

/-- A command over the blocks alone that changes none of them changes nothing. -/
theorem State.runDev_same (s : State) (f : Nat → Device → Device) (h : f s.mt s.core.dev = s.core.dev) :
    s.runDev f = .next s := by
  unfold State.runDev; rw [h]

end Sys2Proof.Machine
end

