-- ==== Sys2Proof/Laws/Raise.lean ====
section
/-! SUPPORT. What raising a cause does: it counts, joins its source, and leaves everything else. -/

namespace Sys2Proof.Machine

open Sys2Proof

/-! ## Frame: only the event controller changes -/

@[simp] theorem raise_keel (step src kind cause arg now : Nat) (d : Device) : (raise step src kind cause arg now d).keel = d.keel := rfl
@[simp] theorem raise_fuses (step src kind cause arg now : Nat) (d : Device) : (raise step src kind cause arg now d).fuses = d.fuses := rfl
@[simp] theorem raise_stb (step src kind cause arg now : Nat) (d : Device) : (raise step src kind cause arg now d).stb = d.stb := rfl
@[simp] theorem raise_port (step src kind cause arg now : Nat) (d : Device) : (raise step src kind cause arg now d).port = d.port := rfl
@[simp] theorem raise_axs (step src kind cause arg now : Nat) (d : Device) : (raise step src kind cause arg now d).axs = d.axs := rfl
@[simp] theorem raise_dr (step src kind cause arg now : Nat) (d : Device) : (raise step src kind cause arg now d).dr = d.dr := rfl
@[simp] theorem raise_chn (step src kind cause arg now : Nat) (d : Device) : (raise step src kind cause arg now d).chn = d.chn := rfl
@[simp] theorem raise_sys (step src kind cause arg now : Nat) (d : Device) : (raise step src kind cause arg now d).sys = d.sys := rfl
@[simp] theorem raise_hlm (step src kind cause arg now : Nat) (d : Device) : (raise step src kind cause arg now d).hlm = d.hlm := rfl
@[simp] theorem raise_clv (step src kind cause arg now : Nat) (d : Device) : (raise step src kind cause arg now d).clv = d.clv := rfl
@[simp] theorem raise_glk (step src kind cause arg now : Nat) (d : Device) : (raise step src kind cause arg now d).glk = d.glk := rfl
@[simp] theorem raise_glw (step src kind cause arg now : Nat) (d : Device) : (raise step src kind cause arg now d).glw = d.glw := rfl
@[simp] theorem raise_lko (step src kind cause arg now : Nat) (d : Device) : (raise step src kind cause arg now d).lko = d.lko := rfl
@[simp] theorem raise_snd (step src kind cause arg now : Nat) (d : Device) : (raise step src kind cause arg now d).snd = d.snd := rfl
@[simp] theorem raise_xfr (step src kind cause arg now : Nat) (d : Device) : (raise step src kind cause arg now d).xfr = d.xfr := rfl
@[simp] theorem raise_mem (step src kind cause arg now : Nat) (d : Device) : (raise step src kind cause arg now d).mem = d.mem := rfl
@[simp] theorem raise_alm (step src kind cause arg now : Nat) (d : Device) : (raise step src kind cause arg now d).alm = d.alm := rfl
@[simp] theorem raise_hps (step src kind cause arg now : Nat) (d : Device) : (raise step src kind cause arg now d).hps = d.hps := rfl
@[simp] theorem raise_key (step src kind cause arg now : Nat) (d : Device) : (raise step src kind cause arg now d).key = d.key := rfl
@[simp] theorem raise_dbg (step src kind cause arg now : Nat) (d : Device) : (raise step src kind cause arg now d).dbg = d.dbg := rfl
@[simp] theorem raise_pwr (step src kind cause arg now : Nat) (d : Device) : (raise step src kind cause arg now d).pwr = d.pwr := rfl
@[simp] theorem raise_thm (step src kind cause arg now : Nat) (d : Device) : (raise step src kind cause arg now d).thm = d.thm := rfl
@[simp] theorem raise_free (step src kind cause arg now : Nat) (d : Device) : (raise step src kind cause arg now d).free = d.free := rfl
@[simp] theorem raise_evc_size (step src kind cause arg now : Nat) (d : Device) :
    (raise step src kind cause arg now d).evc.size = d.evc.size := rfl
@[simp] theorem raise_evc_layout (step src kind cause arg now : Nat) (d : Device) :
    (raise step src kind cause arg now d).evc.layout = d.evc.layout := rfl
@[simp] theorem raise_evc_en (step src kind cause arg now : Nat) (d : Device) :
    (raise step src kind cause arg now d).evc.en = d.evc.en := rfl
@[simp] theorem raise_evc_rbase (step src kind cause arg now : Nat) (d : Device) :
    (raise step src kind cause arg now d).evc.rbase = d.evc.rbase := rfl
@[simp] theorem raise_evc_full (step src kind cause arg now : Nat) (d : Device) :
    (raise step src kind cause arg now d).evc.full = d.evc.full := rfl
@[simp] theorem raise_evc_cfgref (step src kind cause arg now : Nat) (d : Device) :
    (raise step src kind cause arg now d).evc.cfgref = d.evc.cfgref := rfl
@[simp] theorem raise_evc_rpref (step src kind cause arg now : Nat) (d : Device) :
    (raise step src kind cause arg now d).evc.rpref = d.evc.rpref := rfl
@[simp] theorem raise_evc_wp (step src kind cause arg now : Nat) (d : Device) :
    (raise step src kind cause arg now d).evc.wp = d.evc.wp := rfl
@[simp] theorem raise_evc_rp (step src kind cause arg now : Nat) (d : Device) :
    (raise step src kind cause arg now d).evc.rp = d.evc.rp := rfl
@[simp] theorem raise_evc_rsv (step src kind cause arg now : Nat) (d : Device) :
    (raise step src kind cause arg now d).evc.rsv = d.evc.rsv := rfl
@[simp] theorem raise_evc_mask (step src kind cause arg now : Nat) (d : Device) :
    (raise step src kind cause arg now d).evc.mask = d.evc.mask := rfl
@[simp] theorem raise_evc_mode (step src kind cause arg now : Nat) (d : Device) :
    (raise step src kind cause arg now d).evc.mode = d.evc.mode := rfl
@[simp] theorem raise_evc_due (step src kind cause arg now : Nat) (d : Device) :
    (raise step src kind cause arg now d).evc.due = d.evc.due := rfl
@[simp] theorem raise_evc_maskWait (step src kind cause arg now : Nat) (d : Device) :
    (raise step src kind cause arg now d).evc.maskWait = d.evc.maskWait := rfl
@[simp] theorem raise_evc_evtLow (step src kind cause arg now : Nat) (d : Device) :
    (raise step src kind cause arg now d).evc.evtLow = d.evc.evtLow := rfl

/-! ## Its source -/

/-- The cause that a raise makes. -/
def raised (step kind cause arg now : Nat) : Cause := ⟨BitVec.ofNat 8 kind, detailOf cause arg, now, now, step⟩

/-- What a raise does to its own source. -/
theorem raise_src_same (step : Nat) (s : SourceNo) (kind cause arg now : Nat) (d : Device) :
    (raise step s.val kind cause arg now d).evc.src.at s =
      Source.take (d.evc.isLevel s) (raised step kind cause arg now) (d.evc.src.at s) := by
  have e : Fin.ofNat 256 s.val = s := Fin.ext (Nat.mod_eq_of_lt s.isLt)
  unfold raise raiseAt raised
  simp only [e, Tab.at_upd_same]

/-- A raise leaves every other source. -/
theorem raise_src_ne (step src kind cause arg now : Nat) (d : Device) {o : SourceNo} (h : o ≠ Fin.ofNat 256 src) :
    (raise step src kind cause arg now d).evc.src.at o = d.evc.src.at o := by
  unfold raise raiseAt
  exact Tab.at_upd_ne _ _ h

/-- The raise count of a source goes up by one, whatever its mode. -/
@[simp] theorem Source.take_rcnt (level : Bool) (c : Cause) (x : Source) : (Source.take level c x).rcnt = x.rcnt + 1 := by
  unfold Source.take Source.count Source.queue Source.latchIn
  cases level
  · simp only [Bool.false_eq_true, if_false]
    split <;> rfl
  · simp only [if_true]
    cases x.latch with
    | none => rfl
    | some p => simp only []; split <;> rfl

theorem raise_rcnt_same (step : Nat) (s : SourceNo) (kind cause arg now : Nat) (d : Device) :
    ((raise step s.val kind cause arg now d).evc.src.at s).rcnt = (d.evc.src.at s).rcnt + 1 := by
  rw [raise_src_same, Source.take_rcnt]

/-- A cause newer than all that wait goes to the end of the queue. -/
theorem insertBefore_end (c : Cause) : ∀ (l : List Cause), (∀ x ∈ l, x.at' < c.at') →
    insertBefore (Cause.after c) c l = l ++ [c]
  | [], _ => rfl
  | x :: l, h => by
    have hx := h x (List.mem_cons_self)
    have : Cause.after c x = false := by
      have : (c.at' == x.at') = false := by simp; omega
      simp [Cause.after, this]
    rw [insertBefore, this, if_neg (by simp), insertBefore_end c l (fun y hy => h y (List.mem_cons_of_mem _ hy))]
    rfl

/-- An edge source with room takes a newer cause at the end of its queue. -/
theorem Source.take_edge {c : Cause} {x : Source} (hq : x.q.length < 4) (h : ∀ y ∈ x.q, y.at' < c.at') :
    Source.take false c x = { x with q := x.q ++ [c], rcnt := x.rcnt + 1 } := by
  unfold Source.take Source.queue Source.count
  rw [insertBefore_end c x.q h]
  have : (x.q ++ [c]).drop 4 = [] := List.drop_eq_nil_of_le (by simp; omega)
  simp [this]

end Sys2Proof.Machine
end

