-- ==== Sys2Proof/Laws/BankOps.lean ====
section
/-! SUPPORT. What an access to the data banks does beside the bytes it moves: it is noted for its base period, and a
meeting of the two ports counts and may raise source 246. -/

namespace Sys2Proof.Machine

open Sys2Proof

/-- A meeting changes the memory block and the event controller alone. -/
theorem meet_changes (b : Bool) (w now : Nat) (d : Device) : ∃ m e, meet b w now d = { d with mem := m, evc := e } := by
  unfold meet
  split
  · exact ⟨_, _, rfl⟩
  · exact ⟨_, _, rfl⟩

/-- Noting an access changes the memory block and the event controller alone. -/
theorem notePort_changes (isA wr : Bool) (w now : Nat) (d : Device) :
    ∃ m e, notePort isA wr w now d = { d with mem := m, evc := e } := by
  have step : ∀ (p : Bool) (b : Bool) (d0 : Device), (∃ m e, d0 = { d with mem := m, evc := e }) →
      ∃ m e, (if p then meet b w now d0 else d0) = { d with mem := m, evc := e } := by
    rintro p b d0 ⟨m, e, rfl⟩
    cases p
    · exact ⟨_, _, rfl⟩
    · obtain ⟨m', e', h⟩ := meet_changes b w now { d with mem := m, evc := e }
      exact ⟨m', e', by rw [if_pos rfl, h]⟩
  unfold notePort
  exact step _ _ _ (step _ _ _ ⟨_, _, rfl⟩)

/-- The states of the banks, and the mace, stay through a noted access. -/
theorem meet_bank (b : Bool) (w now : Nat) (d : Device) : (meet b w now d).mem.bank = d.mem.bank := by
  unfold meet; split <;> rfl

theorem notePort_bank (isA wr : Bool) (w now : Nat) (d : Device) : (notePort isA wr w now d).mem.bank = d.mem.bank := by
  have step : ∀ (p : Bool) (b : Bool) (d0 : Device),
      (if p then meet b w now d0 else d0).mem.bank = d0.mem.bank := by
    intro p b d0; cases p
    · rfl
    · exact meet_bank b w now d0
  unfold notePort
  simp only [step]
  cases isA <;> rfl

/-- What a write through port B can do: the bytes that no later master writes are in the banks, the access is noted, and
nothing else changes. -/
theorem storeB_changes (cls n a v now : Nat) (c : Core) :
    (storeB cls n a v now c).ram = writeBytes (c.dev.mem.laterB cls) n a v c.ram ∧
    ∃ m e, (storeB cls n a v now c).dev = { c.dev with mem := m, evc := e } ∧ m.bank = c.dev.mem.bank := by
  refine ⟨rfl, ?_⟩
  have hb := notePort_bank false true (wordOf a) now c.dev
  obtain ⟨m, e, h⟩ := notePort_changes false true (wordOf a) now c.dev
  rw [h] at hb
  unfold storeB
  rw [h]
  exact ⟨_, _, rfl, hb⟩

/-- A read through port B is noted and changes nothing else. -/
theorem loadB_changes (a now : Nat) (d : Device) :
    ∃ m e, loadB a now d = { d with mem := m, evc := e } ∧ m.bank = d.mem.bank := by
  have hb := notePort_bank false false (wordOf a) now d
  obtain ⟨m, e, h⟩ := notePort_changes false false (wordOf a) now d
  rw [h] at hb
  exact ⟨m, e, h, hb⟩

/-- The bytes of a write through port A, but for those that port B holds, keep the canonical form. -/
theorem writeBytes_wf (skip : Nat → Bool) : ∀ (n a v : Nat) {r : Ram}, r.wf → (writeBytes skip n a v r).wf
  | 0, _, _, _, h => h
  | n + 1, a, v, r, h => by
    unfold writeBytes
    refine writeBytes_wf skip n _ _ ?_
    split
    · exact h
    · exact Ram.bankWrite_wf h _ _ _

theorem storeA_wf (n a v now : Nat) {c : Core} (h : c.ram.wf) : (storeA n a v now c).ram.wf := writeBytes_wf _ n a v h
theorem storeB_wf (cls n a v now : Nat) {c : Core} (h : c.ram.wf) : (storeB cls n a v now c).ram.wf :=
  writeBytes_wf _ n a v h

end Sys2Proof.Machine
end

