-- ==== Sys2Proof/Laws/Instructions.lean ====
section
/-! SUPPORT. The one shape of every instruction command: the next instruction of a running service executes, and its
routine is staged. -/

namespace Sys2Proof.Machine

open Sys2Proof

/-- A service that may execute, from its parts. -/
theorem canRun_of {v : Service} (hc : v.count < 1024) (hp : v.ctx.past = false)
    (hr : ∀ r, v.staged.getLast? = some r → r.fin = .go) : canRun v = true := by
  unfold canRun
  rw [hp]
  cases h : v.staged.getLast? with
  | none => simp [hc]
  | some r => simp [hc, hr r h]

/-- An instruction command on a service that stands before an instruction of its opcode. -/
theorem runInstr_runs {mine : Nat → Bool} {rom : Env → Run} {h : Chan} {now : Nat} {c : Core} {v : Service}
    (hs : (c.dev.chn.at h).prog.svc = some v) (hr : canRun v = true)
    (hm : mine (opOf (envOf h v now c).word) = true) :
    runInstr mine rom h now c = stage h now ((envOf h v now c).execute rom) c := by
  simp only [runInstr, hs, hr, hm, Bool.and_self, if_true]

/-- R163: with no running service, or one that may not execute, an instruction command changes nothing. -/
theorem runInstr_idles {mine : Nat → Bool} {rom : Env → Run} {h : Chan} {now : Nat} {c : Core}
    (hs : ∀ v, (c.dev.chn.at h).prog.svc = some v → canRun v = false ∨ mine (opOf (envOf h v now c).word) = false) :
    runInstr mine rom h now c = c := by
  unfold runInstr
  split
  · rfl
  · rename_i v hv
    rcases hs v hv with k | k <;> simp [k]

/-- R253: with no patch and the instruction whole in program memory, its ROM routine runs. -/
theorem Env.execute_rom {e : Env} {rom : Env → Run} (hx : e.x = true → e.ctx.pc ≠ 0x7FFF)
    (hp : opOf e.word < 0xE0 → e.d.hlm.openRec (opOf e.word) = none) : e.execute rom = rom e := by
  unfold Env.execute
  rw [if_neg (by
    intro h
    rw [Bool.and_eq_true, beq_iff_eq] at h
    exact hx h.1 h.2)]
  by_cases h : opOf e.word < 0xE0
  · rw [if_pos h, hp h]
  · rw [if_neg h]

/-- R156: a two-word instruction in the last word of program memory. -/
theorem Env.execute_beyond {e : Env} {rom : Env → Run} (hx : e.x = true) (hpc : e.ctx.pc = 0x7FFF) :
    e.execute rom = ⟨e.fault fPcrange, [], none, 0⟩ := by
  unfold Env.execute
  rw [hx, hpc]
  rfl

/-- R250: a routine without bank reads, microcode faults or free values is staged, and nothing else changes. -/
theorem stage_plain {h : Chan} {now : Nat} {r : Staged} {c : Core} {v : Service} (hs : (c.dev.chn.at h).prog.svc = some v) :
    stage h now ⟨r, [], none, 0⟩ c = { c with dev := c.dev.progUpd h (fun p => { p with
      svc := some { v with ctx := r.last, count := v.count + 1, staged := v.staged ++ [r], retried := false } }) } := by
  have e : stage h now ⟨r, [], none, 0⟩ c = { c with dev := c.dev.progUpd h (fun p => { p with
      svc := p.svc.map (fun v => { v with
        ctx := r.last, count := v.count + 1, staged := v.staged ++ [r], retried := false }) }) } := rfl
  rw [e]
  simp only [Device.progUpd, Device.chnUpd, Tab.upd, hs, Option.map_some]

/-- A ROM routine without bank reads. -/
theorem Env.rom_plain (r : Staged) : Env.rom r = ⟨r, [], none, 0⟩ := by
  unfold Env.rom
  split <;> rfl

/-- R160, R250: a ROM instruction of opcode `op` in front of a service that may execute: its routine `f` is staged. -/
theorem runOp_next {op : Nat} {f : Env → Staged} {h : Chan} {now : Nat} {c : Core} {v : Service}
    (hs : (c.dev.chn.at h).prog.svc = some v) (hr : canRun v = true) (ho : opOf (c.ram.progWord v.ctx.pc.toNat) = op)
    (hlt : op < 0xE0) (hn : c.dev.hlm.openRec op = none) (hx : romX op = true → v.ctx.pc ≠ 0x7FFF) :
    runOp op f h now c = { c with dev := c.dev.progUpd h (fun p => { p with svc := some { v with
      ctx := (f (envOf h v now c)).last, count := v.count + 1, staged := v.staged ++ [f (envOf h v now c)]
      retried := false } }) } := by
  have hw : (envOf h v now c).word = c.ram.progWord v.ctx.pc.toNat := rfl
  have he : (envOf h v now c).execute (fun e => Env.rom (f e)) = Env.rom (f (envOf h v now c)) := by
    refine Env.execute_rom ?_ ?_
    · intro k
      have k : c.dev.hlm.extends (opOf (c.ram.progWord v.ctx.pc.toNat)) = true := k
      rw [ho, Helm.extends, if_pos hlt] at k
      exact hx k
    · intro _
      rw [hw, ho]
      exact hn
  rw [runOp, runInstr_runs hs hr (by rw [hw, ho]; exact beq_self_eq_true _), he, Env.rom_plain, stage_plain hs]

end Sys2Proof.Machine
end

