-- ==== Sys2Proof/Laws/Keyed.lean ====
section
/-! SUPPORT. Octet strings, the length of a MAC, and a keyed block that carries the right one. -/

namespace Sys2Proof.Machine

open Sys2Proof

/-! ## Octet strings -/

theorem beBytesOnto_eq (n v : Nat) (acc : List Byte) : beBytesOnto n v acc = beBytes n v ++ acc := by
  induction n generalizing v acc with
  | zero => rfl
  | succ n ih =>
    show beBytesOnto n (v / 256) (BitVec.ofNat 8 v :: acc) = beBytesOnto n (v / 256) [BitVec.ofNat 8 v] ++ acc
    rw [ih, ih (v / 256) [BitVec.ofNat 8 v]]
    simp

theorem beBytes_succ (n v : Nat) : beBytes (n + 1) v = beBytes n (v / 256) ++ [BitVec.ofNat 8 v] :=
  beBytesOnto_eq n (v / 256) [BitVec.ofNat 8 v]

@[simp] theorem beBytes_length (n v : Nat) : (beBytes n v).length = n := by
  induction n generalizing v with
  | zero => rfl
  | succ n ih => rw [beBytes_succ]; simp [ih]

theorem octNat_append (l : List Byte) (b : Byte) : octNat (l ++ [b]) = 256 * octNat l + b.toNat := by
  simp [octNat, List.foldl_append]

theorem beBytes_octNat (l : List Byte) : beBytes l.length (octNat l) = l := by
  induction l using List.reverseRecOn with
  | nil => rfl
  | append_singleton l b ih =>
    have hb : b.toNat < 256 := b.isLt
    rw [octNat_append, List.length_append, List.length_singleton, beBytes_succ]
    congr 1
    · rw [show (256 * octNat l + b.toNat) / 256 = octNat l by omega, ih]
    · rw [List.cons.injEq]
      exact ⟨BitVec.eq_of_toNat_eq (by rw [BitVec.toNat_ofNat]; omega), rfl⟩

theorem octNat_lt (l : List Byte) : octNat l < 256 ^ l.length := by
  induction l using List.reverseRecOn with
  | nil => decide
  | append_singleton l b ih =>
    have hb : b.toNat < 256 := b.isLt
    rw [octNat_append, List.length_append, List.length_singleton, Nat.pow_succ]
    omega

/-! ## Lengths -/

theorem nextKey_length (r : Byte) (k : List Byte) (h : k.length = 16) : (nextKey r k).length = 16 := by
  simp [nextKey, xorBytes, octets, h]

theorem shiftRows_length (s : List Byte) : (shiftRows s).length = 16 := by simp [shiftRows]

theorem aesRounds_length (n : Nat) (r : Byte) (k s : List Byte) (h : k.length = 16) : (aesRounds (n + 1) r k s).length = 16 := by
  induction n generalizing r k s with
  | zero => simp [aesRounds, xorBytes, shiftRows_length, nextKey_length _ _ h]
  | succ n ih => exact ih _ _ _ (nextKey_length _ _ h)

theorem aes_length (k b : List Byte) (h : k.length = 16) : (aes k b).length = 16 := aesRounds_length 9 1 k _ h

/-- R410: an AES-CMAC has 16 octets. -/
theorem cmac_length (k m : List Byte) (h : k.length = 16) : (cmac k m).length = 16 := by
  have chain : ∀ (k1 k2 : List Byte) (l : List (List Byte)) (x : List Byte), (cmacChain k k1 k2 l x).length = 16 := by
    intro k1 k2 l
    induction l with
    | nil => intro x; exact aes_length k _ h
    | cons b l ih =>
      intro x
      cases l with
      | nil => unfold cmacChain; split <;> exact aes_length k _ h
      | cons c l => exact ih _
  exact chain _ _ _ _

/-! ## Blocks -/

/-- R409: the words of a block before its MAC do not depend on it. -/
theorem Block.make_word (opc : Nat) (cnt : DWord) (args : List Word) (m n : BitVec 128) (i : Nat) (h : i < 12) :
    (Block.make opc cnt args m).word i = (Block.make opc cnt args n).word i := by
  have hi : i % 16 < 12 := by omega
  simp only [Block.word, Block.make, Tab.at, Fin.getElem_fin, Vector.getElem_ofFn, Fin.val_ofNat, hi, if_true]

theorem Block.make_word_mac (opc : Nat) (cnt : DWord) (args : List Word) (m : BitVec 128) (i : Nat) (h : 12 ≤ i) (g : i < 16) :
    (Block.make opc cnt args m).word i = w32 (m.toNat >>> (32 * (15 - i))) := by
  have hi : i % 16 = i := by omega
  simp only [Block.word, Block.make, Tab.at, Fin.getElem_fin, Vector.getElem_ofFn, Fin.val_ofNat, hi]
  rw [if_neg (by omega), if_neg (by omega), if_neg (by omega), if_neg (by omega)]

theorem beBytes_four (v k : Nat) : beBytes 4 (w32 (v >>> k)).toNat = beBytes 4 (v >>> k) := by
  have e : ∀ x : Nat, beBytes 4 x = [BitVec.ofNat 8 (x / 256 / 256 / 256), BitVec.ofNat 8 (x / 256 / 256),
    BitVec.ofNat 8 (x / 256), BitVec.ofNat 8 x] := fun _ => rfl
  have b : ∀ x y : Nat, x % 256 = y % 256 → BitVec.ofNat 8 x = BitVec.ofNat 8 y :=
    fun x y h => BitVec.eq_of_toNat_eq (by simpa using h)
  have hw : (w32 (v >>> k)).toNat = v >>> k % 4294967296 := by rw [w32, BitVec.toNat_ofNat]
  rw [e, e, hw]
  generalize v >>> k = x
  rw [b (x % 4294967296 / 256 / 256 / 256) (x / 256 / 256 / 256) (by omega), b (x % 4294967296 / 256 / 256) (x / 256 / 256) (by omega),
    b (x % 4294967296 / 256) (x / 256) (by omega), b (x % 4294967296) x (by omega)]

theorem beBytes_add (m n v : Nat) : beBytes (m + n) v = beBytes m (v / 256 ^ n) ++ beBytes n v := by
  induction n generalizing v with
  | zero => simp [beBytes, beBytesOnto]
  | succ n ih =>
    rw [← Nat.add_assoc, beBytes_succ, ih, beBytes_succ, List.append_assoc, Nat.div_div_eq_div_mul, ← Nat.pow_succ']

theorem Block.make_mac (opc : Nat) (cnt : DWord) (args : List Word) (m : BitVec 128) :
    (Block.make opc cnt args m).mac = beBytes 16 m.toNat := by
  show beBytes 4 _ ++ (beBytes 4 _ ++ (beBytes 4 _ ++ (beBytes 4 _ ++ []))) = _
  rw [Block.make_word_mac _ _ _ _ 12 (by decide) (by decide), Block.make_word_mac _ _ _ _ 13 (by decide) (by decide),
    Block.make_word_mac _ _ _ _ 14 (by decide) (by decide), Block.make_word_mac _ _ _ _ 15 (by decide) (by decide),
    beBytes_four, beBytes_four, beBytes_four, beBytes_four,
    beBytes_add 4 12 m.toNat, beBytes_add 4 8 m.toNat, beBytes_add 4 4 m.toNat]
  norm_num [Nat.shiftRight_eq_div_pow]

/-- What a block says but for its MAC. -/
theorem Block.make_same (opc : Nat) (cnt : DWord) (args : List Word) (m n : BitVec 128) (ho : opc < 256)
    (h : args.length ≤ 9) :
    (Block.make opc cnt args m).opc = (Block.make opc cnt args n).opc ∧
    (Block.make opc cnt args m).alen = (Block.make opc cnt args n).alen ∧
    (Block.make opc cnt args m).cnt = (Block.make opc cnt args n).cnt ∧
    (∀ i, i < 9 → (Block.make opc cnt args m).arg i = (Block.make opc cnt args n).arg i) ∧
    (∀ d, (Block.make opc cnt args m).message d = (Block.make opc cnt args n).message d) ∧
    (Block.make opc cnt args m).formatOk = (Block.make opc cnt args n).formatOk := by
  have w := fun i (h : i < 12) => Block.make_word opc cnt args m n i h
  have hop : (Block.make opc cnt args m).opc = (Block.make opc cnt args n).opc := by simp only [Block.opc, w 0 (by decide)]
  have ha : (Block.make opc cnt args m).alen = (Block.make opc cnt args n).alen := by simp only [Block.alen, w 0 (by decide)]
  have hc : (Block.make opc cnt args m).cnt = (Block.make opc cnt args n).cnt := by
    simp only [Block.cnt, w 1 (by decide), w 2 (by decide)]
  have hg : ∀ i, i < 9 → (Block.make opc cnt args m).arg i = (Block.make opc cnt args n).arg i :=
    fun i h => w (3 + i) (by omega)
  refine ⟨hop, ha, hc, hg, ?_, ?_⟩
  · intro d
    have hl : (Block.make opc cnt args n).alen ≤ 9 ∨ 9 < (Block.make opc cnt args n).alen := by omega
    have hr : (Block.make opc cnt args m).args = (Block.make opc cnt args n).args := by
      simp only [Block.args, ha, nats_eq]
      apply List.map_congr_left
      intro i hi
      refine hg i ?_
      have : (Block.make opc cnt args n).alen = args.length := by
        simp only [Block.alen, Block.word, Block.make, Tab.at, Fin.getElem_fin, Vector.getElem_ofFn, Fin.val_ofNat, if_true,
          Nat.zero_mod, fld, w32, BitVec.toNat_ofNat, Nat.shiftRight_eq_div_pow]
        omega
      rw [List.mem_range, this] at hi
      omega
    simp only [Block.message, hop, ha, hc, hr]
  · simp only [Block.formatOk, hop, ha, w 0 (by decide)]
    refine congrArg (fun x => alenOk _ _ && fld _ 31 16 == 0 && x) ?_
    rw [nats_eq, Bool.eq_iff_iff, List.all_eq_true, List.all_eq_true]
    constructor <;> intro h i hi <;> have k := h i hi <;> have g := hg i (List.mem_range.mp hi)
    · rw [g] at k; exact k
    · rw [g]; exact k

/-- R409: the fields of a block that the host writes. -/
theorem Block.make_opc {opc : Nat} (ho : opc < 256) (cnt : DWord) (args : List Word) (m : BitVec 128) :
    (Block.make opc cnt args m).opc = opc := by
  simp only [Block.opc, Block.word, Block.make, Tab.at, Fin.getElem_fin, Vector.getElem_ofFn, Fin.val_ofNat, if_true,
    Nat.zero_mod, fld, w32, BitVec.toNat_ofNat, Nat.shiftRight_eq_div_pow]
  omega

theorem Block.make_alen {opc : Nat} {args : List Word} (ho : opc < 256) (h : args.length ≤ 9) (cnt : DWord) (m : BitVec 128) :
    (Block.make opc cnt args m).alen = args.length := by
  simp only [Block.alen, Block.word, Block.make, Tab.at, Fin.getElem_fin, Vector.getElem_ofFn, Fin.val_ofNat, if_true,
    Nat.zero_mod, fld, w32, BitVec.toNat_ofNat, Nat.shiftRight_eq_div_pow]
  omega

theorem Block.make_arg {i : Nat} (hi : i < 9) (opc : Nat) (cnt : DWord) (args : List Word) (m : BitVec 128) :
    (Block.make opc cnt args m).arg i = args.getD i 0 := by
  have h : (3 + i) % 16 = 3 + i := by omega
  simp only [Block.arg, Block.word, Block.make, Tab.at, Fin.getElem_fin, Vector.getElem_ofFn, Fin.val_ofNat, h]
  rw [if_neg (by omega), if_neg (by omega), if_neg (by omega), if_pos (by omega), Nat.add_sub_cancel_left]

theorem Block.make_cnt (opc : Nat) (cnt : DWord) (args : List Word) (m : BitVec 128) : (Block.make opc cnt args m).cnt = cnt := by
  have hc : cnt.toNat < 18446744073709551616 := cnt.isLt
  simp only [Block.cnt, Block.word, Block.make, Tab.at, Fin.getElem_fin, Vector.getElem_ofFn, Fin.val_ofNat]
  norm_num [join64, lo32, hi32]
  apply BitVec.eq_of_toNat_eq
  simp only [BitVec.toNat_ofNat]
  omega

theorem Block.make_formatOk {opc : Nat} {args : List Word} (ho : opc < 256) (h : args.length ≤ 9) (cnt : DWord) (m : BitVec 128)
    (ha : alenOk opc args.length = true) : (Block.make opc cnt args m).formatOk = true := by
  have hw : fld ((Block.make opc cnt args m).word 0) 31 16 = 0 := by
    simp only [Block.word, Block.make, Tab.at, Fin.getElem_fin, Vector.getElem_ofFn, Fin.val_ofNat, if_true,
      Nat.zero_mod, fld, w32, BitVec.toNat_ofNat, Nat.shiftRight_eq_div_pow]
    omega
  rw [Block.formatOk, Block.make_opc ho, Block.make_alen ho h, ha, hw, nats_eq]
  show List.all _ _ = true
  rw [List.all_eq_true]
  intro i hi
  have hi := List.mem_range.mp hi
  rw [Block.make_arg hi]
  by_cases hl : i < args.length
  · simp [hl]
  · simp [hl, List.getD_eq_getElem?_getD]

/-- The MAC that a block needs under key `k` (R410). -/
def tagOf (k : BitVec 128) (opc : Nat) (cnt : DWord) (args : List Word) (d : Device) : BitVec 128 :=
  BitVec.ofNat 128 (octNat (cmac (beBytes 16 k.toNat) ((Block.make opc cnt args 0).message d)))

theorem Block.make_macOk {opc : Nat} {args : List Word} (cnt : DWord) {d : Device} {k : BitVec 128} (ho : opc < 256)
    (h : args.length ≤ 9) (hk : d.fuses.commandKey = some k) : (Block.make opc cnt args (tagOf k opc cnt args d)).macOk d = true := by
  have hm := (Block.make_same opc cnt args (tagOf k opc cnt args d) 0 ho h).2.2.2.2.1 d
  have hl : (cmac (beBytes 16 k.toNat) ((Block.make opc cnt args 0).message d)).length = 16 := cmac_length _ _ (beBytes_length _ _)
  have hv := octNat_lt (cmac (beBytes 16 k.toNat) ((Block.make opc cnt args 0).message d))
  have hb := beBytes_octNat (cmac (beBytes 16 k.toNat) ((Block.make opc cnt args 0).message d))
  rw [hl] at hv hb
  unfold Block.macOk
  rw [hk]
  show (_ == _) = true
  rw [hm, Block.make_mac, tagOf, BitVec.toNat_ofNat, Nat.mod_eq_of_lt (by norm_num at hv ⊢; exact hv), hb]
  exact beq_self_eq_true _

/-- R411: a block with the right MAC passes steps 1 to 6 when its other words and the device allow it. -/
theorem Block.make_passes {opc : Nat} {args : List Word} {cnt : DWord} {d : Device} {k : BitVec 128}
    (ho : 1 ≤ opc ∧ opc ≤ 9) (h : args.length ≤ 9) (ha : alenOk opc args.length = true) (hk : d.fuses.commandKey = some k)
    (hl : d.key.lockEnd = none)
    (hc : opc = 9 ∧ d.keel.ctrLost = true ∨ opc ≠ 9 ∧ d.keel.ctrLost = false ∧ d.keel.counter.toNat < cnt.toNat) :
    blockCheck (Block.make opc cnt args (tagOf k opc cnt args d)) d = 0 := by
  have o : opc < 256 := by omega
  unfold blockCheck
  rw [Block.make_opc o, Block.make_cnt, Block.make_formatOk o h cnt _ ha, Block.make_macOk cnt o h hk, hl,
    if_neg (not_not.mpr ho)]
  obtain ⟨h9, hc⟩ | ⟨h9, hc, hn⟩ := hc
  · rw [hc, h9]
    rfl
  · rw [hc, if_neg (by decide), if_neg (by decide), if_neg (fun h => absurd h.1 (by decide)), if_neg (fun h => h9 h.2),
      if_neg (fun h => Nat.not_lt.mpr h.2 hn)]
    rfl

theorem Block.make_cmdCheck {opc : Nat} {args : List Word} (cnt : DWord) (m n : BitVec 128) (ho : opc < 256)
    (h : args.length ≤ 9) (ok : Bool) (d : Device) :
    cmdCheck (Block.make opc cnt args m) ok d = cmdCheck (Block.make opc cnt args n) ok d := by
  have e := Block.make_same opc cnt args m n ho h
  simp only [cmdCheck, fuseCheck, e.1, e.2.1, e.2.2.2.1 0 (by decide), e.2.2.2.1 1 (by decide), e.2.2.2.1 2 (by decide)]

end Sys2Proof.Machine
end

