-- ==== Sys2Proof/Laws/Safe.lean ====
section
/-! SUPPORT. What dropping PERMIT, and a HALT-class fault, do to the power block. -/

namespace Sys2Proof.Machine

open Sys2Proof

/-- PERMIT and ARMED end, and only the event controller may change beside them. -/
theorem dropPermit_changes (step now : Nat) (d : Device) :
    ∃ e, dropPermit step now d = { d with pwr := { d.pwr with armed := false, permit := false }, evc := e } := by
  unfold dropPermit
  simp only []
  split
  · exact ⟨_, rfl⟩
  · exact ⟨_, rfl⟩

@[simp] theorem dropPermit_pwr (step now : Nat) (d : Device) :
    (dropPermit step now d).pwr = { d.pwr with armed := false, permit := false } := by
  obtain ⟨e, h⟩ := dropPermit_changes step now d
  rw [h]

/-- A HALT-class fault changes the power block and the event controller alone, and PERMIT does not conduct after it. -/
theorem setHFault_changes (step b first now : Nat) (d : Device) :
    ∃ p e, setHFault step b first now d = { d with pwr := p, evc := e } ∧ p.armed = false ∧ p.permit = false := by
  have h1 : ∃ d1 : Device, setHFault step b first now d = dropPermit step now d1 ∧
      ∃ p e, d1 = { d with pwr := p, evc := e } := by
    refine ⟨_, rfl, ?_⟩
    simp only []
    split <;> split <;> split <;> exact ⟨_, _, rfl⟩
  obtain ⟨d1, h0, p, e, h1⟩ := h1
  obtain ⟨e', h2⟩ := dropPermit_changes step now d1
  rw [h0, h2, h1]
  exact ⟨_, _, rfl, rfl, rfl⟩

end Sys2Proof.Machine
end

