-- ==== Sys2Proof/Laws/Programs.lean ====
section
/-! SUPPORT. What stopping a program, and a channel's entry into its safe state, can change: channels, the helm's queue
and slots, and what the links have to send. -/

namespace Sys2Proof.Machine

open Sys2Proof

/-- A device that differs in channels and helm alone. -/
def samePrograms (d d' : Device) : Prop := ∃ c h, d' = { d with chn := c, hlm := h }

theorem samePrograms.rfl {d : Device} : samePrograms d d := ⟨d.chn, d.hlm, Eq.refl _⟩

theorem samePrograms.trans {a b c : Device} (h : samePrograms a b) (k : samePrograms b c) : samePrograms a c := by
  obtain ⟨x, y, h⟩ := h
  subst h
  obtain ⟨x', y', k⟩ := k
  subst k
  exact ⟨x', y', Eq.refl _⟩

theorem chnUpd_changes (c : Chan) (f : Channel → Channel) (d : Device) : samePrograms d (d.chnUpd c f) :=
  ⟨_, _, Eq.refl _⟩

theorem returnHeld_changes : ∀ (l : List HeldEff) (d : Device), samePrograms d (returnHeld l d) := by
  intro l d
  refine foldl_keeps (samePrograms d) _ ?_ l d samePrograms.rfl
  intro t e h
  refine h.trans ?_
  cases e with
  | capt c n => exact chnUpd_changes _ _ _
  | cancel c i m => exact chnUpd_changes _ _ _
  | _ => exact samePrograms.rfl

theorem mapProv_changes (f : Chan → List ProvEntry → List ProvEntry) (d : Device) : samePrograms d (d.mapProv f) :=
  foldl_keeps (samePrograms d) _ (fun _ _ h => h.trans (chnUpd_changes _ _ _)) _ d samePrograms.rfl

theorem abandon_changes (h : Chan) (d : Device) : samePrograms d (abandon h d) := by
  unfold abandon
  split
  · exact samePrograms.rfl
  · rename_i s _
    cases s.inFlight <;> exact ⟨_, _, Eq.refl _⟩

/-- Stopping a program changes channels and the helm alone. -/
theorem stopProgram_changes (h : Chan) (d : Device) : samePrograms d (stopProgram h d) := by
  unfold stopProgram
  have h1 := returnHeld_changes ((d.chn.at h).prog.segs.flatMap (fun g => g.held)) d
  have h2 := h1.trans (mapProv_changes (fun _ l => l.filter (fun e => e.home != h)) _)
  have h3 := h2.trans (abandon_changes h _)
  have h4 : samePrograms d (dropReq h (abandon h _)) := h3.trans ⟨_, _, Eq.refl _⟩
  exact h4.trans (chnUpd_changes _ _ _)

/-- A channel's entry into its safe state changes channels, helm and link work alone. -/
theorem safeOne_changes (c : Chan) (k : Code) (d : Device) :
    ∃ x h w, safeOne c k d = { d with chn := x, hlm := h, glw := w } := by
  unfold safeOne
  split
  · have h1 : ∀ e : Device, samePrograms d e → ∃ x h w, linkSafe c e = { d with chn := x, hlm := h, glw := w } := by
      rintro _ ⟨x, h, e⟩
      subst e
      unfold linkSafe
      split
      · exact ⟨_, _, _, Eq.refl _⟩
      · exact ⟨_, _, _, Eq.refl _⟩
    apply h1
    refine samePrograms.trans ?_ (chnUpd_changes _ _ _)
    split
    · exact stopProgram_changes _ _
    · exact samePrograms.rfl
  · exact ⟨_, _, _, Eq.refl _⟩

end Sys2Proof.Machine
end

