-- ==== Sys2Proof/Tests/Slice0.lean ====
section
/-! SUPPORT. The model's own tests: terms that the well-formedness check refuses, and for every statement a state and
operands that meet its hypotheses, clause by clause, at boundary values. -/

namespace Sys2Proof.Tests

set_option Elab.async false

open Sys2Proof Sys2Proof.Machine

/-! ## Well-formedness: one ill-formed term for each check -/

theorem test_wf_quadEdge : (Instr.quadEdge 256 true 0).wellFormed = false := by decide
theorem test_wf_zReference : (Instr.zReference 511 0).wellFormed = false := by decide
theorem test_wf_inputEdge : (Instr.inputEdge 256 true 0).wellFormed = false := by decide
theorem test_wf_hostConversion : (Instr.hostConversion 80).wellFormed = false := by decide
theorem test_wf_maceWindow_element : (Instr.maceWindow (.finish [.misread 7 0 0 0] [])).wellFormed = false := by decide
theorem test_wf_maceWindow_spare : (Instr.maceWindow (.finish [] [.misread 6 1 0 0])).wellFormed = false := by decide
theorem test_wf_maceWindow_ok : (Instr.maceWindow (.finish [.misread 6 0 0 0] [])).wellFormed = true := by decide
theorem test_wf_destructiveRun : (Instr.destructiveRun [⟨0, 1, .misread 5 5 0 0⟩] []).wellFormed = false := by decide
theorem test_wf_destructiveSpare : (Instr.destructiveRun [] [⟨0, 1, .misread 6 1 0 0⟩]).wellFormed = false := by decide
theorem test_wf_write : (Instr.write 0 []).wellFormed = false := by decide
theorem test_wf_read : (Instr.read 0 0).wellFormed = false := by decide
theorem test_wf_fuse_none : (Instr.fuse 1 0 [] true).wellFormed = false := by decide
theorem test_wf_fuse_ten : (Instr.fuse 1 0 (List.replicate 10 0) true).wellFormed = false := by decide
theorem test_wf_bootFuse_sel : (Instr.bootFlow (.fuse false [⟨0, 0⟩] 0)).wellFormed = false := by decide
theorem test_wf_bootFuse_slot : (Instr.bootFlow (.fuse false [⟨3, 2⟩] 0)).wellFormed = false := by decide
theorem test_wf_bootFuse_twice : (Instr.bootFlow (.fuse false [⟨1, 0⟩, ⟨1, 0⟩] 0)).wellFormed = false := by decide
theorem test_wf_bootTest : (Instr.bootFlow (.test [⟨0, 1, .misread 7 0 0 0⟩] [])).wellFormed = false := by decide
theorem test_wf_thermal_high : (Instr.thermalEvaluation (Tab.all 2048) 0).wellFormed = false := by decide +kernel
theorem test_wf_thermal_low : (Instr.thermalEvaluation (Tab.all (-2049)) 0).wellFormed = false := by decide +kernel
theorem test_wf_quadEdge_ok : (Instr.quadEdge 255 true 0).wellFormed = true := by decide

/-! ## States for the witnesses -/

/-- Reset with other blocks. -/
def dv (f : Device → Device) : State := State.reset.withDev (f Device.reset)
def ch (c : Chan) (f : Channel → Channel) : State := dv (fun d => d.chnUpd c f)
def cfg (c : Chan) (f : ChnCfg → ChnCfg) : State := dv (fun d => d.cfgUpd c f)
def ax (a : Axis) (f : AxisSt → AxisSt) : State := dv (fun d => d.axUpd a f)
def xc (n : XcNo) (f : Xfer → Xfer) : State := dv (fun d => d.xcUpd n f)
def bk (b : BankNo) (f : Bank → Bank) : State := dv (fun d => d.bankUpd b f)
def tb (n : TableNo) (f : ATable → ATable) : State := dv (fun d => d.tabUpd n f)
def clv (n : CloveNo) (f : Clove → Clove) : State := dv (fun d => d.clvUpd n f)
def lk (l : LinkNo) (f : Link → Link) : State := dv (fun d => d.glkUpd l f)
def lko (k : LkNo) (f : Lookout → Lookout) : State := dv (fun d => d.lkoUpd k f)
def evc (f : Evc → Evc) : State := dv (fun d => { d with evc := f d.evc })
def hps (f : Hps → Hps) : State := dv (fun d => { d with hps := f d.hps, pwr := { d.pwr with phase := .ready } })
def pwr (f : Pwr → Pwr) : State := dv (fun d => { d with pwr := f d.pwr })
def stb (f : Stb → Stb) : State := dv (fun d => { d with stb := f d.stb })
def hlm (f : Helm → Helm) : State := dv (fun d => { d with hlm := f d.hlm })
def snd' (f : Sounding → Sounding) : State := dv (fun d => { d with snd := f d.snd })
def mace (f : MemBlk → MemBlk) : State := dv (fun d => { d with mem := f d.mem })
def dbg (f : Dbg → Dbg) : State := dv (fun d => { d with dbg := f d.dbg })
def keyed (f : Keyed → Keyed) : State := dv (fun d => { d with key := f d.key })
/-- The same at machine time `n`. -/
def tick (n : Nat) (s : State) : State := { s with mt := n }

/-! ## Programs -/

def seg0 : Segment := ⟨0, Context.clear, 0, 0, [], [], [], false, none, false, false⟩

/-- Home channel 5, enabled in mode 1 and bound, in segment 0. -/
def homeDev (f : Channel → Channel) : Device := Device.reset.chnUpd 5 (fun h => f { h with
  cfg := { h.cfg with en := true, mode := 1, prog := 0x8000 }
  prog := { h.prog with running := true, wait := .runnable, segs := [seg0], nextSeq := 1 } })

/-- Its service with context `c`. -/
def sv (c : Context) (d : Device) : Service := ⟨0, 0, 1000, 0, viewOf 5 0 d, 0, c, [], false⟩

/-- Home 5 in service, with instruction words `w` and `e` at the start of program memory. -/
def rs (w e : Word) (c : Context) (d : Device) : State :=
  ⟨0, ⟨(Ram.reset.progWrite 4 0 w.toNat).progWrite 4 4 e.toNat, d.progUpd 5 (fun p => { p with svc := some (sv c d) })⟩, []⟩

theorem rs_svc (w e : Word) (c : Context) (d : Device) :
    ((rs w e c d).core.dev.chn.at 5).prog.svc = some (sv c d) := by
  simp [rs]

theorem rs_read (w e : Word) (c : Context) (d : Device) (hpc : c.pc = 0) : insWord (rs w e c d) (sv c d) = w := by
  have h0 : Memory.wf zeroByte progSize Ram.reset.prog := trivial
  have h1 : Memory.wf zeroByte progSize (Memory.writeN zeroByte 4 0 w.toNat Ram.reset.prog) :=
    Memory.writeN_wf 4 0 w.toNat (by decide) h0
  have e1 : (rs w e c d).core.ram.progRead 4 0 = w.toNat % 256 ^ 4 := by
    show Memory.readN zeroByte (Memory.writeN zeroByte 4 4 e.toNat (Memory.writeN zeroByte 4 0 w.toNat Ram.reset.prog)) 4 0 = _
    rw [Memory.readN_writeN_apart 4 4 e.toNat 4 0 (by decide) h1 (by decide), Memory.readN_writeN 4 0 w.toNat (by decide) h0]
  have hw : w.toNat < 4294967296 := w.isLt
  unfold insWord sv
  simp only [hpc]
  show w32 ((rs w e c d).core.ram.progRead 4 0) = w
  rw [e1]
  apply BitVec.eq_of_toNat_eq
  rw [w32, BitVec.toNat_ofNat]
  omega

theorem rs_ready (w e : Word) (c : Context) (d : Device) (op : Nat) (hop : fld w 31 24 = op)
    (hd : d.hlm = Helm.reset) (hpc : c.pc = 0) (hpast : c.past = false) : Ready (rs w e c d) 5 (sv c d) op := by
  refine ⟨rs_svc w e c d, ?_, hpast, ?_, ?_, ?_, ?_⟩
  · show 0 < 1024
    decide
  · intro r h; simp [sv] at h
  · rw [rs_read w e c d hpc]; exact hop
  · show (rs w e c d).core.dev.hlm.openRec op = none
    have : (rs w e c d).core.dev.hlm = Helm.reset := hd
    rw [this]; rfl
  · intro _
    show c.pc ≠ 0x7FFF
    rw [hpc]; decide

/-- Some service stands before an instruction of opcode `op` that `ok` admits. -/
def Met (op : Nat) (ok : Word → Context → Prop) : Prop :=
  ∃ s ch v, Ready s ch v op ∧ ok (insWord s v) v.ctx
def MetV (op : Nat) (ok : Service → Word → Prop) : Prop := ∃ s ch v, Ready s ch v op ∧ ok v (insWord s v)
def MetE (op : Nat) (ok : Env → Prop) : Prop := ∃ s ch v, Ready s ch v op ∧ ok (seenBy s ch v)

theorem met {op : Nat} {ok : Word → Context → Prop} (w : Word) (hop : fld w 31 24 = op) (hok : ok w Context.clear) :
    Met op ok :=
  ⟨rs w 0 Context.clear Device.reset, 5, sv Context.clear Device.reset,
    rs_ready w 0 _ _ op hop rfl rfl rfl, by rw [rs_read _ _ _ _ rfl]; exact hok⟩

theorem metV {op : Nat} {ok : Service → Word → Prop} (w : Word) (d : Device) (hop : fld w 31 24 = op)
    (hd : d.hlm = Helm.reset) (hok : ok (sv Context.clear d) w) : MetV op ok :=
  ⟨rs w 0 Context.clear d, 5, sv Context.clear d,
    rs_ready w 0 _ _ op hop hd rfl rfl, by rw [rs_read _ _ _ _ rfl]; exact hok⟩

theorem metE {op : Nat} {ok : Env → Prop} (w e : Word) (c : Context) (d : Device) (hop : fld w 31 24 = op)
    (hd : d.hlm = Helm.reset) (hpc : c.pc = 0) (hpast : c.past = false) (hok : ok (seenBy (rs w e c d) 5 (sv c d))) :
    MetE op ok := ⟨rs w e c d, 5, sv c d, rs_ready w e c d op hop hd hpc hpast, hok⟩

/-- The clear context with g registers as `f` says. -/
def cg (i : Fin 16) (v : Word) : Context := { Context.clear with g := Context.clear.g.put i v }

theorem witness_AddSubLogic :
    Met 0x01 fnZero ∧ Met 0x11 always ∧ Met 0x02 fnZero ∧ Met 0x12 always ∧
    Met 0x0B (fun w _ => fld w 11 0 = 0 ∧ fld w 23 20 = 0) ∧ Met 0x1B (fun w _ => fld w 23 20 = 0) ∧
    Met 0x05 fnZero ∧ Met 0x15 always ∧ Met 0x06 fnZero ∧ Met 0x16 always ∧ Met 0x07 fnZero ∧ Met 0x17 always ∧
    Met 0x0F (fun w _ => fld w 19 16 = 0 ∧ fld w 15 0 = 0) :=
  ⟨met 0x01FF_F000 (by decide) (by unfold fnZero; decide), met 0x11FF_FFFF (by decide) trivial, met 0x02FF_F000 (by decide) (by unfold fnZero; decide),
    met 0x1200_0000 (by decide) trivial, met 0x0B0F_F000 (by decide) (by decide), met 0x1B0F_8000 (by decide) (by decide),
    met 0x0500_0000 (by decide) (by unfold fnZero; decide), met 0x1500_FFFF (by decide) trivial, met 0x0600_0000 (by decide) (by unfold fnZero; decide),
    met 0x1600_0000 (by decide) trivial, met 0x0700_0000 (by decide) (by unfold fnZero; decide), met 0x1700_0000 (by decide) trivial,
    met 0x0FF0_0000 (by decide) (by decide)⟩

theorem witness_MultiplyShift :
    Met 0x03 (fnBelow 2) ∧ Met 0x13 always ∧ Met 0x04 (fnBelow 5) ∧ Met 0x14 always ∧ Met 0x08 fnZero ∧
    Met 0x18 (fun w _ => fld w 15 0 < 64) ∧ Met 0x09 fnZero ∧ Met 0x19 (fun w _ => fld w 15 0 < 64) ∧ Met 0x0A fnZero ∧
    Met 0x1A (fun w _ => fld w 15 0 < 64) :=
  ⟨met 0x0300_0003 (by decide) (by unfold fnBelow; decide), met 0x1300_8000 (by decide) trivial, met 0x0400_001F (by decide) (by unfold fnBelow; decide),
    met 0x1400_0000 (by decide) trivial, met 0x0800_0000 (by decide) (by unfold fnZero; decide), met 0x1800_003F (by decide) (by decide),
    met 0x0900_0000 (by decide) (by unfold fnZero; decide), met 0x1900_0000 (by decide) (by decide), met 0x0A00_0000 (by decide) (by unfold fnZero; decide),
    met 0x1A00_003F (by decide) (by decide)⟩

theorem witness_MinMaxSat :
    Met 0x0C (fun w _ => fld w 11 2 = 0 ∧ fld w 0 0 = 0) ∧ Met 0x1C always ∧
    Met 0x0D (fun w _ => fld w 11 2 = 0 ∧ fld w 0 0 = 0) ∧ Met 0x1D always ∧
    Met 0x0E (fun w c => fld w 11 2 = 0 ∧ fld w 0 0 = 0 ∧ (bit1 w = false → (gB w c).getLsbD 31 = false)) ∧
    Met 0x1E (fun w _ => fld w 14 6 = 0 ∧ 1 ≤ fld w 5 0 ∧ fld w 5 0 ≤ 32) :=
  ⟨met 0x0C00_0002 (by decide) (by decide), met 0x1C00_8000 (by decide) trivial, met 0x0D00_0000 (by decide) (by decide),
    met 0x1D00_0000 (by decide) trivial, met 0x0E00_0000 (by decide) (by decide +kernel), met 0x1E00_8020 (by decide) (by decide)⟩

/-- Axis 0 as a modulo axis of one turn 4096. -/
def modAxis : Device := Device.reset.axUpd 0 (fun x => { x with reg := { x.reg with cfg := 1, modLo := 4096 } })

theorem witness_TimeInstructions :
    Met 0x20 (fun w _ => fld w 11 0 = 0 ∧ dOk w ∧ aOk w) ∧ Met 0x20 (fun w _ => fld w 11 0 = 1 ∧ dOk w ∧ aOk w ∧ bOk w) ∧
    Met 0x21 (fun w _ => fld w 15 0 = 0 ∧ dOk w ∧ aOk w) ∧ Met 0x22 (fun w _ => fld w 11 0 = 0 ∧ aOk w ∧ bOk w) ∧
    Met 0x22 (fun w _ => fld w 11 0 = 1 ∧ dOk w ∧ aOk w ∧ bOk w) ∧
    Met 0x23 (fun w _ => fld w 11 0 = 0 ∧ fld w 23 20 = 0 ∧ aOk w ∧ bOk w) ∧
    MetV 0x24 (fun _ w => fld w 19 16 = 0 ∧ fld w 15 0 = 0 ∧ dOk w) ∧ Met 0x25 (fun w _ => fld w 11 0 = 0 ∧ dOk w) ∧
    Met 0x26 (fun w _ => fld w 11 0 < 2 ∧ fld w 15 12 = 0 ∧ aOk w) := by
  unfold dOk aOk bOk
  exact ⟨met 0x2033_F000 (by decide) (by decide), met 0x2033_3001 (by decide) (by decide), met 0x2133_0000 (by decide) (by decide),
    met 0x22F3_3000 (by decide) (by decide), met 0x2233_3001 (by decide) (by decide), met 0x2303_3000 (by decide) (by decide),
    metV 0x2430_0000 Device.reset (by decide) rfl (by decide), met 0x253F_F000 (by decide) (by decide),
    met 0x26F3_0001 (by decide) (by decide)⟩

theorem witness_PositionInstructions :
    Met 0x30 (fun w _ => fld w 11 0 = 0 ∧ dOk w ∧ aOk w ∧ bOk w) ∧ Met 0x31 (fun w _ => fld w 15 0 = 0 ∧ dOk w ∧ aOk w) ∧
    Met 0x32 (fun w _ => fld w 11 0 = 0 ∧ dOk w ∧ aOk w ∧ bOk w) ∧
    MetV 0x32 (fun v w => fld w 11 7 = 0 ∧ fld w 6 6 = 1 ∧ dOk w ∧ aOk w ∧ bOk w ∧ (axisSeen v w).modulo = false) ∧
    MetV 0x32 (fun v w => fld w 11 7 = 0 ∧ fld w 6 6 = 1 ∧ dOk w ∧ aOk w ∧ bOk w ∧ (axisSeen v w).modulo = true ∧
      0 < (axisSeen v w).m) ∧
    MetV 0x33 (fun v w => fld w 15 6 = 0 ∧ dOk w ∧ aOk w ∧ ((axisSeen v w).modulo = true → 0 < (axisSeen v w).m)) ∧
    Met 0x36 (fun w _ => fld w 15 0 ≤ 16 ∧ dOk w) ∧ Met 0x37 (fun w _ => fld w 15 0 ≤ 16 ∧ aOk w) := by
  unfold dOk aOk bOk axisSeen
  exact ⟨met 0x3033_3000 (by decide) (by decide), met 0x3133_0000 (by decide) (by decide), met 0x3233_3000 (by decide) (by decide),
    metV 0x3233_307F Device.reset (by decide) rfl (by decide +kernel), metV 0x3233_3040 modAxis (by decide) rfl (by decide +kernel),
    metV 0x3333_0000 modAxis (by decide) rfl (by decide +kernel), met 0x363F_0010 (by decide) (by decide),
    met 0x37F3_0010 (by decide) (by decide)⟩

theorem witness_FlowInstructions :
    Met 0x40 (fun _ _ => True) ∧ Met 0x41 (fun _ _ => True) ∧ Met 0x42 (fun w _ => fld w 19 0 = 0) ∧
    Met 0x43 (fun w _ => fld w 15 0 = 0) ∧ Met 0x44 (fun w _ => fld w 19 16 = 0) ∧ Met 0x45 (fun w _ => fld w 23 0 = 0) :=
  ⟨met 0x40F8_0000 (by decide) trivial, met 0x4100_0000 (by decide) trivial, met 0x42F0_0000 (by decide) (by decide),
    met 0x43FF_0000 (by decide) (by decide), met 0x44F0_8000 (by decide) (by decide), met 0x4500_0000 (by decide) (by decide)⟩

theorem witness_Conversions :
    Met 0x34 (fun w _ => fld w 15 6 = 0 ∧ dOk w ∧ aOk w) ∧ Met 0x35 (fun w _ => fld w 15 6 = 0 ∧ dOk w ∧ aOk w) := by
  unfold dOk aOk
  exact ⟨met 0x3433_003F (by decide) (by decide), met 0x3533_0000 (by decide) (by decide)⟩

/-! ## Witnesses: ill-formed words and ARITH -/

/-- Some service stands before an ill-formed word of opcode `op`. -/
def MetW (op : Nat) (bad : Word → Prop) : Prop := MetV op (fun _ w => bad w)

theorem metW {op : Nat} {bad : Word → Prop} (w : Word) (hop : fld w 31 24 = op) (hb : bad w) : MetW op bad :=
  metV w Device.reset hop rfl hb

theorem witness_ill_formed_integer :
    MetW 0x01 (fun w => fld w 11 0 ≠ 0) ∧
    MetW 0x02 (fun w => fld w 11 0 ≠ 0) ∧
    MetW 0x05 (fun w => fld w 11 0 ≠ 0) ∧
    MetW 0x06 (fun w => fld w 11 0 ≠ 0) ∧
    MetW 0x07 (fun w => fld w 11 0 ≠ 0) ∧
    MetW 0x0B (fun w => fld w 11 0 ≠ 0 ∨ fld w 23 20 ≠ 0) ∧
    MetW 0x1B (fun w => fld w 23 20 ≠ 0) ∧
    MetW 0x0F (fun w => fld w 19 16 ≠ 0 ∨ fld w 15 0 ≠ 0) ∧
    MetW 0x03 (fun w => 4 ≤ fld w 11 0) ∧
    MetW 0x04 (fun w => 32 ≤ fld w 11 0) ∧
    MetW 0x08 (fun w => fld w 11 0 ≠ 0) ∧
    MetW 0x09 (fun w => fld w 11 0 ≠ 0) ∧
    MetW 0x0A (fun w => fld w 11 0 ≠ 0) ∧
    MetW 0x18 (fun w => 64 ≤ fld w 15 0) ∧
    MetW 0x19 (fun w => 64 ≤ fld w 15 0) ∧
    MetW 0x1A (fun w => 64 ≤ fld w 15 0) ∧
    MetW 0x0C (fun w => fld w 11 2 ≠ 0 ∨ fld w 0 0 ≠ 0) ∧
    MetW 0x0D (fun w => fld w 11 2 ≠ 0 ∨ fld w 0 0 ≠ 0) ∧
    MetW 0x0E (fun w => fld w 11 2 ≠ 0 ∨ fld w 0 0 ≠ 0) ∧
    MetW 0x1E (fun w => fld w 14 6 ≠ 0 ∨ fld w 5 0 = 0 ∨ 32 < fld w 5 0) :=
  ⟨metW 0x01FF_F001 (by decide) (by decide),
    metW 0x0200_0800 (by decide) (by decide),
    metW 0x0500_0001 (by decide) (by decide),
    metW 0x0600_0001 (by decide) (by decide),
    metW 0x0700_0001 (by decide) (by decide),
    metW 0x0B10_0000 (by decide) (by decide),
    metW 0x1B80_0000 (by decide) (by decide),
    metW 0x0F01_0000 (by decide) (by decide),
    metW 0x0300_0004 (by decide) (by decide),
    metW 0x0400_0020 (by decide) (by decide),
    metW 0x0800_0001 (by decide) (by decide),
    metW 0x0900_0001 (by decide) (by decide),
    metW 0x0A00_0001 (by decide) (by decide),
    metW 0x1800_0040 (by decide) (by decide),
    metW 0x1900_FFFF (by decide) (by decide),
    metW 0x1A00_0040 (by decide) (by decide),
    metW 0x0C00_0001 (by decide) (by decide),
    metW 0x0D00_0004 (by decide) (by decide),
    metW 0x0E00_0800 (by decide) (by decide),
    metW 0x1E00_0021 (by decide) (by decide)⟩

theorem witness_ill_formed_time_flow :
    MetW 0x20 (fun w => 2 ≤ fld w 11 0) ∧
    MetW 0x21 (fun w => fld w 15 0 ≠ 0) ∧
    MetW 0x22 (fun w => 2 ≤ fld w 11 0) ∧
    MetW 0x23 (fun w => fld w 11 0 ≠ 0 ∨ fld w 23 20 ≠ 0) ∧
    MetW 0x24 (fun w => fld w 19 16 ≠ 0 ∨ fld w 15 0 ≠ 0) ∧
    MetW 0x25 (fun w => fld w 11 0 ≠ 0) ∧
    MetW 0x26 (fun w => 2 ≤ fld w 11 0) ∧
    MetW 0x42 (fun w => fld w 19 0 ≠ 0) ∧
    MetW 0x43 (fun w => fld w 15 0 ≠ 0) ∧
    MetW 0x44 (fun w => fld w 19 16 ≠ 0) ∧
    MetW 0x45 (fun w => fld w 23 0 ≠ 0) :=
  ⟨metW 0x2000_0002 (by decide) (by decide),
    metW 0x2100_0001 (by decide) (by decide),
    metW 0x2200_0800 (by decide) (by decide),
    metW 0x2310_0000 (by decide) (by decide),
    metW 0x2401_0000 (by decide) (by decide),
    metW 0x2500_0001 (by decide) (by decide),
    metW 0x2600_0002 (by decide) (by decide),
    metW 0x4200_0001 (by decide) (by decide),
    metW 0x4300_0001 (by decide) (by decide),
    metW 0x4401_0000 (by decide) (by decide),
    metW 0x4580_0000 (by decide) (by decide)⟩

theorem witness_sat_arith : ∃ s ch v, Ready s ch v 0x0E ∧ fld (insWord s v) 11 0 = 0 ∧
    (gB (insWord s v) v.ctx).getLsbD 31 = true :=
  ⟨rs 0x0E00_F000 0 (cg 15 0x8000_0000) Device.reset, 5, sv (cg 15 0x8000_0000) Device.reset,
    rs_ready _ _ _ _ _ (by decide) rfl rfl rfl, by rw [rs_read _ _ _ _ rfl]; decide +kernel⟩

/-- Axis 0 modulo, with modulus 0. -/
def modZero : Device := Device.reset.axUpd 0 (fun x => { x with reg := { x.reg with cfg := 1 } })

theorem witness_modulus_zero :
    MetV 0x32 (fun v w => fld w 11 7 = 0 ∧ fld w 6 6 = 1 ∧ dOk w ∧ aOk w ∧ bOk w ∧ (axisSeen v w).modulo = true ∧
      (axisSeen v w).m = 0) ∧
    MetV 0x33 (fun v w => fld w 15 6 = 0 ∧ dOk w ∧ aOk w ∧ (axisSeen v w).modulo = true ∧ (axisSeen v w).m = 0) := by
  unfold dOk aOk bOk axisSeen
  exact ⟨metV 0x3233_3040 modZero (by decide) rfl (by decide +kernel), metV 0x3333_0000 modZero (by decide) rfl (by decide +kernel)⟩

/-! ## Witnesses: memory, actions, control -/

/-- Every bank on. -/
def plain : Device := Device.reset
/-- Bank 0 off. -/
def bank0Off : Device := Device.reset.bankUpd 0 (fun b => { b with st := .off })

theorem witness_BankLoads :
    MetE 0x50 (fun e => reaches 4 e ∧ e.d.bankOn e.byteAddr = true) ∧
    MetE 0x51 (fun e => dOk e.word ∧ reaches 8 e ∧ e.d.bankOn e.byteAddr = true) ∧
    MetE 0x52 (fun e => dOk e.word ∧ reaches 8 e ∧ e.d.bankOn e.byteAddr = true) ∧
    MetE 0x50 (fun e => 0x1FFFFF < e.byteAddr) ∧ MetE 0x50 (fun e => e.byteAddr ≤ 0x1FFFFF ∧ e.byteAddr % 4 ≠ 0) ∧
    MetE 0x50 (fun e => reaches 4 e ∧ e.d.bankOn e.byteAddr = false) := by
  unfold reaches dOk
  exact ⟨metE 0x5000_0000 0 (cg 0 0x1F_FFFC) plain (by decide) rfl rfl rfl (by decide +kernel),
    metE 0x5130_0000 0 (cg 0 0x1F_FFF8) plain (by decide) rfl rfl rfl (by decide +kernel),
    metE 0x5200_0000 0 (cg 0 0) plain (by decide) rfl rfl rfl (by decide +kernel),
    metE 0x5000_0000 0 (cg 0 0x20_0000) plain (by decide) rfl rfl rfl (by decide +kernel),
    metE 0x5000_0000 0 (cg 0 0x1F_FFFF) plain (by decide) rfl rfl rfl (by decide +kernel),
    metE 0x5000_0000 0 (cg 0 4) bank0Off (by decide) rfl rfl rfl (by decide +kernel)⟩

/-- Home 5 enabled and bound, and home 6 besides. -/
def twoHomes : Device := (homeDev id).chnUpd 6 (fun h => { h with cfg := { h.cfg with en := true, prog := 0x8000 } })

theorem witness_HeldEffects :
    MetE 0x53 (reaches 4) ∧ MetE 0x54 (fun e => dOk e.word ∧ reaches 8 e) ∧ MetE 0x55 (fun e => dOk e.word ∧ reaches 8 e) ∧
    MetE 0x57 (fun e =>
      let n := (e.ctx.g.at (aField e)).toNat
      let v := e.svc.view.chn.at (Fin.ofNat 512 n)
      fld e.word 11 4 = 0 ∧ fld e.word 23 20 = 0 ∧ 8 ≤ fld e.word 3 0 ∧ n < 512 ∧ n ≠ e.home.val ∧ v.en = true ∧
        v.bound = true) ∧
    MetE 0x88 (fun e => fld e.word 15 9 = 0 ∧ fld e.word 23 20 = 0) ∧ MetE 0x89 (fun e => fld e.word 23 5 = 0) ∧
    MetE 0x8A (fun e => dOk e.word ∧ e.byteAddr < 0x10000 ∧ e.byteAddr % 8 = 0) ∧
    MetE 0x53 (fun e => e.byteAddr ≤ 0x1FFFFF ∧ e.byteAddr % 4 ≠ 0) ∧ MetE 0x8A (fun e => dOk e.word ∧ 0x10000 ≤ e.byteAddr) := by
  unfold reaches dOk aField
  exact ⟨metE 0x5300_0000 0 (cg 0 0x1F_FFFC) plain (by decide) rfl rfl rfl (by decide +kernel),
    metE 0x5430_0000 0 (cg 0 0x1F_FFF8) plain (by decide) rfl rfl rfl (by decide +kernel),
    metE 0x5500_0000 0 (cg 0 0) plain (by decide) rfl rfl rfl (by decide +kernel),
    metE 0x570F_0008 0 (cg 15 6) twoHomes (by decide) rfl rfl rfl (by decide +kernel),
    metE 0x880F_01FF 0 (cg 15 31) plain (by decide) rfl rfl rfl (by decide +kernel),
    metE 0x8900_001F 0 (cg 0 0) plain (by decide) rfl rfl rfl (by decide +kernel),
    metE 0x8A30_0000 0 (cg 0 0xFFF8) plain (by decide) rfl rfl rfl (by decide +kernel),
    metE 0x5300_0000 0 (cg 0 0x1F_FFFF) plain (by decide) rfl rfl rfl (by decide +kernel),
    metE 0x8A30_0000 0 (cg 0 0x1_0000) plain (by decide) rfl rfl rfl (by decide +kernel)⟩

/-- Table 63: time entries, two of them, with the almanac domain on. -/
def tables (time : Bool) : Device :=
  { (homeDev id).tabUpd 63 (fun t => { t with defd := true, time := time, llen := 2 }) with
    pwr := { Pwr.reset with alm := .on } }

theorem witness_ContextAndAlmanacReads :
    MetE 0x56 (ldcFields 0) ∧ MetE 0x56 (fun e => ldcFields 1 e ∧ dOk e.word ∧ fld e.word 3 0 < 4) ∧
    MetE 0x56 (fun e => ldcFields 2 e ∧ dOk e.word ∧ fld e.word 3 0 < 4) ∧ MetE 0x56 (fun e => ldcFields 3 e ∧ fld e.word 3 0 = 0) ∧
    MetE 0x58 (fun e => fld e.word 11 6 = 0 ∧ fld e.word 15 12 = 0 ∧ dOk e.word ∧ tableUp e ∧ (tableSeen e).time = true ∧
      (e.ctx.g.at (aField e)).toNat < (tableSeen e).len) ∧
    MetE 0x58 (fun e => 8 ≤ fld e.word 11 8 ∧ fld e.word 11 8 ≤ 11 ∧ fld e.word 7 6 = 0 ∧ fld e.word 15 12 = 0 ∧ tableUp e ∧
      (e.ctx.g.at (aField e)).toNat < (tableSeen e).len) ∧
    MetE 0x78 (fun e => fld e.word 11 6 = 0 ∧ fld e.word 15 12 = 0 ∧ aOk e.word ∧ tableUp e ∧ (tableSeen e).time = true ∧
      (e.ctx.t.at (aField4 e)).toNat < 281474976710656) ∧
    MetE 0x79 (fun e => fld e.word 11 6 = 0 ∧ fld e.word 15 12 = 0 ∧ tableUp e ∧
      (e.ctx.g.at (aField e)).toNat < (tableSeen e).len) ∧
    MetE 0x79 (fun e => fld e.word 11 6 = 0 ∧ fld e.word 15 12 = 0 ∧ (tableSeen e).defd = false) := by
  unfold tableUp dOk aOk
  exact ⟨metE 0x560F_000F 0 (cg 15 511) plain (by decide) rfl rfl rfl (by unfold ldcFields; decide +kernel),
    metE 0x563F_0403 0 (cg 15 511) plain (by decide) rfl rfl rfl (by unfold ldcFields; decide +kernel),
    metE 0x563F_0803 0 (cg 15 0) plain (by decide) rfl rfl rfl (by unfold ldcFields; decide +kernel),
    metE 0x560F_0C00 0 (cg 15 0) plain (by decide) rfl rfl rfl (by unfold ldcFields; decide +kernel),
    metE 0x583F_003F 0 (cg 15 1) (tables true) (by decide) rfl rfl rfl (by decide +kernel),
    metE 0x580F_0B3F 0 (cg 15 1) (tables false) (by decide) rfl rfl rfl (by decide +kernel),
    metE 0x7803_003F 0 (cg 15 1) (tables true) (by decide) rfl rfl rfl (by decide +kernel),
    metE 0x790F_003F 0 (cg 15 1) (tables true) (by decide) rfl rfl rfl (by decide +kernel),
    metE 0x790F_0000 0 (cg 15 0) (tables true) (by decide) rfl rfl rfl (by decide +kernel)⟩

/-- Home 5 in the segment it is in, ordinal 0 settled. -/
def settled0 : Device := homeDev (fun h => { h with prog := { h.prog with segs := [{ seg0 with settled := 1 }] } })
/-- Home 5, axis 63 steady. -/
def steady63 : Device := (homeDev id).axUpd 63 (fun x => { x with est := { x.est with st := .steady } })

theorem witness_ActionInstructions :
    MetE 0x60 (fun e => emitFields e ∧ fld e.word 5 0 = 0 ∧ Takes e 5 (specE e) ∧ HasRoom e 5) ∧
    MetE 0x60 (fun e => emitFields e ∧ fld e.word 5 0 = 0 ∧ Takes e 5 (specE e) ∧ e.emits < 4 ∧
      (settledOf e.prog e.seq).getLsbD e.emits = true) ∧
    MetE 0x61 (fun e => emitFields e ∧ Takes e 5 (specE e) ∧ HasRoom e 5 ∧
      (e.d.axs.at (Fin.ofNat 64 (fld e.word 5 0))).est.st = .steady) ∧
    MetE 0x62 (fun e => tripFields e ∧ fld e.word 5 0 = 0 ∧ Takes e 5 (specT e) ∧ HasRoom e 5) ∧
    MetE 0x62 (fun e => tripFields e ∧ fld e.word 5 0 = 0 ∧ Takes e 5 (specT e) ∧ e.emits < 4 ∧
      (settledOf e.prog e.seq).getLsbD e.emits = true) ∧
    MetE 0x63 (fun e => tripFields e ∧ Takes e 5 (specT e) ∧ HasRoom e 5 ∧
      (e.d.axs.at (Fin.ofNat 64 (fld e.word 5 0))).est.st = .steady) := by
  unfold emitFields tripFields Takes HasRoom aOk
  exact ⟨metE 0x6013_0000 0 (cg 0 0) (homeDev id) (by decide) rfl rfl rfl (by decide +kernel),
    metE 0x6003_F400 0 (cg 15 1) settled0 (by decide) rfl rfl rfl (by decide +kernel),
    metE 0x6113_F43F 0 (cg 15 1) steady63 (by decide) rfl rfl rfl (by decide +kernel),
    metE 0x6213_F7C0 0 (cg 15 1) (homeDev id) (by decide) rfl rfl rfl (by decide +kernel),
    metE 0x6203_F000 0 (cg 15 1) settled0 (by decide) rfl rfl rfl (by decide +kernel),
    metE 0x6313_F03F 0 (cg 15 1) steady63 (by decide) rfl rfl rfl (by decide +kernel)⟩

def aCap : CapEntry := ⟨7, 5, true, false, false, false, false⟩
/-- Home 5 with one captured edge. -/
def caught : Device := homeDev (fun h => { h with cfg := { h.cfg with mode := 8 }, pin := { h.pin with cap := [aCap] } })

theorem witness_MemberInstructions :
    MetE 0x64 (fun e => e.word.getLsbD 20 = false ∧ fld e.word 15 12 = 0 ∧ fld e.word 11 0 = 64 ∧ fld e.word 19 16 = 0 ∧
      e.svc.view.memberOf e.home (fld e.word 23 21) = some 5 ∧ e.held.length < 16) ∧
    MetE 0x64 (fun e => e.word.getLsbD 20 = false ∧ fld e.word 15 12 = 0 ∧ fld e.word 11 0 = 0 ∧ aOk e.word ∧
      e.svc.view.memberOf e.home (fld e.word 23 21) = some 5 ∧ e.held.length < 16) ∧
    MetE 0x70 (fun e => fld e.word 11 3 = 0 ∧ dOk e.word ∧ e.svc.view.memberOf e.home (fld e.word 2 0) = some 5 ∧
      e.capEntries 5 = [aCap] ∧ e.held.length < 16) ∧
    MetE 0x71 (fun e => fld e.word 11 3 = 0 ∧ dOk e.word ∧ e.svc.view.memberOf e.home (fld e.word 2 0) = some 5 ∧
      e.capEntries 5 = [aCap] ∧ e.held.length < 16) ∧
    MetE 0x70 (fun e => fld e.word 11 3 = 0 ∧ dOk e.word ∧ e.svc.view.memberOf e.home (fld e.word 2 0) = some 5 ∧
      e.capEntries 5 = []) ∧
    MetE 0x90 (fun e => e.word.getLsbD 23 = false ∧ fld e.word 15 8 = 0 ∧
      e.svc.view.memberOf e.home (fld e.word 22 20) = some 5 ∧ fld e.word 7 0 ∈ [0x10, 0x14, 0x18, 0x1C, 0x20, 0x24] ∧
      (e.d.chn.at 5).cfg.pend = none ∧ (e.d.chn.at 5).cfg.gpend = false ∧ e.held.length < 16) ∧
    MetE 0x91 (fun e => e.word.getLsbD 23 = false ∧ fld e.word 15 0 = 1 ∧ aOk e.word ∧
      e.svc.view.memberOf e.home (fld e.word 22 20) = some 5 ∧ e.held.length < 16) ∧
    MetE 0x70 (fun e => fld e.word 11 3 = 0 ∧ dOk e.word ∧ e.svc.view.memberOf e.home (fld e.word 2 0) = none) := by
  unfold aOk dOk
  exact ⟨metE 0x6400_0040 0 (cg 0 0) (homeDev id) (by decide) rfl rfl rfl (by decide +kernel),
    metE 0x6403_0000 0 (cg 0 0) (homeDev id) (by decide) rfl rfl rfl (by decide +kernel),
    metE 0x7033_3000 0 (cg 0 0) caught (by decide) rfl rfl rfl (by decide +kernel),
    metE 0x7133_3000 0 (cg 0 0) caught (by decide) rfl rfl rfl (by decide +kernel),
    metE 0x7033_3000 0 (cg 0 0) (homeDev id) (by decide) rfl rfl rfl (by decide +kernel),
    metE 0x900F_0024 0 (cg 0 0) (homeDev id) (by decide) rfl rfl rfl (by decide +kernel),
    metE 0x9103_0001 0 (cg 0 0) (homeDev id) (by decide) rfl rfl rfl (by decide +kernel),
    metE 0x7033_3000 0 (cg 0 0) plain (by decide) rfl rfl rfl (by decide +kernel)⟩

/-- A context with time register 3 at 1. -/
def t3 : Context := { Context.clear with t := Context.clear.t.put 3 1 }

theorem witness_WaitInstruction :
    MetE 0x80 (fun e => fld e.word 23 20 = 0 ∧ aOk e.word ∧ fld e.word 15 0 = 0 ∧
      (e.ctx.t.at (aField4 e)).toNat ≤ e.svc.view.at') ∧
    MetE 0x80 (fun e => fld e.word 23 20 = 0 ∧ aOk e.word ∧ e.word.getLsbD 15 = true ∧ fld e.word 12 0 = 0 ∧
      e.svc.view.at' < (e.ctx.t.at (aField4 e)).toNat ∧
      (e.ctx.t.at (Fin.ofNat 4 (fld e.word 14 13))).toNat ≤ e.svc.view.at') ∧
    MetE 0x80 (fun e => fld e.word 23 20 = 0 ∧ aOk e.word ∧ fld e.word 15 0 = 0 ∧
      e.svc.view.at' < (e.ctx.t.at (aField4 e)).toNat) ∧
    MetE 0x80 (fun e => 6 ≤ fld e.word 23 20 ∧ fld e.word 15 0 = 0) := by
  unfold aOk
  exact ⟨metE 0x8000_0000 0 t3 (homeDev id) (by decide) rfl rfl rfl (by decide +kernel),
    metE 0x8003_C000 0 t3 (homeDev id) (by decide) rfl rfl rfl (by decide +kernel),
    metE 0x8003_0000 0 t3 (homeDev id) (by decide) rfl rfl rfl (by decide +kernel),
    metE 0x8060_0000 0 t3 (homeDev id) (by decide) rfl rfl rfl (by decide +kernel)⟩

/-- A store whose image record of opcode 0xE0 names its word 0. -/
def customerDev : Device := { Device.reset with hlm := { Helm.reset with mode := .normal, recs := [⟨0xE0, 0xA000, 0, false⟩] } }
/-- Home 5 in service before that opcode, whose routine ends at once. -/
def customer : State :=
  let s := rs 0xE000_0000 0 Context.clear customerDev
  { s with core := { s.core with ram := s.core.ram.storeWrite 4 0 0xFC00_0000 } }

/-- The same with a record of the reserved opcode 0x10. -/
def overriddenDev : Device := { Device.reset with hlm := { Helm.reset with mode := .normal, recs := [⟨0x10, 0xA000, 0, false⟩] } }
def overridden : State :=
  let s := rs 0x1000_0000 0 Context.clear overriddenDev
  { s with core := { s.core with ram := s.core.ram.storeWrite 4 0 0xFC00_0000 } }

theorem witness_overridden_routine : fld (insWord overridden (sv Context.clear overriddenDev)) 31 24 = 0x10 ∧
    overridden.core.dev.hlm.openRec 0x10 = some ⟨0x10, 0xA000, 0, false⟩ ∧
    (seenBy overridden 5 (sv Context.clear overriddenDev)).microword 0xA000 = some 0xFC00_0000 := by decide +kernel

theorem witness_customer_svc : (customer.core.dev.chn.at 5).prog.svc = some (sv Context.clear customerDev) :=
  rs_svc 0xE000_0000 0 Context.clear customerDev

theorem witness_customer_routine : insWord customer (sv Context.clear customerDev) = 0xE000_0000 ∧
    customer.core.dev.hlm.openRec 0xE0 = some ⟨0xE0, 0xA000, 0, false⟩ ∧
    (seenBy customer 5 (sv Context.clear customerDev)).microword 0xA000 = some 0xFC00_0000 := by decide +kernel

/-- A context at the last word of program memory, or past it. -/
def lastPc (past : Bool) : Context := { Context.clear with pc := 0x7FFF, past := past }
/-- Home 5 in service at the last word of program memory, which is `w`. -/
def lastWord (w : Word) (past : Bool) : State :=
  ⟨0, ⟨Ram.reset.progWrite 4 131068 w.toNat,
    Device.reset.progUpd 5 (fun p => { p with svc := some (sv (lastPc past) Device.reset) })⟩, []⟩

theorem witness_fetch_beyond (w : Word) (past : Bool) :
    ((lastWord w past).core.dev.chn.at 5).prog.svc = some (sv (lastPc past) Device.reset) ∧
    (sv (lastPc past) Device.reset).count < 1024 ∧ (sv (lastPc past) Device.reset).staged = [] ∧
    (sv (lastPc past) Device.reset).ctx.pc = 0x7FFF ∧ (sv (lastPc past) Device.reset).ctx.past = past := by
  exact ⟨by simp [lastWord], by show 0 < 1024; decide, rfl, rfl, rfl⟩

theorem witness_fetch_beyond_words :
    fld (insWord (lastWord 0x0F00_0000 false) (sv (lastPc false) Device.reset)) 31 24 = 0x0F ∧
    fld (insWord (lastWord 0x2100_0000 false) (sv (lastPc false) Device.reset)) 31 24 = 0x21 ∧
    fld (insWord (lastWord 0x3100_0000 false) (sv (lastPc false) Device.reset)) 31 24 = 0x31 ∧
    fld (insWord (lastWord 0x9000_0000 false) (sv (lastPc false) Device.reset)) 31 24 = 0x90 := by decide +kernel

theorem witness_ControlInstructions :
    MetE 0x92 (fun e => fld e.word 23 0 = 0) ∧ MetE 0x93 (fun e => fld e.word 23 0 = 0) ∧
    (∀ op ∈ [0x00, 0x10, 0x1F, 0x27, 0x38, 0x46, 0x59, 0x65, 0x72, 0x7A, 0x81, 0x8B, 0x94, 0xDF], MetE op (fun _ => True)) ∧
    MetE 0xE0 (fun _ => True) ∧ MetE 0xFF (fun _ => True) := by
  refine ⟨metE 0x9200_0000 0 t3 (homeDev id) (by decide) rfl rfl rfl (by decide +kernel),
    metE 0x9300_0000 0 t3 (homeDev id) (by decide) rfl rfl rfl (by decide +kernel), ?_,
    metE 0xE000_0000 0 t3 (homeDev id) (by decide) rfl rfl rfl trivial,
    metE 0xFF00_0000 0 t3 (homeDev id) (by decide) rfl rfl rfl trivial⟩
  intro op h
  refine metE (BitVec.ofNat 32 (op * 16777216)) 0 t3 (homeDev id) ?_ rfl rfl rfl trivial
  simp only [List.mem_cons, List.not_mem_nil, or_false] at h
  rcases h with h | h | h | h | h | h | h | h | h | h | h | h | h | h <;> subst h <;> decide

/-! ## Witnesses: the machine as a whole -/

/-- One command waits. -/
def waiting (i : Instr) : State := { State.reset with pending := [i] }

theorem witness_MachineTimeStaysOnTheGrid :
    (State.reset.mt % 32 = 0 ∧ State.reset.mt < 18446744073709551616) ∧ step State.reset = .next State.reset ∧
    (tick 18446744073709551584 State.reset).mt % 32 = 0 ∧
    step (tick 18446744073709551584 State.reset) = .next (tick 18446744073709551584 State.reset) := by
  refine ⟨by decide, rfl, by decide, rfl⟩

theorem witness_MemoriesStayCanonical : State.reset.core.ram.wf ∧ step State.reset = .next State.reset :=
  ⟨Ram.reset_wf, rfl⟩

theorem witness_StepRunsFrontCommand : State.reset.pending = [] ∧ (waiting .snapshot).pending = [.snapshot] :=
  ⟨rfl, rfl⟩

def aCause (n : Nat) : Cause := ⟨4, 0, n, n, 1⟩
/-- Source 255 with the causes `l` queued. -/
def queued (l : List Cause) : Device :=
  (evc (fun e => { e with src := e.src.put 255 { Source.reset with q := l } })).core.dev

theorem witness_RaiseReachesItsSource :
    (let d := queued [aCause 1, aCause 2, aCause 3]
     d.evc.isLevel 255 = false ∧ (d.evc.src.at 255).q.length < 4 ∧ ∀ x ∈ (d.evc.src.at 255).q, x.at' < 32) ∧
    (let d := queued [aCause 1, aCause 2, aCause 3, aCause 4]
     d.evc.isLevel 255 = false ∧ 4 ≤ (d.evc.src.at 255).q.length) ∧
    (let e := { Device.reset.evc with mode := Tab.all 0xFFFF_FFFF, src := (Tab.all Source.reset).put 255 { Source.reset with latch := some (aCause 31) } }
     e.isLevel 255 = true ∧ ∀ p, (e.src.at 255).latch = some p → p.at' < 32) := by
  refine ⟨by decide +kernel, by decide +kernel, by decide +kernel, ?_⟩
  intro p h
  cases Option.some.inj (show some (aCause 31) = some p from h)
  decide

/-! ## Witnesses: time base and keel -/

/-- A servo that follows an edge at the start of each second. -/
def locked : State := dv (fun d => { d with stb := { Stb.reset with st := .locked, ptValid := true } })

theorem witness_PllAndReference :
    (pwr (fun p => { p with hold := 1 })).core.dev.pwr.hold ≠ 0 ∧
    (let d := (pwr (fun p => { p with phase := .fuse })).core.dev; d.pwr.hold = 0 ∧ d.pwr.phase ≠ .pll) ∧
    (let d := State.reset.core.dev; d.pwr.phase = .pll ∧ d.stb.ctl.getLsbD 6 = true ∧ d.keel.keelLost = true) ∧
    (let d := (stb (fun b => { b with ctl := 0x28 })).core.dev; d.pwr.phase = .pll ∧ d.stb.ctl.getLsbD 6 = false) ∧
    (let d := (dv (fun d => { d with keel := { d.keel with ancValid := true, keelLost := false } })).core.dev
     d.pwr.phase = .pll ∧ d.stb.ctl.getLsbD 6 = true ∧ d.keel.ancValid = true ∧ d.keel.keelLost = false) ∧
    (stb (fun b => { b with refOk := true })).core.dev.stb.refOk = true ∧
    (stb (fun b => { b with pllLock := true })).core.dev.stb.pllLock = true ∧ State.reset.core.dev.stb.refOk = false ∧
    State.reset.core.dev.stb.pllLock = false := by
  decide +kernel

theorem witness_KeelRows :
    State.reset.core.dev.keel.vkeelOk = false ∧
    (let d := (dv (fun d => { d with keel := { d.keel with vkeelOk := true, xkeelRun := true, kcnt := 281474976710655 }
                                     port := { d.port with ancPend := true } })).core.dev
     d.keel.vkeelOk = true ∧ d.keel.xkeelRun = true ∧ d.keel.kcnt < 281474976710656 ∧ d.port.ancPend = true) := by
  decide +kernel

theorem witness_TimeBaseRegisters :
    8 < (9 : Byte).toNat ∧ (8 : Byte).toNat ≤ 8 ∧ State.reset.mt < 18446744073709551616 ∧
    locked.core.dev.stb.st = .locked ∧ State.reset.core.dev.stb.st ≠ .locked := by decide +kernel

/-- A TTOD frame of VALID 1 and version 1, with its CRC. -/
def goodFrame' : Tab Byte 12 :=
  let b : Tab Byte 12 := ((Tab.all 0).put 0 0xA5).put 1 0x81
  let c := (crc16 (b.toList.take 10)).toNat
  (b.put 10 (BitVec.ofNat 8 (c / 256))).put 11 (BitVec.ofNat 8 c)

theorem witness_ServoInputs :
    (799 : Word).toNat < 800 ∧ State.reset.core.dev.stb.ctl.getLsbD 1 = false ∧
    (pwr (fun p => { p with vioIn := 0xBF })).core.dev.pwr.vioIn.getLsbD 6 = false ∧
    (let d := locked.core.dev
     d.pwr.vioIn.getLsbD 6 = true ∧ 800 ≤ (800 : Word).toNat ∧ d.stb.st = .locked ∧ ppsAccepted d 8000000000 = true ∧ d.port.frames = [] ∧
     (phaseError d ((8000000000 : Int) - pdly d) (d.port.sec + 1)).natAbs ≤ fld d.stb.thr 31 16) ∧
    ppsWindowEnded 9000000000 locked.core.dev = true ∧
    (let d := ppsMiss 9000000000 locked.core.dev; 0 + 1 < max 1 (fld locked.core.dev.stb.servo 15 12) ∧ d.port.missCnt = 1) ∧
    max 1 (fld (0x0064_0441 : Word) 15 12) ≤ 0 + 1 ∧
    (let d := (stb (fun b => { b with ctl := 0x6C })).core.dev
     d.stb.ctl.getLsbD 2 = true ∧ d.pwr.vioIn.getLsbD 6 = true ∧ (Tab.all (0xA4 : Byte) : Tab Byte 12).at 0 ≠ 0xA5) ∧
    (let d := (stb (fun b => { b with ctl := 0x6C })).core.dev
     let b := goodFrame'
     d.stb.ctl.getLsbD 2 = true ∧ b.at 0 = 0xA5 ∧ (20 : BitVec 16).toNat ≤ 20 ∧
     (crc16 (b.toList.take 10)).toNat = 256 * (b.at 10).toNat + (b.at 11).toNat ∧ fld (b.at 1) 3 0 = 1 ∧
     (b.at 1).getLsbD 7 = true ∧ (d.port.hasPps = true → due (d.port.pps + 80000000) (80000000 : DWord).toNat = true)) ∧
    State.reset.core.dev.stb.ctl.getLsbD 2 = false := by decide +kernel

theorem witness_ServoModes :
    (stb (fun b => { b with ctl := 0x69 })).core.dev.stb.ctl.getLsbD 0 = true ∧
    (let d := (stb (fun b => { b with ctl := 0x6C })).core.dev
     d.stb.ctl.getLsbD 2 = true ∧ d.stb.st = .free ∧ d.stb.ptValid = false) ∧
    (let d := (stb (fun b => { b with st := .holdover })).core.dev
     d.stb.st = .track ∨ d.stb.st = .locked ∨ d.stb.st = .holdover) ∧
    (let d := (stb (fun b => { b with st := .acq })).core.dev
     d.stb.st = .free ∨ d.stb.st = .coarse ∨ d.stb.st = .acq) := by decide +kernel

/-! ## Witnesses: axes -/

/-- A fix of axis 63 that arrived at machine time 0. -/
def aFix : FixReq := ⟨63, 140737488355327, 1000, 0, 0, false⟩
def fixes (q : List FixReq) (f : AxisSt → AxisSt) : State :=
  dv (fun d => { d.axUpd 63 f with dr := ⟨q, false⟩ })
def axOn (f : AxRegs → AxRegs) (x : AxisSt) : AxisSt := { x with reg := f { x.reg with en := true } }

theorem noFixDue_reset (f : Device → Device) (h : (f Device.reset).dr.q = []) : noFixDue (dv f) := Or.inr h

theorem witness_AxisControl :
    noFixDue State.reset ∧
    (let x := State.reset.core.dev.axs.at 0; x.reg.en = false ∧ (x.reg.cfg.getLsbD 0 = true → 0 < x.reg.m)) ∧
    (let x := (ax 63 (fun x => { x with reg := { x.reg with cfg := 1, modLo := 1 } })).core.dev.axs.at 63
     x.reg.en = false ∧ x.reg.cfg.getLsbD 0 = true ∧ 0 < x.reg.m) ∧
    (let x := (ax 63 (fun x => { x with reg := { x.reg with cfg := 1 } })).core.dev.axs.at 63
     x.reg.en = false ∧ x.reg.cfg.getLsbD 0 = true ∧ x.reg.m = 0) ∧
    ((ax 63 (axOn id)).core.dev.axs.at 63).reg.en = true ∧ noFixDue (dv (fun d => { d with dr := ⟨[aFix], true⟩ })) :=
  ⟨Or.inr rfl, by decide +kernel, by decide +kernel, by decide +kernel, by decide +kernel, Or.inl rfl⟩

/-- Axis 63 decodes channels 253, 254 and 255, all in QUAD_FEED. -/
def decoded : State := dv (fun d =>
  let on (h : Channel) : Channel := { h with cfg := { h.cfg with en := true, mode := 13 } }
  (((d.chnUpd 253 on).chnUpd 254 on).chnUpd 255 on).axUpd 63 (axOn (fun r => { r with
    cfg := BitVec.ofNat 32 (1 + 16 + 3 * 256 + 253 * 65536), modLo := 4096 })))

theorem witness_FixSources :
    (let d := decoded.core.dev
     let x := d.axs.at 63
     (d.chn.at 253).cfg.en = true ∧ (d.chn.at 253).cfg.mode = 13 ∧ quadAxes d 253 0 = [63] ∧ quadAxes d 253 1 = [] ∧
     quadAxes d 253 2 = [] ∧ crossesAt d 253 true 5 0 ∧ x.quad.per ≠ some (stampAt d 253 5 / 32) ∧ 0 < x.reg.m ∧ x.quad.a = (true == (d.chn.at 253).cfg.inv)) ∧
    (let d := decoded.core.dev
     (d.chn.at 255).cfg.en = true ∧ (d.chn.at 255).cfg.mode = 13 ∧ quadAxes d 255 0 = [] ∧ quadAxes d 255 1 = [] ∧
     quadAxes d 255 2 = [63] ∧ crossesAt d 255 (!(d.chn.at 255).cfg.inv) 5 0 ∧
     fld (d.axs.at 63).reg.cfg 9 8 = 3) ∧
    (let d := (decoded.core.dev.cfgUpd 253 (fun g => { g with pin := 0x100 })); crossesAt d 253 true 5 1) ∧
    (State.reset.core.dev.chn.at 0).cfg.en = false ∧
    (let d := (tick 8000000 decoded).core.dev; stillAt (d.axs.at 63) = some 8000000 ∧ due 8000000 8000000 = true ∧ d.dr.q = []) ∧
    (let d := (ax 63 (axOn (fun r => { r with cfg := 64 }))).core.dev
     (d.axs.at 63).reg.en = true ∧ fld (d.axs.at 63).reg.cfg 7 4 = 4 ∧ d.dr.q.length < 64) ∧
    (State.reset.core.dev.axs.at 63).reg.en = false := by
  unfold crossesAt stampAt
  decide +kernel

theorem witness_FixTaken :
    (let d := (fixes [aFix] (axOn id)).core.dev
     d.dr = ⟨[aFix], false⟩ ∧ due aFix.arrive 0 = true ∧ aFix.pre = 0 ∧ (d.axs.at 63).reg.en = true ∧
     (d.axs.at 63).reg.cfg.getLsbD 0 = false ∧ (d.axs.at 63).est.st = .nofix ∧ (d.axs.at 63).est.last = [] ∧
     -140737488355328 ≤ aFix.z ∧ aFix.z < 140737488355328) ∧
    (let d := (fixes [aFix] (fun x => axOn id { x with est := { x.est with st := .acquiring, last := [(5, 745)] } })).core.dev
     d.dr = ⟨[aFix], false⟩ ∧ (d.axs.at 63).reg.en = true ∧ (d.axs.at 63).est.last = [(5, 745)] ∧ aFix.t < 745 + 256) ∧
    (let x := (ax 63 (axOn (fun r => { r with lim := 0x0001_0004 }))).core.dev.axs.at 63
     timeoutDue x 8000 = true ∧ timeoutDue x 7999 = false ∧ x.reg.cfg.getLsbD 3 = false) ∧
    (let x := (ax 63 (fun x => axOn (fun r => { r with lim := 0x0001_0004, cfg := 8 })
         { x with est := { x.est with st := .steady } })).core.dev.axs.at 63
     timeoutDue x 8000 = true ∧ x.reg.cfg.getLsbD 3 = true ∧ x.est.st ≠ .nofix) := by decide +kernel

/-! ## Witnesses: channels -/

theorem witness_ChannelEnableDisable :
    (pwr (fun p => { p with phase := .ready })).core.dev.pwr.phase = .ready ∧ State.reset.core.dev.pwr.phase ≠ .ready ∧
    (let h := (cfg 255 (fun g => { g with mode := 1 })).core.dev.chn.at 255
     h.cfg.en = false ∧ h.cfg.mode = 1 ∧ h.cfg.member = false ∧ h.cfg.bound = false) ∧
    (let h := (cfg 255 (fun g => { g with mode := 1, prog := 0x8000 })).core.dev.chn.at 255
     h.cfg.en = false ∧ h.cfg.mode = 1 ∧ h.cfg.member = false ∧ h.cfg.bound = true) ∧
    (let h := (cfg 511 (fun g => { g with mode := 15 })).core.dev.chn.at 511
     h.cfg.en = false ∧ (h.cfg.mode = 6 ∨ h.cfg.mode = 7 ∨ h.cfg.mode = 15)) ∧
    (let h := (cfg 255 (fun g => { g with en := true, mode := 1 })).core.dev.chn.at 255
     h.cfg.en = true ∧ h.cfg.bound = false) := by decide +kernel

def applied (mode : BitVec 4) (lead : Word) : ChnCfg → ChnCfg := fun g =>
  { g with mode := mode, shadow := { g.shadow with lead := lead }, pend := some ⟨0, none, 0, 0⟩ }

theorem witness_ChannelApply :
    (let h := (cfg 255 id).core.dev.chn.at 255; h.cfg.gpend = false ∧ h.cfg.pend = none) ∧
    ((cfg 511 (fun g => { g with gpend := true })).core.dev.chn.at 511).cfg.gpend = true ∧
    ((cfg 511 (applied 1 16)).core.dev.chn.at 511).cfg.pend ≠ none ∧
    (let h := (cfg 255 (applied 1 1024)).core.dev.chn.at 255
     h.cfg.pend = some ⟨0, none, 0, 0⟩ ∧ 255 < 256 ∧ h.cfg.mode = 1 ∧ 16 ≤ fld h.cfg.shadow.lead 10 0 ∧
     fld h.cfg.shadow.lead 10 0 ≤ 1024 ∧ fld h.cfg.shadow.cfg 5 4 ≠ 3 ∧ fld h.cfg.shadow.cfg 9 8 ≠ 3) ∧
    (let h := (cfg 255 (applied 1 15)).core.dev.chn.at 255
     h.cfg.pend = some ⟨0, none, 0, 0⟩ ∧ h.cfg.mode = 1 ∧ fld h.cfg.shadow.lead 10 0 < 16) := by decide +kernel

/-- A group apply of channels 0 and 255, whose sets are admissible. -/
def theGroup (busy : Option Chan) : GroupApply := ⟨((Tab.all 0).put 0 1).put 7 0x8000_0000, true, 32, 0, busy⟩
def group (busy : Option Chan) : State := tick 32 (dv (fun d =>
  { (d.cfgUpd 0 (fun g => { g with mode := 1 })).cfgUpd 255 (fun g => { g with mode := 1 }) with
    sys := { d.sys with gp := some (theGroup busy) } }))

theorem witness_GroupApplies :
    State.reset.core.dev.sys.gp = none ∧ (group (some 255)).core.dev.sys.gp = some (theGroup (some 255)) ∧
    (group none).core.dev.sys.gp = some (theGroup none) ∧ (group none).core.dev.sys.gp ≠ none ∧
    (theGroup none).goAt ≠ (group none).mt ∧ due (theGroup none).goAt (group none).mt = true ∧ (theGroup none).t ≤ (group none).mt ∧ inMask (theGroup none).mask 255 = true ∧
    ∀ c : Chan, inMask (theGroup none).mask c = true → plainSet c ((group none).core.dev.chn.at c) := by
  unfold plainSet
  decide +kernel

/-! ## Witnesses: trains, actions, captures -/

/-- A running train of period 128 and width 64 on channel 255, whose next period starts at `next`. -/
def trainCh (next : Nat) (h : Channel) : Channel := { h with
  cfg := { h.cfg with en := true, mode := 2, live := { h.cfg.live with per := 128, wid := 64 } }
  train := { h.train with run := true, next := next } }

theorem witness_Trains :
    (let d := (ch 255 (trainCh 2048)).core.dev
     let h := d.chn.at 255
     h.cfg.mode = 2 ∧ h.cfg.en = true ∧ h.train.run = true ∧ h.train.fixed = [] ∧ h.comm.length < 4 ∧
     commitAt h.train.next (d.lead 255) ≤ 0 ∧ 64 ≤ h.cfg.live.wid.toNat ∧
     h.cfg.live.wid.toNat + 64 ≤ h.cfg.live.per.toNat) ∧
    (let d := (ch 255 (trainCh 2080)).core.dev
     let h := d.chn.at 255
     h.cfg.mode = 2 ∧ h.train.fixed = [] ∧ 0 < commitAt h.train.next (d.lead 255)) ∧
    (let d := (ch 511 (fun h => { h with cfg := { h.cfg with mode := 2 } })).core.dev
     let h := d.chn.at 511
     h.cfg.mode = 2 ∧ h.train.fixed = [] ∧ h.train.run = false) ∧
    (let h := (ch 511 (fun h => { h with train := { h.train with starts := [31, 95] } })).core.dev.chn.at 511
     h.train.starts = [31, 95] ∧ 31 < 0 + 32) ∧
    (let h := (ch 511 (fun h => { h with train := { h.train with starts := [32] } })).core.dev.chn.at 511
     h.train.starts = [32] ∧ 0 + 32 ≤ 32) ∧
    (State.reset.core.dev.chn.at 0).train.starts = [] := by decide +kernel

theorem witness_Trains_phases : (ch 255 (trainCh 2048)).core.dev.phasesOf 255 = [] := by
  simp only [Device.phasesOf, List.filter_eq_nil_iff]
  intro c _
  by_cases h : c = 255
  · subst h; decide +kernel
  · simp [ch, dv, State.withDev, Tab.at_upd_ne _ _ h, Device.reset, Channel.reset, TrainGen.reset]

def aLevel (t : Nat) : ProvEntry := ⟨false, .level, true, 0, t, none, 255, 0, 0, false, 0, 0, []⟩
def anEdge (e : List PinEdge) (r : Option Nat) : CommEntry := ⟨.program, .level, true, 40, 0, none, false, none, e, none, none, 0, r⟩

theorem witness_ActionsCommitAndEdges :
    (let s := tick 3200 (ch 255 (fun h => { h with prov := [aLevel 5248] }))
     let h := s.core.dev.chn.at 255
     h.prov = [aLevel 5248] ∧ (aLevel 5248).ty = .level ∧ (aLevel 5248).holder = false ∧ (aLevel 5248).marks = [] ∧
     (aLevel 5248).t ≠ 0xFFFF_FFFF_FFFF_FFFF ∧ commitAt 5248 (s.core.dev.lead 255) = 3200 ∧ h.comm.length < 4 ∧
     h.stat.code.sticky = false) ∧
    (let s := tick 3200 (ch 255 (fun h => { h with prov := [aLevel 5247] }))
     let h := s.core.dev.chn.at 255
     h.prov = [aLevel 5247] ∧ commitAt 5247 (s.core.dev.lead 255) < 3200 ∧ fld h.cfg.live.cfg 5 4 = 0 ∧
     h.stat.code.sticky = false) ∧
    (State.reset.core.dev.chn.at 0).prov = [] ∧
    (let s := ch 255 (fun h => { h with comm := [anEdge [⟨31, 31, true⟩] none] })
     let h := s.core.dev.chn.at 255
     h.comm = [anEdge [⟨31, 31, true⟩] none] ∧ (anEdge [⟨31, 31, true⟩] none).lk = none ∧
     (anEdge [⟨31, 31, true⟩] none).until? = none ∧ h.pin.lastAt = none ∧ (31 : Int) < 0 + 32) ∧
    (let h := (ch 256 (fun h => { h with pin := { h.pin with slotEdges := [(31, true)] } })).core.dev.chn.at 256
     256 ≤ (256 : Chan).val ∧ h.comm = [] ∧ h.pin.slotEdges = [(31, true)] ∧ 31 < 0 + 32) ∧
    (let h := (tick 64 (ch 511 (fun h => { h with comm := [anEdge [] (some 64)] }))).core.dev.chn.at 511
     h.comm = [anEdge [] (some 64)] ∧ due 64 64 = true) := by decide +kernel

/-- Channel 255 captures both edges. -/
def capCh (own : Bool) (l : List CapEntry) (h : Channel) : Channel := { h with
  cfg := { h.cfg with en := true, mode := 8, even := 5, live := { h.cfg.live with cfg := if own then 0x600 else 0x200 } }
  pin := { h.pin with prevSel := some 5, cap := l } }
def aWindow : CommEntry := ⟨.program, .capwin, false, 32, 32, none, false, none, [], none, none, 0, none⟩

theorem witness_Captures :
    (let d := (ch 255 (capCh false [])).core.dev
     let h := d.chn.at 255
     h.cfg.en = true ∧ h.cfg.mode = 8 ∧ fld h.cfg.live.cfg 9 8 = 2 ∧ crossesAt d 255 true 31 0 ∧ h.pin.prevSel = some 5 ∧
     h.pin.cap.length < 16) ∧
    (let d := (ch 255 (fun h => { h with cfg := { h.cfg with pin := 0xF00 } })).core.dev; crossesAt d 255 true 31 1) ∧
    (let h := (ch 255 (fun h => { h with cfg := { h.cfg with pin := 0x100 }, pin := { h.pin with raw := true, cand := some 5 } })).core.dev.chn.at 255
     h.pin.inp = false ∧ h.pin.cand = some 5 ∧ (36 : DWord).toNat < 5 + 32 * fld h.cfg.pin 11 8) ∧
    (let d := (ch 255 (capCh false (List.replicate 16 aCap))).core.dev
     let h := d.chn.at 255
     h.cfg.en = true ∧ h.cfg.mode = 8 ∧ fld h.cfg.live.cfg 9 8 = 2 ∧ crossesAt d 255 true 31 0 ∧ 16 ≤ h.pin.cap.length ∧
     h.cfg.even.getLsbD 1 = false) ∧
    (let p := (State.reset.core.dev.chn.at 255).pin; p.inp = false ∧ p.raw = false ∧ p.cand = none) ∧
    (let h := (tick 64 (ch 255 (fun h => { h with comm := [aWindow] }))).core.dev.chn.at 255
     h.comm = [aWindow] ∧ (aWindow.t + aWindow.w + 31) / 32 * 32 ≤ 64 ∧ aWindow.w < 4294967296 ∧ h.pin.cap.length < 16) ∧
    (State.reset.core.dev.chn.at 511).comm = [] ∧
    (let h := (ch 255 (capCh true [aCap, aCap])).core.dev.chn.at 255
     h.pin.cap = [aCap, aCap] ∧ h.cfg.live.cfg.getLsbD 10 = true) ∧
    (State.reset.core.dev.chn.at 511).pin.cap = [] := by
  unfold crossesAt
  decide +kernel

/-! ## Witnesses: segments -/

def stagedOf (f : Staged → Staged) : Staged :=
  f { ctx := Context.clear, newSeg := none, emit := false, act := none, held := [], convs := [], stop := false
      zmark := false, tail := none, late := false, fin := .go, at' := 0 }
/-- Home 5 in a service that has staged `r`. -/
def staging (r : Staged) : State := tick 32 (dv (fun _ => homeDev (fun h => { h with prog := { h.prog with
  svc := some { sv Context.clear Device.reset with staged := [r] } } })))

theorem witness_RoutinesLand_service (r : Staged) :
    ((staging r).core.dev.chn.at 5).prog.svc = some { sv Context.clear Device.reset with staged := [r] } ∧
    ((staging r).core.dev.chn.at 5).prog.segs = [seg0] := by
  constructor <;> simp [staging, tick, dv, State.withDev, homeDev]

theorem witness_RoutinesLand :
    (let r := stagedOf id
     r.at' ≠ (staging r).mt ∧ due r.at' (staging r).mt = true ∧ r.tail = none ∧ r.fin = .go ∧ r.newSeg = none ∧ r.act = none ∧ r.held = [] ∧ r.convs = []) ∧
    (let r := stagedOf (fun r => { r with emit := true, act := some (511, aLevel 5247) })
     r.at' ≠ (staging r).mt ∧ due r.at' (staging r).mt = true ∧ r.tail = none ∧ r.fin = .go ∧ r.newSeg = none ∧ r.act = some (511, aLevel 5247) ∧ r.held = [] ∧
     r.convs = [] ∧ r.stop = false ∧ (aLevel 5247).pos = none) ∧
    (let r := stagedOf (fun r => { r with fin := .fault ⟨1, 0, 0, none⟩ })
     r.at' ≠ (staging r).mt ∧ due r.at' (staging r).mt = true ∧ r.tail = none ∧ r.fin = .fault ⟨1, 0, 0, none⟩) ∧
    seg0.convs = [] ∧ seg0.epochs = [] ∧ seg0.rerun = false := by decide +kernel

theorem other_home (f : Channel → Channel) (c : Chan) (h : c ≠ 5) : (homeDev f).chn.at c = Channel.reset := by
  simp [homeDev, Tab.at_upd_ne _ _ h, Device.reset]

theorem witness_RoutinesLand_others (r : Staged) :
    (∀ c : Chan, ((staging r).core.dev.chn.at c).prov = []) ∧
    (∀ c : Chan, c ≠ 5 → ((staging r).core.dev.chn.at c).prog.segs = []) := by
  constructor
  · intro c
    by_cases h : c = 5
    · subst h; simp [staging, tick, dv, State.withDev, homeDev, Device.reset, Channel.reset]
    · simp [staging, tick, dv, State.withDev, other_home _ c h, Channel.reset]
  · intro c h
    simp [staging, tick, dv, State.withDev, other_home _ c h, Channel.reset, Prog.reset]

/-- Home 5 with one segment. -/
def segState (g : Segment) (f : Device → Device) : State :=
  dv (fun _ => f (homeDev (fun h => { h with prog := { h.prog with segs := [g] } })))

theorem witness_SegmentsRelease_prov (g : Segment) (c : Chan) : ((segState g id).core.dev.chn.at c).prov = [] := by
  by_cases h : c = 5
  · subst h; simp [segState, dv, State.withDev, homeDev, Device.reset, Channel.reset]
  · simp [segState, dv, State.withDev, other_home _ c h, Channel.reset]

theorem witness_SegmentsRelease :
    (let g := { seg0 with ended := true, held := [.stm 2097144 5 false 7] }
     let d := (segState g id).core.dev
     (d.chn.at 5).prog.segs = [g] ∧ g.ended = true ∧ g.fault = none ∧
     2097144 + 8 ≤ 2097152 ∧ d.bankOn 2097144 = true ∧ d.mem.bytesB = [] ∧ g.stop = false) ∧
    (let g := { seg0 with ended := true, held := [.stm 0 5 false 7] }
     let d := (segState g (fun d => d.bankUpd 0 (fun b => { b with st := .off }))).core.dev
     (d.chn.at 5).prog.segs = [g] ∧ g.ended = true ∧ g.fault = none ∧ d.bankOn 0 = false) ∧
    (let g := { seg0 with ended := true, stop := true }; g.ended = true ∧ g.fault = none ∧ g.held = [] ∧ g.stop = true) ∧
    seg0.ended = false ∧ (let g := { seg0 with fault := some ⟨14, 0x3F, 0, some 0xA000⟩ }; g.fault = some ⟨14, 0x3F, 0, some 0xA000⟩ ∧ 14 ≠ 5) ∧
    seg0.fault = none ∧ (segState seg0 id).core.ram = Ram.reset :=
  ⟨by decide +kernel, by decide +kernel, by decide, by decide, by decide, by decide, rfl⟩

/-! ## Witnesses: helm and engines -/

/-- Home 5 runnable, gate open, with the request for it. -/
def asking (gate : Bool) : State := dv (fun _ =>
  let d := homeDev (fun h => { h with prog := { h.prog with segs := [] } })
  { d with
    hlm := { Helm.reset with q := [⟨5, 1000, false⟩], eng := Tab.all { Engine.reset with insvc := true } }
    pwr := { Pwr.reset with gate := gate } })

theorem witness_Dispatch_ckpt : (asking true).core.dev.ckptUsed = 0 := by
  refine foldl_keeps (P := fun n => n = 0) _ ?_ (fins 512) 0 rfl
  intro n c h
  subst h
  by_cases h : c = 5
  · subst h; simp [asking, dv, State.withDev, homeDev, Device.reset, Channel.reset, Prog.reset, Prog.slots]
  · simp [asking, dv, State.withDev, other_home _ c h, Channel.reset, Prog.reset, Prog.slots]

theorem witness_Dispatch :
    (let d := (asking true).core.dev
     d.hlm.q = [⟨5, 1000, false⟩] ∧ (d.chn.at 5).cfg.en = true ∧ d.pwr.gate = true ∧ (d.chn.at 5).prog.running = true ∧
     (d.chn.at 5).prog.wait = .runnable ∧ (d.chn.at 5).prog.segs = [] ∧ (d.chn.at 5).prog.settled = [] ∧
     d.turn.disp < 4 ∧ bestEngine d = some 0) ∧
    (dv (fun d => { d with turn := { d.turn with disp := 4 } })).core.dev.turn.disp = 4 ∧
    ((asking true).core.dev.chn.at 5).prog.svc.isNone = true ∧ (asking false).core.dev.pwr.gate = false := by decide +kernel

/-- Home 5 in wait `w`. -/
def inWait (w : WaitState) (f : Device → Device) : State :=
  dv (fun _ => f (homeDev (fun h => { h with prog := { h.prog with wait := w, ctx := t3 } })))
/-- Home 5 in a service of `n` instructions. -/
def counted (n : Nat) (f : Device → Device) : State :=
  dv (fun _ => f (homeDev (fun h => { h with prog := { h.prog with svc := some { sv Context.clear Device.reset with count := n } } })))

theorem witness_waiting (w : WaitState) : Waiting (inWait w id) 5 w := by
  simp [Waiting, inWait, dv, State.withDev, homeDev, Device.reset, Channel.reset, Prog.reset]

theorem witness_waiting_steady : Waiting (inWait (.hold 0 false) (fun d => d.estUpd 0 (fun e => { e with st := .steady }))) 5
    (.hold 0 false) := by
  simp [Waiting, inWait, dv, State.withDev, homeDev, Device.reset, Channel.reset, Prog.reset]

theorem witness_service (n : Nat) (f : Device → Device)
    (h : ∀ d, (f d).chn = d.chn) :
    ((counted n f).core.dev.chn.at 5).prog.svc = some { sv Context.clear Device.reset with count := n } ∧
    ((counted n f).core.dev.chn.at 5).prog.segs = [seg0] ∧ ((counted n f).core.dev.chn.at 5).cfg.en = true := by
  refine ⟨?_, ?_, ?_⟩ <;> simp [counted, dv, State.withDev, h, homeDev]

/-- A request of home 6 while home 5 is in service and no engine has a free slot. -/
def pressed : State := counted 1 (fun d => { d with hlm := { d.hlm with q := [⟨6, 0, false⟩], preempt := 0x0100_0010 } })

theorem witness_latest : latestService pressed.core.dev = some (5, 1000) := by
  have hs : ∀ c : Chan, (pressed.core.dev.chn.at c).prog.svc =
      if c = 5 then some { sv Context.clear Device.reset with count := 1 } else none := by
    intro c
    by_cases h : c = 5
    · subst h; simp [pressed, counted, dv, State.withDev, homeDev]
    · simp [pressed, counted, dv, State.withDev, other_home _ c h, h, Channel.reset, Prog.reset]
  have hl : pressed.core.dev.serving = [5] := by
    have h5 : (fins 512).filter (fun c : Chan => c == 5) = [5] := by decide +kernel
    rw [← h5]
    apply List.filter_congr
    intro c _
    by_cases h : c = 5 <;> simp [hs, h]
  simp only [latestService, hl, List.foldl_cons, List.foldl_nil, hs]
  rfl

theorem witness_WaitsAndServicesEnd :
    ((t3.t.at (Fin.ofNat 4 0)).toNat ≤ 0 ∧ 0 < (t3.t.at (Fin.ofNat 4 3)).toNat) ∧
    ((inWait (.hold 0 false) (fun d => d.estUpd 0 (fun e => { e with st := .steady }))).core.dev.axs.at 0).est.st = .steady ∧
    ((inWait (.hold 0 false) id).core.dev.axs.at 0).est.st ≠ .steady ∧ 1024 ≤ 1024 ∧ 1023 < 1024 ∧
    (let s := pressed
     s.core.dev.hlm.q = [⟨6, 0, false⟩] ∧ s.core.dev.turn.pre = false ∧ bestEngine s.core.dev = none ∧
     s.core.dev.hlm.preemptEn = true ∧ 0 + 32 * fld s.core.dev.hlm.preempt 15 0 ≤ 1000 ∧
     0 ≤ s.mt + 32 * fld s.core.dev.hlm.preempt 31 16) ∧
    (counted 1 id).core.dev.hlm.q = [] := by decide +kernel

theorem witness_Engines :
    canRun { sv Context.clear Device.reset with count := 1 } = true ∧
    (let d := (counted 1 id).core.dev
     (d.hlm.eng.at 0).errs = [] ∧ (d.hlm.eng.at 15).fail = false ∧ engineChans 15 d = []) ∧
    ((hlm (fun h => { h with eng := Tab.all { Engine.reset with fail := true } })).core.dev.hlm.eng.at 15).fail = true ∧
    (10400 : BitVec 16).toNat ≤ 10400 ∧ State.reset.core.dev.thm.stage ≠ 4 ∧
    (let d := (hlm (fun h => { h with emask := 0x7FFF })).core.dev
     d.hlm.emask.getLsbD 15 = false ∧ engineChans 15 d = [] ∧ d.hlm.emask.getLsbD 14 = true) := by decide +kernel

/-! ## Witnesses: lookouts -/

theorem witness_Lookouts :
    (let d := (lko 31 (fun l => { l with cfgE := 1 })).core.dev
     (d.lko.at 31).cfgE.getLsbD 0 = true ∧ d.pwr.ana = .on ∧ (d.lko.at 31).cfgE.getLsbD 7 = false ∧
     (d.lko.at 31).cfgE.getLsbD 1 = false) ∧
    (State.reset.core.dev.lko.at 31).cfgE.getLsbD 0 = false := by decide +kernel

/-! ## Witnesses: the sounding converter, cloves, links -/

def aConv : AdcConv := ⟨79, 0, true, false, none⟩

theorem witness_Sounding :
    (let d := (snd' (fun c => { c with ctl := 5, reqMux := 64, reqGo := true })).core.dev
     d.snd.ctl.getLsbD 0 = true ∧ d.snd.conv = none ∧ d.pwr.ana = .on ∧ d.snd.reqGo = true ∧
     (d.snd.reqMux.toNat < 32 ∨ 64 ≤ d.snd.reqMux.toNat)) ∧
    State.reset.core.dev.snd.ctl.getLsbD 0 = false ∧
    (let d := (tick 4000 (snd' (fun c => { c with conv := some aConv }))).core.dev
     d.snd.conv = some aConv ∧ aConv.host = true ∧ aConv.e = none ∧ aConv.mux < 80 ∧ aConv.hold + 4000 ≤ 4000 ∧
     d.snd.ctl.getLsbD 3 = false ∧ d.snd.reqGo = false) ∧
    3968 < aConv.hold + 4000 ∧
    (let d := (tick 8000000 (snd' (fun c => { c with waitAt := some 0, endNext := true, pos := 79, bgen := Tab.all 0x8000 }))).core.dev
     d.snd.waitAt = some 0 ∧ 0 + 8000000 ≤ 8000000 ∧ d.snd.endNext = true ∧
     (d.snd.bgen.at (Fin.ofNat 3 (d.snd.pos / 32))).getLsbD (d.snd.pos % 32) = true) ∧
    State.reset.core.dev.snd.waitAt = none ∧
    (snd' (fun c => { c with fifo := [(4095, 79)] })).core.dev.snd.fifo = [(4095, 79)] ∧
    State.reset.core.dev.snd.fifo = [] := by decide +kernel

theorem witness_CloveControl :
    (let c := State.reset.core.dev.clv.at 31; (∀ k, c.mapped k = none) ∧ c.en = false ∧ c.rx = [] ∧ c.tx.length < 4) ∧
    ((clv 31 (fun c => { c with en := true })).core.dev.clv.at 31).en = true ∧
    (let c := (clv 31 (fun c => { c with run := true, cfg := 0 })).core.dev.clv.at 31
     (∀ k, c.mapped k = none) ∧ c.run = true ∧ c.cfg.getLsbD 21 = false) ∧
    ((clv 31 (fun c => { c with rx := [(7, 9)] })).core.dev.clv.at 31).rx = [(7, 9)] ∧
    State.reset.core.dev.turn.post.getLsbD 31 = false ∧ (State.reset.core.dev.clv.at 31).run = false ∧
    4 ≤ ((clv 31 (fun c => { c with tx := [1, 2, 3, 4] })).core.dev.clv.at 31).tx.length ∧
    (let c := (clv 31 (fun c => { c with line := c.line.put 7 0x0104 })).core.dev.clv.at 31
     fld (c.line.at 7) 2 0 = 4 ∧ fld (c.line.at 7) 15 8 < 2) := by decide +kernel

/-- Engine 31 running in state 62, whose table word there is `w`. -/
def cloveAt (w : Word) : State :=
  let s := clv 31 (fun c => { c with run := true, st := 62 })
  { s with core := { s.core with ram := s.core.ram.lutWrite 4 (31 * 0x800 + 4 * 248) w.toNat } }

theorem witness_CloveSteps :
    (State.reset.core.dev.clv.at 31).run = false ∧ acts 31 (cloveAt 0x8000_7F7E) ∧ acts 31 (cloveAt 0x0007_0000) ∧
    acts 0 (clv 0 (fun c => { c with run := true, forced := true })) ∧ (acted 31 Device.reset).turn.clv.getLsbD 31 = true ∧
    (let s := cloveAt 0x8000_7F7E
     let c := s.core.dev.clv.at 31
     c.run = true ∧ c.forced = false ∧ c.pend = false ∧ (∀ k, c.mapped k = none) ∧
     s.core.ram.clvWord 31 c.bank (4 * 62) = 0x8000_7F7E ∧
     (let w : Word := 0x8000_7F7E
      transIndex (fld w 30 29) (fld w 28 26) (fun k => lineValue 31 k s.mt s.core.dev) = 0 ∧
      fld w 18 16 = 0 ∧ fld w 15 14 ≤ 1 ∧ wordFaults 62 w w (s.core.ram.clvWord 31 c.bank (4 * (fld w 5 0 - 1))) = false)) ∧
    (let s := cloveAt 0x0007_0000
     let c := s.core.dev.clv.at 31
     c.run = true ∧ c.forced = false ∧ s.core.ram.clvWord 31 c.bank (4 * 62) = 0x0007_0000 ∧
     transIndex (fld (0x0007_0000 : Word) 30 29) (fld (0x0007_0000 : Word) 28 26) (fun k => lineValue 31 k s.mt s.core.dev) = 0 ∧
     wordFaults 62 0x0007_0000 0x0007_0000 (s.core.ram.clvWord 31 c.bank (4 * (0 - 1))) = true) ∧
    (let c := (clv 0 (fun c => { c with run := true, forced := true })).core.dev.clv.at 0; c.run = true ∧ c.forced = true) := by
  unfold acts
  decide +kernel

def aMsg : KeyedMsg := ⟨1, Tab.all 0, 5, some 0, false⟩

theorem witness_LinkStates :
    (let d := State.reset.core.dev; (d.glk.at 31).en = false ∧ d.pwr.link = .on ∧ (d.glk.at 31).st = .off) ∧
    ((lk 31 (fun x => { x with en := true })).core.dev.glk.at 31).en = true ∧
    ((lk 31 (fun x => { x with st := .up })).core.dev.glk.at 31).st = .up ∧
    (let x := (tick 81920 (lk 31 (fun x => { x with st := .lost, quiet := some 81920 }))).core.dev.glk.at 31
     x.st = .lost ∧ x.quiet = some 81920 ∧ 81920 ≤ 81920 ∧ x.autore = true) ∧
    (let d := (tick 8000000 (lk 31 (fun x => { x with st := .train }))).core.dev
     (d.glk.at 31).st = .train ∧ (d.glw.at 31).tmoDone = false ∧ (d.glw.at 31).trainAt + 8000000 ≤ 8000000) ∧
    (let x := (tick 327680 (lk 31 (fun x => { x with kmsg := some aMsg, ktry := 2 }))).core.dev.glk.at 31
     x.kmsg = some aMsg ∧ aMsg.sent = some 0 ∧ aMsg.due = false ∧ (0 + 64) * 5120 ≤ 327680 ∧ x.ktry < 3) ∧
    3 ≤ ((lk 31 (fun x => { x with kmsg := some aMsg, ktry := 3 })).core.dev.glk.at 31).ktry ∧
    (let d := (dv (fun d => (d.glkUpd 31 (fun x => { x with st := .up })).glwUpd 31 (fun w => { w with badRun := 1 }))).core.dev
     (d.glk.at 31).st = .up ∧ (d.glw.at 31).badRun < 2) ∧
    (let d := (dv (fun d => (d.glkUpd 31 (fun x => { x with st := .up })).glwUpd 31 (fun w => { w with badRun := 2 }))).core.dev
     (d.glk.at 31).st = .up ∧ 2 ≤ (d.glw.at 31).badRun) := by decide +kernel

theorem witness_FrameTransmission :
    (let s := tick 20480 (lk 31 (fun x => { x with st := .align }))
     s.mt % 5120 = 0 ∧ (s.core.dev.glw.at 31).nextF ≤ s.mt / 5120 ∧ s.core.dev.pwr.link = .on ∧
     (s.core.dev.glk.at 31).st = .align ∧ s.mt / 5120 % 4 = 0) ∧
    ((lk 31 (fun x => { x with st := .train })).core.dev.glk.at 31).st = .train ∧
    (let d := (dv (fun d => (d.glkUpd 31 (fun x => { x with st := .up })).glwUpd 31 (fun w => { w with safeDue := 128 }))).core.dev
     (d.glk.at 31).st = .up ∧ (d.glw.at 31).safeDue ≠ 0) ∧
    (let w := (dv (fun d => d.glwUpd 31 (fun w => { w with rd := true, frame := [0xBC] }))).core.dev.glw.at 31
     w.rd = true ∧ w.frame ≠ []) ∧
    5088 % 5120 ≠ 0 ∧ (List.replicate 12 (0 : Byte)).length = 12 ∧ 7 < 8 := by decide +kernel

/-- Link 31 in state `st`, with the frame 1 echo awaited. -/
def linkIn (st : LinkSt) (f : Device → Device) : State :=
  dv (fun d => f ((d.glkUpd 31 (fun x => { x with st := st })).glwUpd 31 (fun w => { w with awaiting := [1] })))
def pay (b0 b1 b2 : Byte) : Tab Byte 12 := (((Tab.all 0).put 0 b0).put 1 b1).put 2 b2

theorem witness_UpstreamFrames :
    (let d := (linkIn .up id).core.dev
     let x := d.glk.at 31
     fld (0x00 : Byte) 1 0 = fld x.lep 1 0 ∧ x.st = .up ∧ pairedFrame x 5136 = some 1 ∧ fld (0x00 : Byte) 7 5 = 0) ∧
    (let d := (linkIn .up (fun d => d.cfgUpd 511 (fun g => { g with en := true, mode := 14 }))).core.dev
     let x := d.glk.at 31
     let p := pay 0xE8 0xFF 0xFF
     fld (0x20 : Byte) 1 0 = fld x.lep 1 0 ∧ x.st = .up ∧ pairedFrame x 5104 = some 1 ∧ fld (0x20 : Byte) 7 5 = 1 ∧
     (p.at 0).getLsbD 3 = true ∧ (p.at 3).getLsbD 3 = false ∧ (p.at 6).getLsbD 3 = false ∧ (p.at 9).getLsbD 3 = false ∧
     stampTime x 5104 (fld (p.at 0) 2 0) (256 * (p.at 1).toNat + (p.at 2).toNat) = some 65535 ∧
     slotChan 31 (Fin.ofNat 8 (fld (p.at 0) 7 5)) = 511 ∧ (d.chn.at 511).cfg.en = true ∧ (d.chn.at 511).cfg.mode = 14 ∧
     (d.chn.at 511).pin.cap.length < 16) ∧
    (let d := (linkIn .up (fun d => d.axUpd 63 (axOn (fun r => { r with cfg := 0x00FF_0030 })))).core.dev
     let x := d.glk.at 31
     let p := pay 0xE8 0xFF 0xFF
     fld (0x40 : Byte) 7 5 = 2 ∧ (p.at 0).getLsbD 3 = true ∧ pairedFrame x 5104 = some 1 ∧
     stampTime x 5104 (fld (p.at 0) 2 0) (256 * (p.at 1).toNat + (p.at 2).toNat) = some 65535 ∧
     (fins 64).filter (fun b => (d.axs.at b).reg.en && (d.axs.at b).reg.src == 3 &&
       (d.axs.at b).reg.srcidx == 8 * 31 + fld (p.at 0) 7 5) = [63] ∧ d.dr.q = [] ∧ 65535 ≤ 0 + 4294967296) ∧
    (let d := (linkIn .up id).core.dev
     let x := d.glk.at 31
     pairedFrame x 5136 = some 1 ∧ fld (0x60 : Byte) 7 5 = 3 ∧ ((pay 1 0 0).at 0).toNat = 1 % 256 ∧
     1 ∈ (d.glw.at 31).awaiting ∧ (x.echoM ((5136 : Int) - 1 * 5120) - x.dq).natAbs ≤ 16 * x.echoWin) ∧
    fld (0xA0 : Byte) 7 5 = 5 ∧ ((linkIn .up id).core.dev.glk.at 31).rxIdx < 64 ∧
    (let d := (linkIn .train id).core.dev
     let p : Tab Byte 12 := (Tab.all 0).put 8 0x19
     let q : Tab Byte 12 := (Tab.all 0).put 8 0xA0
     (d.glk.at 31).st = .train ∧ fld (0x80 : Byte) 7 5 = 4 ∧ p.at 7 = (d.glk.at 31).lep ∧ (d.glw.at 31).syncs = [] ∧
     6400 ≤ 256 * (p.at 8).toNat + (p.at 9).toNat ∧ 256 * (q.at 8).toNat + (q.at 9).toNat ≤ 40960) ∧
    (linkIn .up id).core.ram = Ram.reset :=
  ⟨by decide +kernel, by decide +kernel, by decide +kernel, by decide +kernel, by decide, by decide +kernel,
    by decide +kernel, rfl⟩

/-! ## Witnesses: transfers -/

theorem witness_TransferControl :
    (State.reset.core.dev.xfr.ch.at 31).st = .idle ∧
    (let x := (xc 31 (fun x => { x with st := .abort, cfg := 0x7F })).core.dev.xfr.ch.at 31
     x.st ≠ .idle ∧ x.st = .abort ∧ bitOf x.cfg 9 = false ∧ x.cur = none) ∧
    (let x := (xc 31 (fun x => { x with st := .abort, cfg := 0x7F, cur := some ⟨[0x0100_0000_0000_0008], 4, false, none, [], 0, false, 0, 0, none⟩ })).core.dev.xfr.ch.at 31
     ∃ q ∈ x.cur, q.op = 1) ∧
    (let x := (xc 31 (fun x => { x with st := .asleep, abank := 15 })).core.dev.xfr.ch.at 31
     x.st = .asleep ∧ x.autoresume = true ∧ (State.reset.core.dev.mem.bank.at (Fin.ofNat 16 x.abank)).st = .on) ∧
    ((xc 31 (fun x => { x with autoresume := false })).core.dev.xfr.ch.at 31).autoresume = false ∧
    (let x := (xc 31 (fun x => { x with st := .wkick, kcnt := 254 })).core.dev.xfr.ch.at 31; x.st ≠ .idle ∧ x.kcnt < 255) ∧
    ((xc 31 (fun x => { x with st := .wkick, kcnt := 255 })).core.dev.xfr.ch.at 31).kcnt = 255 := by
  refine ⟨by decide +kernel, by decide +kernel, ?_, by decide +kernel, by decide +kernel, by decide +kernel, by decide +kernel⟩
  exact ⟨_, rfl, by decide⟩

/-- Channel 31 at the descriptor word `w`, in the last word of the banks. -/
def atDesc (w : DWord) (f : Xfer → Xfer) : State :=
  let s := xc 31 (fun x => f { x with st := .run, pc := 0x001F_FFF8 })
  { s with core := { s.core with ram := s.core.ram.bankWrite 8 0x001F_FFF8 w.toNat } }
def aMove : XferDesc := ⟨[0x0100_0000_0000_0008, 0x001F_FFF8, 0x0000_0000], 4, false, none, [], 0, false, 0, 0, none⟩

theorem witness_banksReady (w : DWord) (f : Xfer → Xfer) : banksReady (atDesc w f).core.dev := by
  intro b
  simp [atDesc, xc, dv, State.withDev, Device.reset, MemBlk.reset, Bank.reset]

theorem witness_TransferMoves :
    (let s := atDesc 0 id
     let x := s.core.dev.xfr.ch.at 31
     x.st = .run ∧ x.cur = none ∧ x.pc.toNat % 8 = 0 ∧ x.pc.toNat < 0x200000 ∧ thold 31 s.core.dev = false ∧
     fetchWord s.core x.pc.toNat = 0) ∧
    (let s := atDesc 0x0600_0000_001F_FFF8 id
     let w := fetchWord s.core 0x001F_FFF8
     fld w 63 56 = 6 ∧ fld w 55 32 = 0 ∧ fld w 31 0 % 8 = 0 ∧ fld w 31 0 < 0x200000) ∧
    (let w := fetchWord (atDesc 0x0380_0000_0000_0000 id).core 0x001F_FFF8; fld w 63 56 = 3 ∧ fld w 55 55 = 1) ∧
    (let x := (atDesc 0 (fun x => { x with st := .atend, bell := true })).core.dev.xfr.ch.at 31
     x.st = .atend ∧ x.bell = true) ∧
    (let s := atDesc 0 (fun x => { x with cur := some aMove, sptr := 0x001F_FFFC, dptr := 4 })
     let x := s.core.dev.xfr.ch.at 31
     let q := aMove
     x.cur = some q ∧ x.st = .run ∧ q.op = 1 ∧ q.plane = 0 ∧ q.pace = false ∧ q.smode = 0 ∧ q.dmode = 0 ∧ q.moved < q.len ∧
     q.part = 0 ∧ s.core.dev.mem.bytesB = [] ∧ q.src x + min q.burst (q.len - q.moved) ≤ 0x200000 ∧ q.dst x + min q.burst (q.len - q.moved) ≤ 0x200000 ∧
     q.len ≤ q.moved + min (min q.burst (q.len - q.moved)) (min (256 - q.src x % 16) (256 - q.dst x % 16))) ∧
    (let q := { aMove with moved := 0 }; q.moved + min (min q.burst (q.len - q.moved)) (min (256 - 4) (256 - 4)) < q.len) ∧
    (let x := (atDesc 0 (fun x => { x with st := .wkick, kcnt := 1 })).core.dev.xfr.ch.at 31; x.st = .wkick ∧ 0 < x.kcnt ∧ x.cur = none) ∧
    (let x := (atDesc 0 (fun x => { x with st := .wtime, wtime := 64 })).core.dev.xfr.ch.at 31
     x.st = .wtime ∧ x.wtime ≤ 64 ∧ 63 < x.wtime ∧ x.cur = none) ∧
    (let q : XferDesc := ⟨[0x0700_0000_0000_01FF], 0, false, none, [], 0, true, 0, 0, none⟩
     let x := (atDesc 0 (fun x => { x with cur := some q })).core.dev.xfr.ch.at 31
     x.cur = some q ∧ q.signal = true ∧ x.st = .run ∧ fld (q.w 0) 49 48 = 0) ∧
    (∀ m, (State.reset.core.dev.xfr.ch.at m).st ≠ .plane) ∧
    (let d := (atDesc 0 (fun x => { x with st := .plane })).core.dev
     (d.xfr.ch.at 31).st = .plane ∧ d.xfr.plane.at 0 = none ∧
     (∀ m, m ≠ 31 → (d.xfr.ch.at m).st = .plane → (d.xfr.ch.at 31).arrive < (d.xfr.ch.at m).arrive)) := by
  decide +kernel

theorem witness_ram_wf (w : DWord) (f : Xfer → Xfer) : (atDesc w f).core.ram.wf :=
  Ram.bankWrite_wf Ram.reset_wf 8 0x001F_FFF8 w.toNat

/-! ## Witnesses: banks, mace, almanac -/

def pended (st : BankSt) (req : BitVec 2) : State :=
  tick 32 (bk 15 (fun b => { b with st := st, req := req, pend := true, pendAt := 0 }))
def maced (f : MemBlk → MemBlk) : State := mace (fun m => f { m with mst := .run, mbank := 15, mrow := 254, mctl := 0x8000_0008, run := 0x8000_0008 })

theorem witness_BanksAndMace :
    (let b := State.reset.core.dev.mem.bank.at 15
     fld (0x10 : Word) 1 0 = b.req.toNat ∧ bitOf (0x10 : Word) 5 = b.offline ∧ fld (2 : Word) 1 0 ≠ b.req.toNat ∧
     fld (2 : Word) 1 0 ≠ 3 ∧ bitOf (2 : Word) 5 = false ∧ State.reset.core.dev.evc.en = false ∧ b.req ≠ 3 ∧
     fld (3 : Word) 1 0 = 3 ∧ b.pend = false ∧ b.st ≠ .waking ∧ b.st ≠ .powering) ∧
    (let s := pended .on 2
     let b := s.core.dev.mem.bank.at 15
     b.pend = true ∧ b.pendAt < s.mt ∧ b.offline = false ∧ s.core.dev.mem.mst = .idle ∧ s.core.dev.mem.borrow = false ∧
     b.st = .on ∧ b.req = 2) ∧
    (let m := (mace (fun m => { m with mst := .run, borrow := true, mbank := 15 })).core.dev.mem
     m.borrow = true ∧ m.mbank = (15 : BankNo).val ∧ m.mst ≠ .idle ∧ m.borrow = true) ∧
    (let b := (pended .on 1).core.dev.mem.bank.at 15; b.st = .on ∧ b.req = 1) ∧
    (let b := (pended .retention 0).core.dev.mem.bank.at 15; b.st = .retention ∧ b.req = 0) ∧
    (let b := (pended .off 1).core.dev.mem.bank.at 15; b.st = .off ∧ (b.req = 0 ∨ b.req = 1)) ∧
    (let b := (pended .waking 0).core.dev.mem.bank.at 15; b.st = .waking ∧ b.offline = false ∧ b.req = 0 ∧ b.pend = true) ∧
    (let b := (pended .powering 0).core.dev.mem.bank.at 15; b.st = .powering ∧ b.offline = false ∧ b.req = 0 ∧ b.pend = true) := by
  decide +kernel

theorem witness_mace :
    (bitOf (0x8000_0001 : Word) 1 = false ∧ bitOf (0x8000_0001 : Word) 3 = false ∧ bitOf (0x8000_0001 : Word) (16 + 15) = true ∧
     (∀ o : BankNo, o < 15 → ¬ bitOf (0x8000_0001 : Word) (16 + o.val) = true) ∧
     (∀ o : BankNo, ¬ bitOf (1 : Word) (16 + o.val) = true)) ∧
    (let m := (maced id).core.dev.mem
     let b := m.bank.at (Fin.ofNat 16 m.mbank)
     m.mst ≠ .idle ∧ m.mst = .run ∧ m.destr = false ∧ m.borrow = false ∧ b.pend = false ∧ State.reset.core.dev.thm.stage = 0) ∧
    (let s := maced (fun m => { m with borrow := true })
     let m := s.core.dev.mem
     let b := m.bank.at (Fin.ofNat 16 m.mbank)
     m.mst = .run ∧ m.destr = false ∧ m.borrow = true ∧ m.stop = false ∧ m.mrow < 255 ∧ bitOf m.run 6 = false ∧ b.nfail = 0 ∧
     ((rowWords (Fin.ofNat 16 m.mbank) m.mrow s.core.ram).at 63).getLsbD 63 = false) ∧
    (let m := (maced (fun m => { m with borrow := true, run := 0x8000_0040 })).core.dev.mem
     let b := m.bank.at (Fin.ofNat 16 m.mbank)
     bitOf m.run 6 = true ∧ (5 : DWord) ≠ 0 ∧ (b.spares.at 0).valid = false ∧ (b.spares.at 0).bad = false) ∧
    (State.reset.core.dev.mem.mst = .idle ∧ State.reset.core.dev.mem.borrow = false) ∧
    1 ≤ (dv (fun d => { d with thm := { d.thm with stage := 1 } })).core.dev.thm.stage ∧
    (let m := (maced (fun m => { m with destr := true })).core.dev.mem
     m.mst = .run ∧ m.destr = true ∧ bitOf m.run (16 + 15) = true ∧ (m.bank.at 15).intr = false ∧ (m.bank.at 15).nfail = 0) := by
  decide +kernel

/-- Table 63 in CHECK, of two entries beside a live extent of two. -/
def checking (f : ATable → ATable) : State := tb 63 (fun t => f { t with
  st := .check, defd := true, lbase := 0, llen := 2, sbase := 16382, slen := 2 })
/-- Those entries, the second with key `k` and table `n`. -/
def entries (k n : Nat) : State :=
  let s := checking id
  let r := s.core.ram.almWrite 8 (16 * 16382) (63 * 281474976710656 + 5)
  { s with core := { s.core with ram := r.almWrite 8 (16 * 16383) (n * 281474976710656 + k) } }

theorem witness_AlmanacSwitches :
    (let t := State.reset.core.dev.alm.at 63; t.st = .idle ∧ t.drain = none ∧ t.defd = false) ∧
    (let t := (checking id).core.dev.alm.at 63; t.st ≠ .idle ∧ t.st = .check ∧ t.defd = true ∧ t.atmode < 2) ∧
    ((checking (fun t => { t with defd := false })).core.dev.alm.at 63).defd = false ∧
    ((checking (fun t => { t with atmode := 3 })).core.dev.alm.at 63).atmode = 3 ∧
    extentFails 63 (checking (fun t => { t with slen := 3 })).core.dev = true ∧
    extentFails 63 (checking id).core.dev = false ∧
    (let t := (tb 63 (fun t => { t with st := .pend, passAt := 0 })).core.dev.alm.at 63; t.st = .pend) ∧
    switchAt 63 (tb 63 (fun t => { t with st := .pend, passAt := 0 })).core.dev = 32 ∧
    (let t := (tb 63 (fun t => { t with st := .drain, drain := some (0, 1, 32) })).core.dev.alm.at 63
     t.drain = some (0, 1, 32) ∧ t.st = .drain) ∧
    (let t := (tb 63 (fun t => { t with defd := true })).core.dev.alm.at 63; t.st = .idle ∧ t.defd = true) := by decide +kernel

theorem witness_almanac_entries :
    entryCheck 63 0 (entries 5 63).core = 0 ∧ entryCheck 63 1 (entries 5 63).core = 0 ∧
    entryCheck 63 1 (entries 4 63).core ≠ 0 ∧ entryCheck 63 1 (entries 5 62).core ≠ 0 := by decide +kernel

/-- A service with view at 0 while table 63 drains from boundary 32. -/
def drainedBy : State := dv (fun _ => (homeDev (fun h => { h with prog := { h.prog with
  svc := some (sv Context.clear Device.reset) } })).tabUpd 63 (fun t => { t with st := .drain, drain := some (0, 1, 32) }))

theorem witness_almanac_drain :
    (drainedBy.core.dev.chn.at 5).prog.svc = some (sv Context.clear Device.reset) ∧ (sv Context.clear Device.reset).view.at' < 32 ∧
    (∀ c : Chan, (State.reset.core.dev.chn.at c).prog.svc = none) := by
  refine ⟨by simp [drainedBy, dv, State.withDev, homeDev], by decide +kernel, ?_⟩
  intro c
  simp [State.reset, Device.reset, Channel.reset, Prog.reset]

/-! ## Witnesses: events -/

/-- The host port in READY with strap `par`, and `n` writes waiting. -/
def strapped (par : Bool) (f : Hps → Hps) : State := hps (fun h => f { h with par := par })
def posts (n : Nat) : List HostAcc := List.replicate n (.write 0 0)

theorem witness_EventSources :
    (let e := { Device.reset.evc with mode := Tab.all 0xFFFF_FFFF }; e.isLevel 255 = true) ∧
    (let e := (queued [aCause 1, aCause 2, aCause 3]).evc
     e.isLevel 255 = false ∧ (e.src.at 255).q.length < 4 ∧ ∀ c ∈ (e.src.at 255).q, c.at' < 32) ∧
    (let e := (evc (fun e => { e with wp := 3, rp := 0xFFFF_FFFF })).core.dev.evc
     e.wp ≠ e.rsv ∧ (3 - e.rp : Word).toNat ≤ (e.wp - e.rp).toNat ∧ (e.wp - e.rp).toNat < (4 - e.rp : Word).toNat ∧ e.full = false) ∧
    (let d := State.reset.core.dev; d.hps.q = [] ∧ d.evc.wp = d.evc.rsv) ∧ (strapped false (fun h => { h with q := posts 1 })).core.dev.hps.q ≠ [] ∧
    bitOf ((Tab.all (0 : Word) : Tab Word 8).at 7) (255 % 32) ≠ bitOf (0x8000_0000 : Word) (255 % 32) ∧
    bitOf ((Tab.all (0 : Word) : Tab Word 8).at 7) (254 % 32) = bitOf (0x8000_0000 : Word) (254 % 32) := by decide +kernel

/-- A ring whose one unmasked source is 255, with a cause. -/
def ring (rsv : Word) : State := evc (fun e => { e with
  en := true, rsv := rsv, mask := (Tab.all 0xFFFF_FFFF).put 7 0x7FFF_FFFF, src := e.src.put 255 { Source.reset with q := [aCause 1] } })
def aRec (stale : Bool) : Rec := ⟨0xFFFF_FFFF, 255, 0x11, 5, 9, 0x1F_FFF0, stale⟩

theorem witness_EventRing :
    (let e := (evc (fun e => { e with rbase := 0x1E_0000 })).core.dev.evc
     e.en = false ∧ 6 ≤ (12 : BitVec 4).toNat ∧ (12 : BitVec 4).toNat ≤ 12 ∧ e.rbase.toNat % (16 * 2 ^ 12) = 0 ∧
     e.rbase.toNat + 16 * 2 ^ 12 ≤ 0x200000) ∧
    (5 : BitVec 4).toNat < 6 ∧ (0x1F_0000 : Word).toNat % 16 = 0 ∧ (0x1F_E000 : Word).toNat + 128 * 2 ^ 6 ≤ 0x200000 ∧
    (let e := (ring 63).core.dev.evc
     e.en = true ∧ (7 : BitVec 4) ≠ e.size ∧ e.isLevel 255 = false ∧ (e.src.at 255).q = [aCause 1] ∧ (e.src.at 255).ovf = false ∧
     e.isMasked 255 = false ∧ (∀ o : SourceNo, o ≠ 255 → e.isMasked o = true) ∧ e.ringFull = false) ∧
    (let e := (ring 64).core.dev.evc; e.ringFull = true ∧ e.full = false ∧ (255 : SourceNo) ≠ 248) ∧
    (∀ o, State.reset.core.dev.evc.isMasked o = true) ∧ State.reset.core.dev.evc.due = [] ∧
    (dv (fun d => { d with turn := { d.turn with rsv := true } })).core.dev.turn.rsv = true ∧
    (tick 32 (ring 63)).core.dev.turn.rsv = false ∧ (aCause 1).stamp < (tick 32 (ring 63)).mt ∧
    (let d := (evc (fun e => { e with rbase := 0x1F_FC00, due := [aRec false] })).core.dev
     d.evc.due = [aRec false] ∧ d.mem.bytesB = [] ∧ (aRec false).addr + 16 ≤ 0x200000 ∧
     d.evc.slotAddr (aRec false).seq = (aRec false).addr) ∧
    (evc (fun e => { e with due := [aRec true] })).core.dev.evc.due = [aRec true] := by decide +kernel

/-! ## Witnesses: host port -/

theorem witness_HostPort :
    portOn false State.reset.core.dev = false ∧ portOn true (strapped false id).core.dev = false ∧
    (let s := strapped false (fun h => { h with q := posts 14 })
     portOn false s.core.dev = true ∧ fld (0x3B_FFF8 : Word) 1 0 = 0 ∧ (0x3B_FFF8 : Word).toNat + 8 ≤ 0x3C0000 ∧
     s.core.dev.hps.posted < 15) ∧
    (let s := strapped false (fun h => { h with q := posts 16 })
     portOn false s.core.dev = true ∧ 16 ≤ s.core.dev.hps.posted ∧ s.core.dev.hps.posted ≤ 16) ∧
    fld (1 : Word) 1 0 ≠ 0 ∧ (∀ b : Byte, ProtoError.command 0x03 = .command b → b ≠ 0x02 ∧ b ≠ 0x0B ∧ b ≠ 0x05) ∧
    (dv (fun d => { d with turn := { d.turn with wrote := true } })).core.dev.turn.wrote = true ∧
    (6 : Byte).toNat = 6 ∧ (0x3 : Byte) ≠ 4 ∧
    (let d := (strapped false id).core.dev
     portOn false d = true ∧ fld (0x1F_FFFC : Word) 1 0 = 0 ∧ (0x1F_FFFC : Word).toNat < 0x200000 ∧ d.pwr.phase = .ready ∧
     d.turn.wrote = false ∧ d.hps.q = [] ∧ d.hps.heldAt = none ∧ (d.mem.bank.at (bankOf (0x1F_FFFC : Word).toNat)).st = .on) ∧
    (let d := (strapped false id).core.dev.bankUpd 15 (fun b => { b with st := .off })
     (d.mem.bank.at (bankOf (0x1F_FFFC : Word).toNat)).st = .off ∧ d.hps.berr = false) ∧
    (let s := strapped true (fun h => { h with paddr := 0x3B_FFFC, q := posts 15 })
     portOn true s.core.dev = true ∧ s.core.dev.hps.posted < 16 ∧ s.core.dev.hps.paddr.toNat + 4 ≤ 0x3C0000 ∧
     s.core.dev.hps.rdy = false) ∧
    (let h := (strapped true (fun h => { h with rdy := true, pctl := 0 })).core.dev.hps; h.rdy = true ∧ h.pctl = 0) ∧
    (let h := (strapped true (fun h => { h with rdy := true, pctl := 3, paddr := 0x3B_FFFC })).core.dev.hps
     h.rdy = true ∧ h.pctl = 3 ∧ h.paddr.toNat + 4 ≤ 0x3C0000) ∧
    State.reset.core.dev.hps.q = [] ∧
    (let d := (strapped true (fun h => { h with q := [.start 0x1F_FFFC] })).core.dev
     d.hps.q = [.start 0x1F_FFFC] ∧ (0x1F_FFFC : Word).toNat % 4 = 0 ∧ (0x1F_FFFC : Word).toNat < 0x200000 ∧
     d.pwr.phase = .ready ∧ (d.mem.bank.at (bankOf (0x1F_FFFC : Word).toNat)).st = .on) ∧
    (let d := (tick 160000 (strapped false (fun h => { h with q := [.write 4 5], heldAt := some 0 }))).core.dev
     d.hps.q = [.write 4 5] ∧ d.hps.heldAt = some 0 ∧ d.dbg.acc = none ∧ 0 + 160000 ≤ 160000 ∧ 159968 < 0 + 160000) := by
  refine ⟨by decide +kernel, by decide +kernel, by decide +kernel, by decide +kernel, by decide, ?_, by decide +kernel,
    by decide, by decide, by decide +kernel, by decide +kernel, by decide +kernel, by decide +kernel, by decide +kernel,
    by decide +kernel, by decide +kernel, by decide +kernel⟩
  intro b h
  cases h
  decide

theorem witness_HostAccesses :
    State.reset.core.dev.pwr.phase = .pll ∧ bitOf (pwr (fun p => { p with vioIn := 0x7F })).core.dev.pwr.vioIn 7 = false ∧
    (let d := (strapped false (fun h => { h with q := posts 15 })).core.dev
     portUp d = true ∧ d.hps.q ≠ [] ∧ d.hps.posted < 16) ∧
    (let d := (dv (fun d => { d with pwr := { d.pwr with phase := .load }, hlm := { d.hlm with waithost := true } })).core.dev
     d.pwr.phase = .load ∧ d.hlm.waithost = true ∧ bitOf d.pwr.vioIn 7 = true) ∧
    (let d := (hps (fun h => { h with dptr := 0x1F_FFFF })).core.dev
     bitOf d.pwr.vioIn 7 = true ∧ d.hps.q = [] ∧ d.hps.heldAt = none ∧ d.evc.maskWait = false ∧ d.mem.bytesB = [] ∧
     d.turn.wrote = false ∧ d.pwr.phase = .ready ∧ (0x1F_FFFF : Word).toNat < 0x200000 ∧
     (d.mem.bank.at (bankOf (0x1F_FFFF : Word).toNat)).st = .on ∧ d.hps.width = false ∧ d.hps.dptr = 0x1F_FFFF ∧
     d.hps.berr = false) ∧
    0x278000 ≤ (0x27_8000 : Word).toNat ∧ (0x27_FFFF : Word).toNat < 0x280000 ∧ 0x278000 ≤ (0x27_FFFF : Word).toNat := by
  decide +kernel

/-! ## Witnesses: keyed commands and the debug port -/

/-- The keel not lost, its counter at 4, the image running: what an ARM needs. -/
def keyDev (f : Device → Device) : Device := f { Device.reset with
  keel := { Keel.powerOn with ctrLost := false, ctr := Tab.all 4 }
  hlm := { Helm.reset with mode := .normal }
  pwr := { Pwr.reset with phase := .ready, vcoreOk := true, vauxOk := true } }

/-- A block with the right MAC under the zero key of an unprovisioned part is accepted. -/
theorem accepted_of (opc : Nat) (cnt : DWord) (args : List Word) (ok : Bool) (d : Device) (ho : 1 ≤ opc ∧ opc ≤ 9)
    (h : args.length ≤ 9) (ha : alenOk opc args.length = true) (hp : d.fuses.prov = false) (hj : d.key.job = none)
    (hl : d.key.lockEnd = none)
    (hc : opc = 9 ∧ d.keel.ctrLost = true ∨ opc ≠ 9 ∧ d.keel.ctrLost = false ∧ d.keel.counter.toNat < cnt.toNat)
    (hk : ∀ m, cmdCheck (Block.make opc cnt args m) ok d = 0) : ∃ m, accepted (Block.make opc cnt args m) ok d := by
  refine ⟨tagOf 0 opc cnt args d, ?_⟩
  unfold accepted
  exact ⟨hj, Block.make_passes ho h ha (by simp [Fuses.commandKey, hp]) hl hc, hk _⟩

/-- Command slots 0 and 3 programmed. -/
def slots03 : Device := keyDev (fun d => { d with
  fuses := { d.fuses with ckey := ((Tab.all none).put 0 (some 1)).put 3 (some 2) } })
/-- The debug port CLOSED, with a debug key. -/
def closedDev : Device := keyDev (fun d => { d with
  fuses := { d.fuses with closeC := 1, dkey := (Tab.all none).put 0 (some 7) } })
/-- The response that opens it. -/
def opening : BitVec 128 := BitVec.ofNat 128 (octNat (cmac (beBytes 16 (7 : BitVec 128).toNat)
  (beBytes 4 0x4D4C_4442 ++ beBytes 8 closedDev.fuses.duid.toNat ++ beBytes 16 closedDev.key.nonce.toNat)))

theorem witness_opening : debugResponse closedDev = some (beBytes 16 opening.toNat) := by
  have hl := cmac_length (beBytes 16 (7 : BitVec 128).toNat)
    (beBytes 4 0x4D4C_4442 ++ beBytes 8 closedDev.fuses.duid.toNat ++ beBytes 16 closedDev.key.nonce.toNat) (beBytes_length _ _)
  have hv := octNat_lt (cmac (beBytes 16 (7 : BitVec 128).toNat)
    (beBytes 4 0x4D4C_4442 ++ beBytes 8 closedDev.fuses.duid.toNat ++ beBytes 16 closedDev.key.nonce.toNat))
  have hb := beBytes_octNat (cmac (beBytes 16 (7 : BitVec 128).toNat)
    (beBytes 4 0x4D4C_4442 ++ beBytes 8 closedDev.fuses.duid.toNat ++ beBytes 16 closedDev.key.nonce.toNat))
  rw [hl] at hv hb
  show some _ = some _
  rw [opening, BitVec.toNat_ofNat, Nat.mod_eq_of_lt (by norm_num at hv ⊢; exact hv), hb]

theorem witness_KeyedCommands_accepted :
    (∃ m, accepted (Block.make 1 5 [] m) true (keyDev id)) ∧ (∃ m, accepted (Block.make 2 5 [] m) true (keyDev id)) ∧
    (∃ m, accepted (Block.make 3 5 [0x0001_01FF, 0x1F2, 7] m) true (keyDev id)) ∧
    (∃ m, accepted (Block.make 4 5 [2] m) true (keyDev id)) ∧
    (∃ m, accepted (Block.make 5 5 [9] m) true slots03) ∧
    (∃ m, accepted (Block.make 7 5 [0x0000_0F1F, 0, 0, 0] m) true (keyDev id)) ∧
    (∃ m, accepted (Block.make 8 5 [0] m) true slots03) ∧
    (∃ m, accepted (Block.make 9 5 [] m) true Device.reset) ∧
    (∃ m, accepted (Block.make 6 5 [w32 (opening.toNat >>> 96), w32 (opening.toNat >>> 64), w32 (opening.toNat >>> 32),
      w32 opening.toNat] m) true closedDev) := by
  have c {opc : Nat} {args : List Word} {ok : Bool} {d : Device} (ho : opc < 256) (h : args.length ≤ 9)
      (k : cmdCheck (Block.make opc 5 args 0) ok d = 0) : ∀ m, cmdCheck (Block.make opc 5 args m) ok d = 0 :=
    fun m => (Block.make_cmdCheck 5 m 0 ho h ok d).trans k
  refine ⟨?_, ?_, ?_, ?_, ?_, ?_, ?_, ?_, ?_⟩
  · exact accepted_of 1 5 _ true _ (by decide) (by decide) rfl rfl rfl rfl (by decide +kernel) (c (by decide) (by decide) (by decide +kernel))
  · exact accepted_of 2 5 _ true _ (by decide) (by decide) rfl rfl rfl rfl (by decide +kernel) (c (by decide) (by decide) (by decide +kernel))
  · exact accepted_of 3 5 _ true _ (by decide) (by decide) rfl rfl rfl rfl (by decide +kernel) (c (by decide) (by decide) (by decide +kernel))
  · exact accepted_of 4 5 _ true _ (by decide) (by decide) rfl rfl rfl rfl (by decide +kernel) (c (by decide) (by decide) (by decide +kernel))
  · exact accepted_of 5 5 _ true _ (by decide) (by decide) rfl rfl rfl rfl (by decide +kernel) (c (by decide) (by decide) (by decide +kernel))
  · exact accepted_of 7 5 _ true _ (by decide) (by decide) rfl rfl rfl rfl (by decide +kernel) (c (by decide) (by decide) (by decide +kernel))
  · exact accepted_of 8 5 _ true _ (by decide) (by decide) rfl rfl rfl rfl (by decide +kernel) (c (by decide) (by decide) (by decide +kernel))
  · exact accepted_of 9 5 _ true _ (by decide) (by decide) rfl rfl rfl rfl (by decide +kernel) (c (by decide) (by decide) (by decide +kernel))
  · refine accepted_of 6 5 _ true _ (by decide) (by simp) rfl rfl rfl rfl (by decide +kernel) (fun m => ?_)
    have h1 : dbgState closedDev = 1 := by decide +kernel
    have h2 : closedDev.dbg.exhausted = false := by decide +kernel
    simp [cmdCheck, Block.make_opc (show 6 < 256 by decide), h1, h2]

theorem witness_KeyedCommands :
    (keyed (fun k => { k with job := some (Tab.all 0) })).core.dev.key.job ≠ none ∧ State.reset.core.dev.key.job = none ∧
    blockOf (.arm 5 0) = some (Block.make 1 5 [] 0, true) ∧
    (blockCheck (Block.make 1 4 [] 0) (keyDev id) = 5) ∧ (4 : DWord).toNat ≤ (keyDev id).keel.counter.toNat ∧
    (keyed (fun k => { k with lockEnd := some 64 })).core.dev.key.lockEnd = some 64 ∧
    (keyDev id).key.lockEnd = none ∧ (keyDev id).keel.ctrLost = false ∧ State.reset.core.dev.keel.ctrLost = true ∧
    bitOf (0x0001_01FF : Word) 31 = false ∧ fld (9 : Word) 7 0 = 9 ∧ fld (0 : Word) 1 0 = 0 ∧ (keyDev id).pwr.armed = false := by
  decide +kernel

/-- A provisioned part with no good command key: every MAC is bad. -/
def keyless (n : Nat) : Device := keyDev (fun d => { d with
  fuses := { d.fuses with provC := 2 }, key := { d.key with badmac := n } })

theorem witness_KeyedCommands_badmac :
    (keyless 7).key.job = none ∧ blockCheck (Block.make 1 5 [] 0) (keyless 7) = 6 ∧ 7 ≤ (keyless 7).key.badmac ∧
    (keyless 6).key.badmac < 7 := by decide +kernel

theorem witness_KeyedCommands_refused : ∃ m, ((keyDev id).key.job = none ∧
    blockCheck (Block.make 8 5 [3] m) (keyDev id) = 0 ∧ cmdCheck (Block.make 8 5 [3] m) true (keyDev id) ≠ 0) := by
  refine ⟨tagOf 0 8 5 [3] (keyDev id), rfl, Block.make_passes (by decide) (by decide) rfl rfl rfl (by decide +kernel), ?_⟩
  rw [Block.make_cmdCheck 5 _ 0 (by decide) (by decide)]
  decide +kernel

theorem witness_DebugPort :
    bitOf State.reset.core.dev.pwr.vioIn 6 = true ∧ bitOf (pwr (fun p => { p with vioIn := 0xBF })).core.dev.pwr.vioIn 6 = false ∧
    (let d := State.reset.core.dev; d.pwr.hold = 0 ∧ bitOf d.pwr.vioIn (255 / 32) = true) ∧
    (let d := (strapped false (fun h => { h with q := posts 1 })).core.dev; d.hps.q ≠ [] ∧ 2 ≤ d.pwr.phase.num ∧ dbgState d = 0) ∧
    State.reset.core.dev.dbg.extest = false ∧ (dbg (fun b => { b with extest := true })).core.dev.dbg.extest = true ∧
    dbgState closedDev = 1 ∧ closedDev.dbg.exhausted = false ∧ dbgState Device.reset = 0 ∧
    dbgState { closedDev with dbg := { Dbg.reset with opened := true } } = 2 ∧
    dbgState { Device.reset with fuses := { Fuses.reset with permC := 4 } } = 3 ∧
    (let d := (dbg (fun b => { b with exhausted := true })).core.dev
     let e := { d with fuses := { d.fuses with closeC := 1 } }
     dbgState e = 1 ∧ e.dbg.exhausted = true) ∧
    (let d := (keyDev (fun d => { d with fuses := { d.fuses with closeC := 1 } }))
     dbgState d = 1 ∧ debugResponse d ≠ some (beBytes 16 5)) ∧
    (let d := keyDev id
     d.pwr.phase = .ready ∧ d.hps.q = [] ∧ d.mem.bytesB = [] ∧ dbgState d = 0 ∧ d.dbg.extest = false ∧
     (0x1F_FFFF : Word).toNat < 0x200000 ∧ (d.mem.bank.at (bankOf (0x1F_FFFF : Word).toNat)).st = .on) := by
  decide +kernel

/-! ## Witnesses: resets, boot, power, temperature -/

theorem witness_ResetsAndBoot :
    (let d := (dv (fun d => { d with pwr := { d.pwr with phase := .fuse }, keel := { d.keel with ctrLost := false } })).core.dev
     d.pwr.hold = 0 ∧ d.pwr.phase = .fuse ∧ d.keel.ctrLost = false ∧ d.fuses.cut = [] ∧ d.key.job = none ∧
     bitOf d.pwr.hold 0 = false) ∧
    (pwr (fun p => { p with hold := 8 })).core.dev.pwr.hold ≠ 0 ∧ bitOf (pwr (fun p => { p with hold := 1 })).core.dev.pwr.hold 0 = true ∧
    State.reset.core.dev.pwr.phase ≠ .fuse ∧ State.reset.core.dev.pwr.phase ≠ .test ∧
    State.reset.core.dev.pwr.phase ≠ .clear ∧ State.reset.core.dev.pwr.phase ≠ .load ∧
    (pwr (fun p => { p with phase := .test })).core.dev.pwr.phase = .test ∧
    (pwr (fun p => { p with phase := .clear })).core.dev.pwr.phase = .clear ∧
    (let d := (pwr (fun p => { p with phase := .load })).core.dev
     d.pwr.phase = .load ∧ d.hlm.mode = .boot ∧ d.hlm.locked = false ∧ d.hlm.waithost = false) ∧
    (let d := (dv (fun d => { d with pwr := { d.pwr with phase := .load }, hlm := { d.hlm with mode := .recovery } })).core.dev
     d.pwr.phase = .load ∧ d.hlm.waithost = false ∧ (d.hlm.loaded = true ∨ d.hlm.mode = .recovery)) ∧
    (hlm (fun h => { h with waithost := true })).core.dev.hlm.waithost = true ∧ State.reset.core.dev.hlm.mode ≠ .recovery ∧
    (let d := (hlm (fun h => { h with waithost := true })).core.dev.bankUpd 15 (fun b => { b with st := .off })
     d.hlm.waithost = true ∧ (d.mem.bank.at 15).st ≠ .on) := by decide +kernel

/-- An image of no records and no microwords: header, the tag under the key 7, and a signature by the private key 2. -/
def anImage : List Byte :=
  beBytes 4 imgMagic ++ beBytes 2 1 ++ beBytes 2 0 ++ beBytes 4 sysId ++ beBytes 4 0xB1 ++ beBytes 48 0 ++
  beBytes 32 0x7cf27b188d034f7e8a52380304b51ac3c08969e277f21b35a60b48fc47669978 ++
  beBytes 32 0x7775510db8ed040293d9ac69f7430dbba7dade63ce982299e04b79d227873d1 ++
  beBytes 16 0x39cc8b0408f38e60b48ea9f1793f9a5e ++
  beBytes 32 0x6b17d1f2e12c4247f8bce6e563a440f277037d812deb33a0f4a13945d898c296 ++
  beBytes 32 0x232de35abc809e416e077f3831a313976f3f4e4f60e6fc8465a81410ea84a23f

/-- The boot ROM waits, with that image in the banks and its keys in the fuses. -/
def imageWaits : State :=
  let s := dv (fun d => { d with
    hlm := { d.hlm with waithost := true, len := 208 }
    fuses := { d.fuses with
      ikey := (Tab.all none).put 0 (some 7)
      pkh := (Tab.all none).put 0 (some 0xd07aeb134840b15242e12d4a06ce3ab493cbd020ebc3bd5aaecd822f51e0c3d8) } })
  { s with core := { s.core with ram := { s.core.ram with
      bank := ((nats 208).zip anImage).filter (fun x => x.2 != 0) } } }

theorem witness_image_waits :
    (nats (max imageWaits.core.dev.hlm.len 128)).map (fun a => BitVec.ofNat 8 (imageWaits.core.ram.bankRead 1 a)) = anImage ∧
    imageWaits.core.dev.hlm.len = 208 ∧ imageWaits.core.dev.hlm.waithost = true ∧
    (∀ b, (imageWaits.core.dev.mem.bank.at b).st = .on) ∧
    payloadCheck (imgRecs 0 (imgPayload imageWaits.core.dev.fuses anImage)) (imgWords 0 0 (imgPayload imageWaits.core.dev.fuses anImage)) = 0 ∧
    (imgHead anImage).nd = 0 ∧ (imgHead anImage).nw = 0 ∧ imgCheck Fuses.reset (List.replicate 128 0) 208 ≠ 0 := by
  decide +kernel

set_option maxRecDepth 100000 in
theorem witness_image_passes : imgCheck imageWaits.core.dev.fuses anImage 208 = 0 := by decide +kernel

/-- Pin bank 7 supplied, with channel 255 an enabled output on it. -/
def ioDev (en : Bool) : Device :=
  { Device.reset.cfgUpd 255 (fun g => { g with en := en, mode := 1 }) with pwr := { Pwr.reset with vioOk := 0x80, vcoreOk := true } }

theorem bankInUse_of (d : Device) (c : Chan) (k : Fin 8) (h : (pinBank c == some k && (d.chn.at c).cfg.en &&
    isOutMode (d.chn.at c).cfg.mode) = true) : bankInUse k d = true :=
  List.any_eq_true.mpr ⟨c, mem_fins c, h⟩

theorem witness_SuppliesAndDomains :
    (let p := (pwr (fun p => { p with phase := .test })).core.dev.pwr; p.phase ≠ .pll ∧ p.phase ≠ .fuse) ∧
    State.reset.core.dev.pwr.vcoreOk = false ∧ (ioDev true).pwr.vcoreOk = true ∧ Device.reset.pwr.vioOk.getLsbD 7 = false ∧
    (ioDev true).pwr.vioOk.getLsbD 7 = true ∧
    (∀ y, (5 : BitVec 3).getLsbD (domBit y) = true ∨ Device.reset.pwr.dctl.getLsbD (domBit y) = false ∨
      domainInUse y Device.reset = false) ∧
    (let d := (lk 31 (fun x => { x with en := true })).core.dev
     (5 : BitVec 3).getLsbD (domBit .link) = false ∧ d.pwr.dctl.getLsbD (domBit .link) = true ∧ domainInUse .link d = true) ∧
    (let d := (pwr (fun p => { p with link := .off })).core.dev
     d.pwr.dctl.getLsbD (domBit .link) = true ∧ d.pwr.dom .link = .off) ∧
    (let d := (pwr (fun p => { p with dctl := 0 })).core.dev
     d.pwr.dctl.getLsbD (domBit .ana) = false ∧ d.pwr.dom .ana ≠ .off) ∧
    (pwr (fun p => { p with alm := .powering })).core.dev.pwr.dom .alm = .powering ∧ Device.reset.pwr.dom .alm ≠ .powering := by
  refine ⟨by decide +kernel, by decide, by decide +kernel, by decide +kernel, by decide +kernel, ?_, by decide +kernel, by decide +kernel,
    by decide +kernel, by decide +kernel, by decide +kernel⟩
  intro y
  cases y <;> decide +kernel

theorem witness_SuppliesAndDomains_banks : bankInUse 7 (ioDev true) = true ∧ bankInUse 7 Device.reset = false := by
  refine ⟨bankInUse_of _ 255 7 (by decide +kernel), ?_⟩
  rw [bankInUse, List.any_eq_false]
  intro c _
  simp [Device.reset, Channel.reset, ChnCfg.reset]

def warm (a b : Int) : Tab Int 4 := (Tab.all a).put 3 b

theorem witness_Governor :
    (let t := warm 919 999
     (∀ i j : Fin 4, -440 ≤ t.at i ∧ t.at i ≤ 1200 ∧ (t.at i - t.at j).natAbs ≤ 80) ∧
     max (max (t.at 0) (t.at 1)) (max (t.at 2) (t.at 3)) < 1000) ∧
    (let t := warm 1000 920
     (∀ i j : Fin 4, -440 ≤ t.at i ∧ t.at i ≤ 1200 ∧ (t.at i - t.at j).natAbs ≤ 80) ∧
     1000 ≤ max (max (t.at 0) (t.at 1)) (max (t.at 2) (t.at 3))) ∧
    (let t := warm (-441) 1201; ∀ i, t.at i < -440 ∨ 1200 < t.at i) ∧
    bitOf State.reset.core.dev.pwr.hfault 3 = false ∧
    bitOf (pwr (fun p => { p with hfault := 8 })).core.dev.pwr.hfault 3 = true := by decide +kernel

end Sys2Proof.Tests
end

namespace Sys2Proof

/-- A table given by a function holds the function's values. -/
@[simp] theorem Tab.at_ofFn {α : Type} {n : Nat} (f : Fin n → α) (i : Fin n) : Tab.at (Vector.ofFn f) i = f i := by
  simp [Tab.at]

namespace Machine

/-! ## Fields of a word -/

theorem testBit_fld {n : Nat} (w : BitVec n) (hi lo i : Nat) :
    (fld w hi lo).testBit i = (decide (i < hi + 1 - lo) && w.getLsbD (lo + i)) := by
  rw [fld, Nat.testBit_mod_two_pow, Nat.testBit_shiftRight, BitVec.testBit_toNat]

/-- A field that was written has the bits of the value written; they stand below its width. -/
theorem getLsbD_setFld {n : Nat} (w : BitVec n) (hi lo v : Nat) {i : Nat} (hw : i < hi + 1 - lo) (hn : lo + i < n) :
    (setFld w hi lo v).getLsbD (lo + i) = v.testBit i := by
  have mask : (BitVec.ofNat n ((2 ^ (hi + 1 - lo) - 1) <<< lo)).getLsbD (lo + i) = true := by
    rw [BitVec.getLsbD_ofNat]
    simp [hw, hn]
  have new : (BitVec.ofNat n (v <<< lo)).getLsbD (lo + i) = v.testBit i := by
    rw [BitVec.getLsbD_ofNat]
    simp [hn]
  rw [setFld, BitVec.getLsbD_or, BitVec.getLsbD_and, BitVec.getLsbD_not, BitVec.getLsbD_and, mask, new]
  simp

/-- What is read from a field after a write to it: the value written, cut to the field's width. -/
theorem fld_setFld {n : Nat} (w : BitVec n) {hi lo : Nat} (v : Nat) (hn : hi < n) :
    fld (setFld w hi lo v) hi lo = v % 2 ^ (hi + 1 - lo) := by
  apply Nat.eq_of_testBit_eq
  intro i
  rw [testBit_fld, Nat.testBit_mod_two_pow]
  by_cases hw : i < hi + 1 - lo
  · rw [getLsbD_setFld w hi lo v hw (by omega)]
  · simp [hw]

theorem fld_lt {n : Nat} (w : BitVec n) (hi lo : Nat) : fld w hi lo < 2 ^ (hi + 1 - lo) :=
  Nat.mod_lt _ (Nat.two_pow_pos _)

/-! ## The lead in effect and the snapshot -/

/-- R17: the lead in effect, of a channel at a pin and of one on a link. -/
theorem effLead_eq (c : Chan) (lead : Nat) : effLead c lead = if c.val < 256 then lead else max 512 lead := by
  by_cases h : c.val < 256
  · simp [effLead, isLink, h]
  · simp [effLead, isLink, h]

/-- The lead in effect fits the eleven bits of the lead field. -/
theorem effLead_lt (c : Chan) {lead : Nat} (h : lead < 2 ^ 11) : effLead c lead < 2 ^ 11 := by
  rw [effLead_eq]
  split <;> omega

/-- R17: the lead field of a set in effect reads as the lead in effect. -/
theorem fld_inEffect_lead (c : Chan) (s : StSet) : fld (inEffect c s).lead 10 0 = effLead c (fld s.lead 10 0) := by
  have fits : effLead c (fld s.lead 10 0) < 2 ^ 11 := effLead_lt c (fld_lt s.lead 10 0)
  calc fld (inEffect c s).lead 10 0
      _ = effLead c s.leadVal % 2 ^ 11 := fld_setFld s.lead _ (by decide)
      _ = effLead c (fld s.lead 10 0) := Nat.mod_eq_of_lt fits

theorem exec_snapshot (s : State) :
    exec .snapshot s = .next (s.withDev { s.core.dev with sys := { s.core.dev.sys with snapReq := true } }) := rfl

@[simp] theorem takeSnapshot_snapReq (now : Nat) (d : Device) : (takeSnapshot now d).sys.snapReq = false := rfl

/-- R478: the frozen copy is of all channels and all axes of the blocks that it is taken from. -/
theorem takeSnapshot_snap (now : Nat) (d : Device) : (takeSnapshot now d).sys.snap =
    some ⟨Vector.ofFn (fun c => chSnap c d), Vector.ofFn (fun a => axSnap (d.axs.at a))⟩ := rfl

/-- R478: step 6 takes the copy exactly when one is asked for, of the blocks after the releases and the helm. -/
theorem boundaryRelease_dev (now : Nat) (c : Core) : (boundaryRelease now c).dev =
    (let d := helmStep now (lateApplies now (releaseStep now c).dev)
     if d.sys.snapReq then takeSnapshot now d else d) := rfl

/-- R478: after step 6 no copy is asked for any more. -/
theorem boundaryRelease_snapReq (now : Nat) (c : Core) : (boundaryRelease now c).dev.sys.snapReq = false := by
  rw [boundaryRelease_dev]
  generalize helmStep now (lateApplies now (releaseStep now c).dev) = d
  cases h : d.sys.snapReq with
  | true => simp [h]
  | false => simp [h]

/-- R478: step 6 leaves the memories as the releases leave them. -/
theorem boundaryRelease_ram (now : Nat) (c : Core) : (boundaryRelease now c).ram = (releaseStep now c).ram := by
  rw [boundaryRelease, Core.mapDev_ram]

/-- R17, R145: the copy of a channel's staged set in effect. -/
theorem fld_chSnap_lead (c : Chan) (d : Device) : fld (chSnap c d).live.lead 10 0 =
    if c.val < 256 then fld (d.chn.at c).cfg.live.lead 10 0 else max 512 (fld (d.chn.at c).cfg.live.lead 10 0) :=
  (fld_inEffect_lead c _).trans (effLead_eq c _)

/-- Settles O37: the request and the place of the copy are the model's equations for the row and for step 6; what is copied
follows field by field, the effective lead from reading back the field that it was written to. -/
theorem snapshotCopies : Obligations.SnapshotCopies := by
  unfold Obligations.SnapshotCopies
  refine ⟨exec_snapshot, fun now c => ⟨boundaryRelease_snapReq now c, boundaryRelease_dev now c, boundaryRelease_ram now c⟩, fun now o => ?_⟩
  refine ⟨rfl, rfl, rfl, rfl, _, takeSnapshot_snap now o, fun c => ?_, fun a => ?_⟩
  · rw [Tab.at_ofFn]
    exact ⟨rfl, rfl, rfl, fld_chSnap_lead c o, rfl, rfl⟩
  · rw [Tab.at_ofFn]
    exact ⟨rfl, rfl, rfl, rfl, rfl, rfl⟩

end Machine

end Sys2Proof

namespace Sys2Proof

namespace Machine

/-! ## From a command's meaning to what is said of it -/

theorem brings_of_runDev {i : Instr} {s : State} {p : Device → Prop} (f : Nat → Device → Device)
    (h : exec i s = s.runDev f) (hp : p (f s.mt s.core.dev)) : Brings i s p :=
  ⟨f s.mt s.core.dev, h, hp⟩

theorem changes_of_runDev {i : Instr} {s : State} {g : Device → Device} (f : Nat → Device → Device)
    (h : exec i s = s.runDev f) (hf : f s.mt s.core.dev = g s.core.dev) : Changes i s g := by
  rw [Changes, ← hf]
  exact h

theorem idles_of_runDev {i : Instr} {s : State} (f : Nat → Device → Device)
    (h : exec i s = s.runDev f) (hf : f s.mt s.core.dev = s.core.dev) : Idles i s :=
  h.trans (s.runDev_same f hf)

theorem exec_actionCommit (c : Chan) (s : State) : exec (.actionCommit c) s = s.runDev (commitNext c) := rfl
theorem exec_edgePlaced (c : Chan) (s : State) : exec (.edgePlaced c) s = s.runDev (edgePlaced c) := rfl
theorem exec_entryRetire (c : Chan) (s : State) : exec (.entryRetire c) s = s.runDev (retireOne c) := rfl

/-! ## Updates of one channel -/

/-- Two updates of a channel that agree on it as it is are the same. -/
theorem Device.chnUpd_congr {c : Chan} {d : Device} {f g : Channel → Channel} (h : f (d.chn.at c) = g (d.chn.at c)) :
    d.chnUpd c f = d.chnUpd c g := by
  simp [Device.chnUpd, Tab.upd, h]

/-- A view of a channel that an update leaves as it is, the update leaves on every channel. -/
theorem Device.chnUpd_keeps {β : Type} (view : Channel → β) {f : Channel → Channel} (a c : Chan) (d : Device)
    (hf : ∀ h, view (f h) = view h := by intro h; rfl) : view ((d.chnUpd a f).chn.at c) = view (d.chn.at c) := by
  rw [Device.chnUpd_chn]
  by_cases e : c = a
  · rw [e, Tab.at_upd_same, hf]
  · rw [Tab.at_upd_ne _ _ e]

theorem statUpd_cfg (a c : Chan) (f : ChnStat → ChnStat) (d : Device) :
    ((d.statUpd a f).chn.at c).cfg = (d.chn.at c).cfg := Device.chnUpd_keeps Channel.cfg a c d
theorem statUpd_prov (a c : Chan) (f : ChnStat → ChnStat) (d : Device) :
    ((d.statUpd a f).chn.at c).prov = (d.chn.at c).prov := Device.chnUpd_keeps Channel.prov a c d
theorem statUpd_comm (a c : Chan) (f : ChnStat → ChnStat) (d : Device) :
    ((d.statUpd a f).chn.at c).comm = (d.chn.at c).comm := Device.chnUpd_keeps Channel.comm a c d
theorem statUpd_stat_same (c : Chan) (f : ChnStat → ChnStat) (d : Device) :
    ((d.statUpd c f).chn.at c).stat = f (d.chn.at c).stat := by
  rw [Device.statUpd_chn, Tab.at_upd_same]

/-- A view of a channel's status that an update leaves as it is, the update leaves on every channel. -/
theorem statUpd_keeps {β : Type} (view : ChnStat → β) {f : ChnStat → ChnStat} (a c : Chan) (d : Device)
    (hf : ∀ s, view (f s) = view s := by intro s; rfl) :
    view ((d.statUpd a f).chn.at c).stat = view (d.chn.at c).stat :=
  Device.chnUpd_keeps (fun h => view h.stat) a c d (fun h => hf h.stat)

/-! ## The steps of a commit, one by one -/

@[simp] theorem settle_evc (h : Chan) (seq ord : Nat) (d : Device) : (settle h seq ord d).evc = d.evc := rfl
@[simp] theorem settle_cfg (h : Chan) (seq ord : Nat) (c : Chan) (d : Device) :
    ((settle h seq ord d).chn.at c).cfg = (d.chn.at c).cfg := Device.chnUpd_keeps Channel.cfg h c d
@[simp] theorem settle_stat (h : Chan) (seq ord : Nat) (c : Chan) (d : Device) :
    ((settle h seq ord d).chn.at c).stat = (d.chn.at c).stat := Device.chnUpd_keeps Channel.stat h c d
@[simp] theorem settle_pin (h : Chan) (seq ord : Nat) (c : Chan) (d : Device) :
    ((settle h seq ord d).chn.at c).pin = (d.chn.at c).pin := Device.chnUpd_keeps Channel.pin h c d
@[simp] theorem settle_prov (h : Chan) (seq ord : Nat) (c : Chan) (d : Device) :
    ((settle h seq ord d).chn.at c).prov = (d.chn.at c).prov := Device.chnUpd_keeps Channel.prov h c d
@[simp] theorem settle_comm (h : Chan) (seq ord : Nat) (c : Chan) (d : Device) :
    ((settle h seq ord d).chn.at c).comm = (d.chn.at c).comm := Device.chnUpd_keeps Channel.comm h c d

@[simp] theorem dropProv_evc (a : Chan) (e : ProvEntry) (d : Device) : (dropProv a e d).evc = d.evc := rfl
@[simp] theorem dropProv_cfg (a : Chan) (e : ProvEntry) (c : Chan) (d : Device) :
    ((dropProv a e d).chn.at c).cfg = (d.chn.at c).cfg := Device.chnUpd_keeps Channel.cfg a c d
@[simp] theorem dropProv_stat (a : Chan) (e : ProvEntry) (c : Chan) (d : Device) :
    ((dropProv a e d).chn.at c).stat = (d.chn.at c).stat := Device.chnUpd_keeps Channel.stat a c d
@[simp] theorem dropProv_pin (a : Chan) (e : ProvEntry) (c : Chan) (d : Device) :
    ((dropProv a e d).chn.at c).pin = (d.chn.at c).pin := Device.chnUpd_keeps Channel.pin a c d
@[simp] theorem dropProv_comm (a : Chan) (e : ProvEntry) (c : Chan) (d : Device) :
    ((dropProv a e d).chn.at c).comm = (d.chn.at c).comm := Device.chnUpd_keeps Channel.comm a c d

/-- R15: an entry that is alone in its queue leaves it empty. -/
theorem dropProv_prov {c : Chan} {e : ProvEntry} {d : Device} (h : (d.chn.at c).prov = [e]) :
    ((dropProv c e d).chn.at c).prov = [] := by
  simp [dropProv, h, dropFirst]

@[simp] theorem pushEntry_evc (a : Chan) (x : CommEntry) (d : Device) : (pushEntry a x d).evc = d.evc := rfl
@[simp] theorem pushEntry_stat (a : Chan) (x : CommEntry) (c : Chan) (d : Device) :
    ((pushEntry a x d).chn.at c).stat = (d.chn.at c).stat := Device.chnUpd_keeps Channel.stat a c d
@[simp] theorem pushEntry_prov (a : Chan) (x : CommEntry) (c : Chan) (d : Device) :
    ((pushEntry a x d).chn.at c).prov = (d.chn.at c).prov := Device.chnUpd_keeps Channel.prov a c d
@[simp] theorem pushEntry_comm_same (c : Chan) (x : CommEntry) (d : Device) :
    ((pushEntry c x d).chn.at c).comm = (d.chn.at c).comm ++ [x] := by
  simp [pushEntry]

theorem isLink_eq_false {c : Chan} (hc : c.val < 256) : isLink c = false := by simp [isLink, hc]

/-- R293: a pin channel may always take new actions. -/
theorem linkUp_of_pin {c : Chan} (hc : c.val < 256) (d : Device) : linkUp c d = true := by
  simp [linkUp, isLink_eq_false hc]

/-- R112: on a pin channel a code that does not persist gives way to the new one. -/
theorem setCode_of_pin {c : Chan} (hc : c.val < 256) (k : Code) {d : Device}
    (hs : (d.chn.at c).stat.code.sticky = false) : setCode c k d = d.statUpd c (fun s => { s with code := k }) := by
  apply Device.chnUpd_congr
  simp [hs, isLink_eq_false hc]

/-! ## R15: the entry that meets its commit instant -/

theorem commitNext_of_empty {c : Chan} {d : Device} (h : (d.chn.at c).prov = []) (now : Nat) : commitNext c now d = d := by
  simp [commitNext, h, firstDue]

/-- R15: an entry alone in its queue meets its commit instant once that has come. -/
theorem commitNext_of_due {c : Chan} {d : Device} {e : ProvEntry} {now : Nat} (h : (d.chn.at c).prov = [e])
    (hn : e.t ≠ never) (ht : commitAt e.t (d.lead c) ≤ (now : Int)) : commitNext c now d = commitOne c e now d := by
  have hd : entryDue c now d e = true := by simp [entryDue, hn, ht]
  simp [commitNext, h, hd, firstDue]

/-- R15, R139: an action on time, with room in the committed queue, commits with its code. -/
theorem commitOne_onTime {c : Chan} {d : Device} {e : ProvEntry} {now : Nat} (hc : c.val < 256) (hm : e.marks = [])
    (hh : e.holder = false) (ht : (now : Int) ≤ commitAt e.t (d.lead c)) (hr : (d.chn.at c).comm.length < 4) :
    commitOne c e now d = setCode c (commitCode e) (commitAction c e now d) := by
  have hl : isLate c now d e = false := by simp [isLate, hh, ht]
  simp [commitOne, hm, linkUp_of_pin hc, hl, hr]

/-- R140: an entry whose commit instant has passed meets the late policy. -/
theorem commitOne_late {c : Chan} {d : Device} {e : ProvEntry} {now : Nat} (hc : c.val < 256) (hm : e.marks = [])
    (ht : commitAt e.t (d.lead c) < (now : Int)) :
    commitOne c e now d = latePolicy c e true (decide (4 ≤ (d.chn.at c).comm.length)) now d := by
  have hl : isLate c now d e = true := by simp [isLate, ht]
  simp [commitOne, hm, linkUp_of_pin hc, hl]

/-! ## R143: a LEVEL action on time -/

/-- R143: the code of an action, by its position stamp and its writer. -/
theorem commitCode_eq (e : ProvEntry) : commitCode e =
    if (e.pos.map (fun p => p.coast)).getD false then .acquire else if e.rerun then .revised else .ok := by
  rw [commitCode]
  cases e.pos <;> rfl

/-- R15, R86, R93: the commit of a LEVEL action, step by step. -/
theorem commitAction_level {c : Chan} {e : ProvEntry} (hty : e.ty = .level) (now : Nat) (d : Device) :
    commitAction c e now d = pushEntry c (levelEntry c (d.chn.at c) e now)
      ((settle e.home e.seq e.ord (dropProv c e d)).statUpd e.home (fun s => { s with run := 0, frozen := false })) := by
  have hw : (ActTy.level.isPulse && decide (e.w < 64)) = false := rfl
  simp [commitAction, commitEntry, ProvEntry.arm, actionEdges, levelEntry, hty, hw, statUpd_cfg, -Device.statUpd_chn]

section LevelCommits
variable {c : Chan} {e : ProvEntry} (hty : e.ty = .level) (now : Nat) (d : Device)
include hty

theorem commitAction_level_evc : (commitAction c e now d).evc = d.evc := by
  rw [commitAction_level hty, pushEntry_evc, Device.statUpd_evc, settle_evc, dropProv_evc]

theorem commitAction_level_prov (h : (d.chn.at c).prov = [e]) : ((commitAction c e now d).chn.at c).prov = [] := by
  rw [commitAction_level hty, pushEntry_prov, statUpd_prov, settle_prov, dropProv_prov h]

theorem commitAction_level_comm :
    ((commitAction c e now d).chn.at c).comm = (d.chn.at c).comm ++ [levelEntry c (d.chn.at c) e now] := by
  rw [commitAction_level hty, pushEntry_comm_same, statUpd_comm, settle_comm, dropProv_comm]

/-- R147: RUN and FROZEN of the home channel clear. -/
theorem commitAction_level_home : ((commitAction c e now d).chn.at e.home).stat =
    { (d.chn.at e.home).stat with run := 0, frozen := false } := by
  rw [commitAction_level hty, pushEntry_stat, statUpd_stat_same, settle_stat, dropProv_stat]

theorem commitAction_level_code : ((commitAction c e now d).chn.at c).stat.code = (d.chn.at c).stat.code := by
  rw [commitAction_level hty, pushEntry_stat, statUpd_keeps ChnStat.code, settle_stat, dropProv_stat]

end LevelCommits

/-- R15, R143: a LEVEL action whose commit instant is this boundary commits with its code and its edge. -/
theorem actionCommit_onTime {s : State} {c : Chan} {e : ProvEntry} (hc : c.val < 256)
    (hp : (s.core.dev.chn.at c).prov = [e]) (hty : e.ty = .level) (hh : e.holder = false) (hm : e.marks = [])
    (hn : e.t ≠ never) (ht : commitAt e.t (s.core.dev.lead c) = (s.mt : Int)) (hr : (s.core.dev.chn.at c).comm.length < 4)
    (hs : (s.core.dev.chn.at c).stat.code.sticky = false) :
    Brings (.actionCommit c) s (fun d' =>
      (d'.chn.at c).prov = [] ∧
      (d'.chn.at c).comm = (s.core.dev.chn.at c).comm ++ [levelEntry c (s.core.dev.chn.at c) e s.mt] ∧
      (d'.chn.at c).stat.code = commitCode e ∧
      (d'.chn.at e.home).stat.run = 0 ∧ (d'.chn.at e.home).stat.frozen = false ∧ d'.evc = s.core.dev.evc) := by
  apply brings_of_runDev _ (exec_actionCommit c s)
  rw [commitNext_of_due hp hn ht.le, commitOne_onTime hc hm hh ht.ge hr,
    setCode_of_pin hc _ (by rw [commitAction_level_code hty, hs])]
  refine ⟨?_, ?_, ?_, ?_, ?_, ?_⟩
  · rw [statUpd_prov, commitAction_level_prov hty _ _ hp]
  · rw [statUpd_comm, commitAction_level_comm hty]
  · rw [statUpd_stat_same]
  · rw [statUpd_keeps ChnStat.run, commitAction_level_home hty]
  · rw [statUpd_keeps ChnStat.frozen, commitAction_level_home hty]
  · rw [Device.statUpd_evc, commitAction_level_evc hty]

/-! ## R140: a late action under policy DROP -/

theorem satInc_eq_min (n v : Nat) : satInc n v = min (2 ^ n - 1) (v + 1) := by
  rw [satInc]
  split <;> omega

@[simp] theorem lateRecord_chn (c : Chan) (pol arg now : Nat) (d : Device) : (lateRecord c pol arg now d).chn =
    (d.statUpd c (fun s => { s with latecnt := satInc 32 s.latecnt, margin := 0 })).chn := rfl

/-- R140: what the policy DROP does. -/
theorem latePolicy_drop {c : Chan} {d : Device} (hl : (d.chn.at c).cfg.live.late = 0) (e : ProvEntry) (late full : Bool)
    (now : Nat) : latePolicy c e late full now d = settle e.home e.seq e.ord (dropProv c e
      (setCode c .late (lateRecord c 0 (if late then 0 else 1) now d))) := by
  simp [latePolicy, hl]

/-- R140: an action that is late under policy DROP leaves its queue and is counted; nothing is committed. -/
theorem actionCommit_lateDrop {s : State} {c : Chan} {e : ProvEntry} (hc : c.val < 256)
    (hp : (s.core.dev.chn.at c).prov = [e]) (hm : e.marks = []) (hn : e.t ≠ never)
    (ht : commitAt e.t (s.core.dev.lead c) < (s.mt : Int)) (hl : (s.core.dev.chn.at c).cfg.live.late = 0)
    (hs : (s.core.dev.chn.at c).stat.code.sticky = false) :
    Brings (.actionCommit c) s (fun d' =>
      (d'.chn.at c).prov = [] ∧ (d'.chn.at c).comm = (s.core.dev.chn.at c).comm ∧ (d'.chn.at c).stat.code = .late ∧
      (d'.chn.at c).stat.latecnt = min 4294967295 ((s.core.dev.chn.at c).stat.latecnt + 1) ∧
      (d'.chn.at c).stat.margin = 0 ∧ (d'.chn.at c).pin = (s.core.dev.chn.at c).pin) := by
  apply brings_of_runDev _ (exec_actionCommit c s)
  rw [commitNext_of_due hp hn ht.le, commitOne_late hc hm ht, latePolicy_drop hl, setCode_of_pin hc _ (by simpa using hs)]
  refine ⟨?_, ?_, ?_, ?_, ?_, ?_⟩
  · rw [settle_prov, dropProv_prov (by simp [hp])]
  · simp
  · simp
  · simp [satInc_eq_min]
  · simp
  · simp

/-! ## R93, R94: placing an edge -/

/-- R101: no committed pulse is armed against a lookout, so none is tested. -/
theorem testPulses_of_unarmed {c : Chan} {d : Device} (h : ∀ e ∈ (d.chn.at c).comm, e.lk = none) (now : Nat) :
    testPulses c now d = d := by
  have hf : (d.chn.at c).comm.filter (testDue now) = [] := by
    rw [List.filter_eq_nil_iff]
    intro e he
    simp [testDue, h e he]
  rw [testPulses, hf]
  rfl

/-- R93, R94: a pin cell with no earlier edge places its next edge at its own ball time. -/
theorem placeNext_of_due {c : Chan} {d : Device} {b : Int} {p : PinEdge} {now : Nat}
    (hb : nextBall (d.chn.at c).comm = some b) (hp : lastOn b (d.chn.at c).comm = some p)
    (hl : (d.chn.at c).pin.lastAt = none) (ht : b < (now : Int) + 32) :
    placeNext c now d = d.chnUpd c (fun h => { h with
      comm := h.comm.map (placedEntry b b)
      pin := if ballFor h.cfg.inv p.lvl = h.pin.drive then h.pin
        else { h.pin with drive := ballFor h.cfg.inv p.lvl, lastAt := some b, edgeT := lowBits 64 (b + (p.t - b)) } }) := by
  have hs : (if ballFor (d.chn.at c).cfg.inv p.lvl ≠ (d.chn.at c).pin.drive then spacedBall (d.chn.at c).pin.lastAt b
      else b) = b := by
    simp [hl, spacedBall]
  simp only [placeNext, hb, hp, bne_iff_ne, hs, ht, if_true, ne_eq, not_true, if_false]
  apply Device.chnUpd_congr
  by_cases e : ballFor (d.chn.at c).cfg.inv p.lvl = (d.chn.at c).pin.drive
  · simp [e]
  · simp [e]

/-- R92: an entry whose one edge is placed retires at the next boundary. -/
theorem placedEntry_last {e : CommEntry} {p : PinEdge} (he : e.edges = [p]) (hu : e.until? = none) :
    placedEntry p.ball p.ball e = { e with
      edges := [], leadAt := some (e.leadAt.getD p.ball), retireAt := some (lowBits 64 (p.ball / 32 * 32 + 32)) } := by
  simp [placedEntry, he, hu, Int.fdiv_eq_ediv_of_nonneg]

theorem lowBits_natCast (n t : Nat) : lowBits n (t : Int) = t % 2 ^ n := by
  rw [lowBits, ← Int.natCast_mod, Int.toNat_natCast]

/-- R93, R94: the one edge of a channel's one committed entry is placed on the ball. -/
theorem edgePlaced_single {d : Device} {c : Chan} {e : CommEntry} {p : PinEdge} {now : Nat} (hc : c.val < 256)
    (hq : (d.chn.at c).comm = [e]) (he : e.edges = [p]) (hk : e.lk = none) (hu : e.until? = none)
    (hl : (d.chn.at c).pin.lastAt = none) (ht : p.ball < (now : Int) + 32) :
    edgePlaced c now d = d.chnUpd c (fun h => { h with
      comm := [{ e with
        edges := [], leadAt := some (e.leadAt.getD p.ball), retireAt := some (lowBits 64 (p.ball / 32 * 32 + 32)) }]
      pin := if ballFor h.cfg.inv p.lvl = h.pin.drive then h.pin
        else { h.pin with drive := ballFor h.cfg.inv p.lvl, lastAt := some p.ball, edgeT := p.t % 18446744073709551616 } }) := by
  have hb : nextBall (d.chn.at c).comm = some p.ball := by simp [nextBall, hq, he]
  have hp : lastOn p.ball (d.chn.at c).comm = some p := by simp [lastOn, hq, he]
  have hT : lowBits 64 (p.ball + ((p.t : Int) - p.ball)) = p.t % 18446744073709551616 := by
    rw [add_sub_cancel, lowBits_natCast]
    rfl
  rw [edgePlaced, isLink_eq_false hc, if_neg Bool.false_ne_true, testPulses_of_unarmed (by simp [hq, hk]),
    placeNext_of_due hb hp hl ht, hT]
  apply Device.chnUpd_congr
  rw [hq, List.map_singleton, placedEntry_last he hu]

/-! ## R108: the edges of a link slot -/

theorem handOver_of_empty {c : Chan} {d : Device} (h : (d.chn.at c).comm = []) (now : Nat) : handOver c now d = d := by
  simp [handOver, h]

/-- R108, R121: the first edge of a link slot passes once its time has come. -/
theorem edgePlaced_slot {d : Device} {c : Chan} {t : Nat} {l : Bool} {q : List (Nat × Bool)} {now : Nat} (hc : 256 ≤ c.val)
    (hq : (d.chn.at c).comm = []) (hs : (d.chn.at c).pin.slotEdges = (t, l) :: q) (ht : t < now + 32) :
    edgePlaced c now d = d.pinUpd c (fun p =>
      { p with slotEdges := q, slotLvl := l, edgeT := if l = p.slotLvl then p.edgeT else t }) := by
  have hk : isLink c = true := by simp [isLink, hc]
  rw [edgePlaced, if_pos hk, handOver_of_empty hq]
  apply Device.chnUpd_congr
  simp [hs, ht]

/-! ## R92: retirement -/

/-- R92: the oldest entry leaves the committed queue when its retirement is due. -/
theorem retireOne_of_due {d : Device} {c : Chan} {e : CommEntry} {l : List CommEntry} {t now : Nat}
    (hq : (d.chn.at c).comm = e :: l) (he : e.retireAt = some t) (ht : due t now = true) :
    retireOne c now d = d.chnUpd c (fun h => { h with comm := l }) := by
  have hr : retireDue now e = true := by simp [retireDue, he, ht]
  apply Device.chnUpd_congr
  simp [hq, dropFirst, hr]

/-- Settles O33: each clause is one command's case, stated above as a lemma; an action on time and one late differ by the
case of `commitOne` that they meet. -/
theorem actionsCommitAndEdges : Obligations.ActionsCommitAndEdges := by
  unfold Obligations.ActionsCommitAndEdges
  intro s c
  refine ⟨?onTime, ?late, ?noAction, ?pinEdge, ?slotEdge, ?retire⟩
  case onTime =>
    intro e hc hp hty hh hm hn ht hr hs
    rw [← commitCode_eq]
    exact actionCommit_onTime hc hp hty hh hm hn ht hr hs
  case late =>
    intro e hc hp hm hn ht hl hs
    exact actionCommit_lateDrop hc hp hm hn ht hl hs
  case noAction =>
    intro hp
    exact idles_of_runDev _ (exec_actionCommit c s) (commitNext_of_empty hp s.mt)
  case pinEdge =>
    intro e p hc hq he hk hu hl ht
    exact changes_of_runDev _ (exec_edgePlaced c s) (edgePlaced_single hc hq he hk hu hl ht)
  case slotEdge =>
    intro t l q hc hq hs ht
    exact changes_of_runDev _ (exec_edgePlaced c s) (edgePlaced_slot hc hq hs ht)
  case retire =>
    intro e l t hq he ht
    exact changes_of_runDev _ (exec_entryRetire c s) (retireOne_of_due hq he ht)

/-! ## The state after reset -/

/-- R25, R85: every channel is as a reset leaves it. -/
theorem reset_chn (c : Chan) : State.reset.core.dev.chn.at c = Channel.reset := Tab.at_all _ c

/-- R389: every source is masked. -/
theorem reset_mask (i : Fin 8) : State.reset.core.dev.evc.mask.at i = 0xFFFF_FFFF := Tab.at_all _ i

theorem reset_mode (i : Fin 8) : State.reset.core.dev.evc.mode.at i = 0 := Tab.at_all _ i

/-- Settles O5: the tables hold their reset entry at every index, and the rest is read off the reset values. -/
theorem resetState : Obligations.ResetState := by
  unfold Obligations.ResetState
  refine ⟨Ram.reset_wf, rfl, rfl, rfl, rfl, rfl, rfl, rfl, fun c => ?_, fun i => ⟨reset_mask i, reset_mode i⟩,
    rfl, rfl, rfl, rfl, rfl, rfl, rfl⟩
  rw [reset_chn]
  exact ⟨rfl, rfl, rfl, rfl, rfl⟩

end Machine

end Sys2Proof

namespace Sys2Proof

namespace Machine

/-! ## Machine time -/

/-- R30, R433, R434: machine time after a command. -/
def timeAfter (i : Instr) (s : State) : Nat :=
  match i with
  | .basePeriodBoundary => nextBoundary s.mt
  | .pllLock => if s.core.dev.pwr.hold = 0 ∧ s.core.dev.pwr.phase = .pll then 0 else s.mt
  | .porst _ true => 0
  | .brown _ => 0
  | _ => s.mt

theorem pllLocks_time (t : Nat) (c : Core) :
    (pllLocks (t, c)).1 = if c.dev.pwr.hold = 0 ∧ c.dev.pwr.phase = .pll then 0 else t := by
  unfold pllLocks
  by_cases free : c.dev.pwr.hold = 0
  · by_cases first : c.dev.pwr.phase = .pll
    · simp [free, first]
    · simp [free, first]
  · rw [if_pos free, if_neg (fun h => free h.1)]

/-- Every command takes effect; beside machine time it changes memories and blocks alone. -/
theorem exec_next (i : Instr) (s : State) : ∃ c, exec i s = .next { s with mt := timeAfter i s, core := c } := by
  cases i with
  | pllLock => exact ⟨_, by rw [timeAfter, ← pllLocks_time]; rfl⟩
  | porst why low =>
    cases low with
    | true => exact ⟨_, rfl⟩
    | false => exact ⟨_, rfl⟩
  | _ => exact ⟨_, rfl⟩

theorem exec_time {i : Instr} {s t : State} (h : exec i s = .next t) : t.mt = timeAfter i s := by
  obtain ⟨c, e⟩ := exec_next i s
  rw [e] at h
  cases h
  rfl

/-- R30: machine time moves on by one base period, or restarts, or stays. -/
theorem timeAfter_cases (i : Instr) (s : State) :
    timeAfter i s = (s.mt + 32) % 18446744073709551616 ∨ timeAfter i s = 0 ∨ timeAfter i s = s.mt := by
  unfold timeAfter
  split
  · exact .inl rfl
  · split
    · exact .inr (.inl rfl)
    · exact .inr (.inr rfl)
  · exact .inr (.inl rfl)
  · exact .inr (.inl rfl)
  · exact .inr (.inr rfl)

/-- R30: machine time stays on the base-period boundaries. -/
theorem timeAfter_mod (i : Instr) {s : State} (h : s.mt % 32 = 0) : timeAfter i s % 32 = 0 := by
  have := timeAfter_cases i s
  omega

theorem timeAfter_lt (i : Instr) {s : State} (h : s.mt < 18446744073709551616) :
    timeAfter i s < 18446744073709551616 := by
  have := timeAfter_cases i s
  omega

/-- Settles O3: a step is one command or none, and a command leaves machine time at `timeAfter`. -/
theorem machineTimeStaysOnTheGrid : Obligations.MachineTimeStaysOnTheGrid := by
  unfold Obligations.MachineTimeStaysOnTheGrid
  rintro s t ⟨grid, bound⟩ h
  unfold step at h
  split at h
  · cases h
    exact ⟨grid, bound⟩
  · rw [exec_time h]
    exact ⟨timeAfter_mod _ grid, timeAfter_lt _ bound⟩

/-! ## What the boundary leaves of its turn -/

/-- R351: the words of a status word never make up a unit of the almanac, so none of them is written there. -/
theorem wholeUnit_status (a b : Nat) : wholeUnit 16 ((nats 8).map (fun i => a + i)) b = false := by
  rw [← Bool.not_eq_true]
  intro h
  have unit : ∀ i < 16, ∃ j < 8, a + j = b / 16 * 16 + i := by simpa [wholeUnit] using h
  obtain ⟨j, hj, first⟩ := unit 0 (by decide)
  obtain ⟨k, hk, last⟩ := unit 15 (by decide)
  omega

/-- R331, R344: what may be written of a status word lies outside the almanac. -/
theorem almWordOf_of_writeOk {p : Bool} {d : Device} {a b : Nat}
    (h : writeOk p d ((nats 8).map (fun i => a + i)) b = true) : almWordOf b = none := by
  cases r : rangeOf b with
  | none => simp [almWordOf, r]
  | some x =>
    obtain ⟨range, o⟩ := x
    cases range with
    | alm => simp [writeOk, r, wholeUnit_status, -nats_eq] at h
    | _ => simp [almWordOf, r]

@[simp] theorem raise_turn (step src kind cause arg now : Nat) (d : Device) :
    (raise step src kind cause arg now d).turn = d.turn := rfl

@[simp] theorem xIdle_turn (n : XcNo) (d : Device) : (xIdle n d).turn = d.turn := rfl

@[simp] theorem notePort_turn (isA wr : Bool) (w now : Nat) (d : Device) : (notePort isA wr w now d).turn = d.turn := by
  obtain ⟨m, e, h⟩ := notePort_changes isA wr w now d
  rw [h]

@[simp] theorem writeByte_turn (a : Nat) (b : Byte) (c : Core) : (writeByte a b c).dev.turn = c.dev.turn := by
  unfold writeByte
  split
  all_goals rfl

/-- R221: a write outside the almanac leaves the turn as it is. -/
theorem storeBytes_turn (n : XcNo) {l : List (Nat × Byte)} (h : ∀ x ∈ l, almWordOf x.1 = none) (now : Nat) (c : Core) :
    (storeBytes n l now c).dev.turn = c.dev.turn := by
  have none : ∀ p, (l.filter p).filterMap (fun x => almWordOf x.1) = [] := by
    intro p
    rw [List.filterMap_eq_nil_iff]
    intro x hx
    exact h x (List.mem_of_mem_filter hx)
  unfold storeBytes
  simp only [foldl_same (fun c : Core => c.dev.turn) _ (fun c (x : Nat × Byte) => writeByte_turn x.1 x.2 c),
    foldl_same Device.turn _ (fun d w => notePort_turn false true w now d), none]
  rfl

theorem writeStatus_turn (n : XcNo) (res now : Nat) (c : Core) : (writeStatus n res now c).dev.turn = c.dev.turn := by
  unfold writeStatus
  simp only
  split
  · rfl
  · split
    case isTrue h =>
      rw [Bool.and_eq_true, List.all_eq_true] at h
      refine (storeBytes_turn n ?_ now _).trans rfl
      rintro ⟨a, v⟩ hx
      exact almWordOf_of_writeOk (h.1 a (List.of_mem_zip hx).1)
    case isFalse => rfl

/-- R351: the end of an abort leaves the turn as it is. -/
theorem abortComplete_turn (n : XcNo) (now : Nat) (c : Core) : (abortComplete n now c).dev.turn = c.dev.turn := by
  unfold abortComplete
  simp only
  split
  · rfl
  · rw [Core.mapDev_dev, raiseXc, raise_turn, xIdle_turn, writeStatus_turn]

theorem xferStarts_turn (d : Device) : (xferStarts d).turn = d.turn := by
  unfold xferStarts
  rw [forAll_same Device.turn]
  intro n d
  rw [Device.xcUpd_turn]

/-- A new boundary begins with nothing done at it. -/
theorem boundary_turn (now : Nat) (c : Core) : (boundary now c).dev.turn = Turn.reset := by
  unfold boundary xferNext
  rw [Core.mapDev_dev, xferStarts_turn, forAll_same (fun c : Core => c.dev.turn) _ (fun n c => abortComplete_turn n _ c)]
  rfl

/-! ## Machine time and the commands that move it -/

theorem exec_boundary (s : State) : exec .basePeriodBoundary s =
    .next { s with mt := nextBoundary s.mt, core := boundary s.mt s.core } := rfl
theorem exec_warmReset (low : Bool) (s : State) : exec (.warmReset low) s = .next { s with core := rstPin low s.core } := rfl

/-- R30, R435: a warm reset leaves the time base as it is. -/
theorem rstPin_stb (low : Bool) (c : Core) : (rstPin low c).dev.stb = c.dev.stb := by
  cases low with
  | false => rfl
  | true =>
    cases h : bitOf c.dev.pwr.hold 0 with
    | true => simp [rstPin, h]
    | false =>
      rw [rstPin, h]
      rfl

theorem turn_of_exec_boundary {s t : State} (h : exec .basePeriodBoundary s = .next t) : t.core.dev.turn = Turn.reset := by
  rw [← Host.Outcome.next.inj ((exec_boundary s).symm.trans h)]
  exact boundary_turn s.mt s.core

theorem stb_of_exec_warmReset {low : Bool} {s t : State} (h : exec (.warmReset low) s = .next t) :
    t.core.dev.stb = s.core.dev.stb := by
  rw [← Host.Outcome.next.inj ((exec_warmReset low s).symm.trans h)]
  exact rstPin_stb low s.core

/-- Settles O2: `timeAfter` gives machine time after each command; the boundary's turn and the time base through a warm
reset are lemmas of their own. -/
theorem machineTimeMovesOnlyAtBoundaries : Obligations.MachineTimeMovesOnlyAtBoundaries := by
  unfold Obligations.MachineTimeMovesOnlyAtBoundaries
  intro i s
  obtain ⟨c, h⟩ := exec_next i s
  refine ⟨_, h, rfl, fun notPorst notBrown => ⟨?boundary, ?lock, ?warm, ?others, timeAfter_mod i, timeAfter_lt i⟩⟩
  case boundary =>
    rintro rfl
    exact ⟨rfl, turn_of_exec_boundary h⟩
  case lock =>
    rintro rfl
    rfl
  case warm =>
    rintro low rfl
    exact congrArg Stb.pllLock (stb_of_exec_warmReset h)
  case others =>
    intro notBoundary notLock
    unfold timeAfter
    split
    · exact absurd rfl notBoundary
    · exact absurd rfl notLock
    · exact absurd rfl (notPorst _)
    · exact absurd rfl (notBrown _)
    · rfl

end Machine

end Sys2Proof

namespace Sys2Proof

namespace Machine

/-! ## Fields and halves of a word -/

/-- A write to a field leaves the bits beside it. -/
theorem getLsbD_setFld_apart {n : Nat} (w : BitVec n) {hi lo i : Nat} (v : Nat) (h : i < lo ∨ hi < i) :
    (setFld w hi lo v).getLsbD i = w.getLsbD i := by
  have mask : (BitVec.ofNat n ((2 ^ (hi + 1 - lo) - 1) <<< lo)).getLsbD i = false := by
    rw [BitVec.getLsbD_ofNat, Nat.testBit_shiftLeft, Nat.testBit_two_pow_sub_one]
    have : ¬ (lo ≤ i ∧ i - lo < hi + 1 - lo) := by omega
    simp_all
  rw [setFld, BitVec.getLsbD_or, BitVec.getLsbD_and, BitVec.getLsbD_not, BitVec.getLsbD_and, mask]
  cases e : w.getLsbD i with
  | false => simp
  | true => simpa using BitVec.lt_of_getLsbD e

/-- What is read from a field after a write to another: what stood there. -/
theorem fld_setFld_apart {n : Nat} (w : BitVec n) {hi lo hi' lo' : Nat} (v : Nat) (h : hi' < lo ∨ hi < lo') :
    fld (setFld w hi lo v) hi' lo' = fld w hi' lo' := by
  apply Nat.eq_of_testBit_eq
  intro i
  rw [testBit_fld, testBit_fld]
  by_cases hw : i < hi' + 1 - lo'
  · rw [getLsbD_setFld_apart w v (by omega)]
  · simp [hw]

/-- The two halves of a 64-bit number make it up. -/
theorem lo32_add_hi32 {n : Nat} (h : n < 18446744073709551616) :
    (lo32 n).toNat + 4294967296 * (hi32 n).toNat = n := by
  rw [lo32, hi32, BitVec.toNat_ofNat, BitVec.toNat_ofNat]
  omega

theorem lowBits_lt (n : Nat) (i : Int) : lowBits n i < 2 ^ n := by
  have := Nat.two_pow_pos n
  have := Int.emod_lt_of_pos i (show (0 : Int) < ((2 ^ n : Nat) : Int) by omega)
  rw [lowBits]
  omega

/-- The low bits of an integer are its remainder. -/
theorem natCast_lowBits (n : Nat) (i : Int) : (lowBits n i : Int) = i % ((2 ^ n : Nat) : Int) := by
  have := Nat.two_pow_pos n
  rw [lowBits, Int.toNat_of_nonneg (Int.emod_nonneg i (by omega))]

/-! ## Registers of the time base -/

theorem exec_icalFail (cell : Fin 288) (w : Byte) (s : State) :
    exec (.icalFail cell w) s = s.runDev (icalFails cell.val w.toNat) := rfl
theorem exec_icalOk (cell : Fin 288) (w : Byte) (s : State) :
    exec (.icalOk cell w) s = s.runDev (fun _ => icalGood cell.val w.toNat) := rfl
theorem exec_mtLoRead (s : State) : exec .mtLoRead s = s.runDev readMtLo := rfl
theorem exec_ofsLoRead (s : State) : exec .ofsLoRead s = s.runDev (fun _ => readOfsLo) := rfl
theorem exec_kxcalUpdate (p : BitVec 16) (s : State) :
    exec (.kxcalUpdate p) s = s.runDev (fun _ => kxcalUpdate p) := rfl

/-- R28: WORST and WCELL are written, and the rest of STB_ICAL stays. -/
theorem fld_ical {cell worst : Nat} (r : Word) (hc : cell < 65536) (hw : worst < 256) :
    fld (setFld (setFld r 7 0 worst) 23 8 cell) 7 0 = worst ∧
    fld (setFld (setFld r 7 0 worst) 23 8 cell) 23 8 = cell ∧
    fld (setFld (setFld r 7 0 worst) 23 8 cell) 31 24 = fld r 31 24 := by
  refine ⟨?_, ?_, ?_⟩
  · rw [fld_setFld_apart _ _ (by decide), fld_setFld _ _ (by decide)]
    exact Nat.mod_eq_of_lt hw
  · rw [fld_setFld _ _ (by decide)]
    exact Nat.mod_eq_of_lt hc
  · rw [fld_setFld_apart _ _ (by decide), fld_setFld_apart _ _ (by decide)]

/-- R32: the ticks within the second are fewer than a second's. -/
theorem plantRem_lt (d : Device) (m : Nat) : plantRem d m < 8000000000 := by
  have nonneg := Int.fmod_nonneg_of_pos (plantTicks d m) (show 0 < tkPerSec by decide)
  have lt := Int.fmod_lt_of_pos (plantTicks d m) (show 0 < tkPerSec by decide)
  rw [plantRem]
  unfold tkPerSec at *
  omega

/-- R31: the top bit of STB_PT_SEC_HI shows PT_VALID. -/
theorem ptSecHi_valid {sec sub : Nat} (hs : sec < 65536) (hr : sub < 8) (valid : Bool) :
    (w32 (sec + 65536 * sub + (if valid then 2147483648 else 0))).getLsbD 31 = valid := by
  rw [w32, BitVec.getLsbD_ofNat, Nat.testBit_eq_decide_div_mod_eq]
  cases valid with
  | true =>
    simp
    omega
  | false =>
    simp
    omega

/-- R31: what a read of STB_MT_LO returns and latches. -/
theorem readMtLo_latches {now : Nat} (h : now < 18446744073709551616) (d : Device) :
    (readMtLo now d).hps.dout.toNat + 4294967296 * (readMtLo now d).port.mtHi.toNat = now ∧
    (readMtLo now d).port.ptNs.toNat = plantRem d now / 8 ∧
    (readMtLo now d).port.ptSecHi.getLsbD 31 = d.stb.ptValid := by
  refine ⟨lo32_add_hi32 h, ?_, ?_⟩
  · have := plantRem_lt d now
    change (w32 (plantRem d now / 8)).toNat = _
    rw [w32, BitVec.toNat_ofNat]
    omega
  · have := lowBits_lt 48 (plantSec d now)
    exact ptSecHi_valid (by omega) (Nat.mod_lt _ (by decide)) _

/-- R50: what a read of STB_OFS_LO returns and latches. -/
theorem readOfsLo_latches (d : Device) :
    (((readOfsLo d).hps.dout.toNat + 4294967296 * (readOfsLo d).port.ofsHi.toNat : Nat) : Int) =
      d.stb.ofs % 18446744073709551616 ∧
    (((readOfsLo d).port.epLo.toNat + 4294967296 * (readOfsLo d).port.epHi.toNat : Nat) : Int) =
      d.stb.epoch % 281474976710656 := by
  have ofs := lowBits_lt 64 d.stb.ofs
  have epoch := lowBits_lt 48 d.stb.epoch
  have := lo32_add_hi32 (n := lowBits 64 d.stb.ofs) (by omega)
  have := lo32_add_hi32 (n := lowBits 48 d.stb.epoch) (by omega)
  have := natCast_lowBits 64 d.stb.ofs
  have := natCast_lowBits 48 d.stb.epoch
  unfold readOfsLo
  simp only
  omega

/-- Settles O22: each row is one function of the blocks; what it leaves in the registers is read off it, the fields of
STB_ICAL and the halves of the latched values by the lemmas above. -/
theorem timeBaseRegisters : Obligations.TimeBaseRegisters := by
  unfold Obligations.TimeBaseRegisters
  intro s
  refine ⟨?icalFail, ?icalOk, ?mtLo, ?ofsLo, ?locked, ?unlocked⟩
  case icalFail =>
    intro cell w h
    apply changes_of_runDev _ (exec_icalFail cell w s)
    rw [icalFails, if_pos h, w32]
    simp only [show w.toNat + 256 * cell.val + 2147483648 = 2147483648 + 256 * cell.val + w.toNat by omega]
  case icalOk =>
    intro cell w h
    apply brings_of_runDev _ (exec_icalOk cell w s)
    obtain ⟨worst, wcell, fail⟩ := fld_ical s.core.dev.port.ical (show cell.val < 65536 by omega) w.isLt
    rw [icalGood, if_pos h]
    exact ⟨rfl, worst, wcell, fail, rfl⟩
  case mtLo =>
    intro h
    apply brings_of_runDev _ (exec_mtLoRead s)
    obtain ⟨mt, ns, valid⟩ := readMtLo_latches h s.core.dev
    exact ⟨mt, ns, rfl, rfl, valid⟩
  case ofsLo =>
    apply brings_of_runDev _ (exec_ofsLoRead s)
    obtain ⟨ofs, epoch⟩ := readOfsLo_latches s.core.dev
    exact ⟨ofs, epoch, rfl⟩
  case locked =>
    intro p h
    apply changes_of_runDev _ (exec_kxcalUpdate p s)
    rw [kxcalUpdate, if_pos h]
  case unlocked =>
    intro p h
    apply idles_of_runDev _ (exec_kxcalUpdate p s)
    rw [kxcalUpdate, if_neg h]

/-! ## The keel counter -/

theorem exec_keelPowerOn (s : State) : exec .keelPowerOn s = s.runDev (fun _ => keelPowersOn) := rfl
theorem exec_xkeelStopped (s : State) : exec .xkeelStopped s = s.runDev (fun _ => xkeelStops) := rfl
theorem exec_xkeelStart (s : State) : exec .xkeelStart s = s.runDev (fun _ => xkeelStarts) := rfl
theorem exec_vkeelLoss (s : State) : exec .vkeelLoss s = s.runDev (fun _ => vkeelLost) := rfl
theorem exec_supplyRestored (w : Supply) (s : State) :
    exec (.supplyRestored w) s = s.runDev (fun _ => supplyBack w) := rfl

/-- R443, R450: PWR_KEEL. -/
theorem regRead_pwrKeel (now : Nat) (d : Device) :
    regRead 0x003D_0040 now d = some (w32 (shB 0 d.keel.vkeelOk + shB 1 d.keel.xkeelRun), d) := rfl

theorem pwrKeel_bits (ok run : Bool) :
    bitOf (w32 (shB 0 ok + shB 1 run)) 0 = ok ∧ bitOf (w32 (shB 0 ok + shB 1 run)) 1 = run := by
  cases ok <;> cases run <;> decide

/-- R45, R443: a keel that does not run stays as it is. -/
theorem keelTick_stopped {d : Device} (h : d.keel.vkeelOk = false ∨ d.keel.xkeelRun = false) (now : Nat) :
    keelTick now d = d := by
  have : (d.keel.vkeelOk && d.keel.xkeelRun) = false := Bool.and_eq_false_iff.mpr h
  simp [keelTick, this]

/-- R45: the keel of a base period in which an XKEEL edge falls. -/
def Device.keelCounts (d : Device) : Device :=
  { d with free := d.free + 1, keel := { d.keel with kcnt := (d.keel.kcnt + 1) % 281474976710656 } }

/-- R45, R46: a keel that runs counts an edge or finds none, and takes the anchor that is due at an edge. -/
theorem keelTick_running {d : Device} (ok : d.keel.vkeelOk = true) (run : d.keel.xkeelRun = true) (now : Nat) :
    keelTick now d = { d with free := d.free + 1 } ∨
    d.port.ancPend = false ∧ keelTick now d = d.keelCounts ∨
    d.port.ancPend = true ∧ keelTick now d = takeAnchor now d.keelCounts := by
  unfold keelTick
  rw [ok, run, Bool.and_self, if_pos rfl]
  cases edge : Config.xkeelEdge d.free with
  | false => exact .inl rfl
  | true =>
    refine .inr ?_
    cases due : d.port.ancPend with
    | false => exact .inl ⟨rfl, by simp [due, Device.keelCounts]⟩
    | true => exact .inr ⟨rfl, by simp [due, Device.keelCounts]⟩

/-- R46: an anchor is of the present count, becomes current, and leaves the slot that was current. -/
theorem takeAnchor_keel (now : Nat) (d : Device) :
    ((takeAnchor now d).keel.anc.at (takeAnchor now d).keel.ancCur).cnt = d.keel.kcnt ∧
    (takeAnchor now d).keel.anc.at d.keel.ancCur = d.keel.anc.at d.keel.ancCur := by
  have other : d.keel.ancCur ≠ if d.keel.ancCur = 0 then 1 else 0 := by
    generalize d.keel.ancCur = c
    revert c
    decide
  refine ⟨?_, Tab.at_put_ne _ _ other⟩
  unfold takeAnchor
  simp only
  rw [Tab.at_put_same]

/-- Settles O23: the rows set the keel as they stand; a tick is one of the three cases of `keelTick_running`. -/
theorem keelRows : Obligations.KeelRows := by
  unfold Obligations.KeelRows
  refine ⟨fun s => ⟨?_, ?_, ?_, ?_, ?_, ?_⟩, fun now d => ⟨?stopped, ?register, ?running⟩⟩
  · exact changes_of_runDev _ (exec_keelPowerOn s) rfl
  · exact brings_of_runDev _ (exec_keelPowerOn s) ⟨rfl, rfl, rfl, rfl, rfl, rfl, rfl⟩
  · exact changes_of_runDev _ (exec_xkeelStopped s) rfl
  · exact changes_of_runDev _ (exec_xkeelStart s) rfl
  · exact changes_of_runDev _ (exec_vkeelLoss s) rfl
  · exact changes_of_runDev _ (exec_supplyRestored .vkeel s) rfl
  case stopped => exact fun h => keelTick_stopped h now
  case register => exact ⟨_, regRead_pwrKeel now d, pwrKeel_bits _ _⟩
  case running =>
    intro ok run _
    obtain h | ⟨due, h⟩ | ⟨due, h⟩ := keelTick_running ok run now
    · rw [h]
      exact ⟨.inl ⟨rfl, rfl⟩, rfl, rfl, rfl⟩
    · rw [h]
      exact ⟨.inr ⟨rfl, fun _ => rfl, fun pend => by simp [due] at pend⟩, rfl, rfl, rfl⟩
    · rw [h]
      obtain ⟨count, kept⟩ := takeAnchor_keel now d.keelCounts
      exact ⟨.inr ⟨rfl, fun pend => by simp [due] at pend, fun _ => ⟨rfl, rfl, count, kept⟩⟩, rfl, rfl, rfl⟩

end Machine

end Sys2Proof

namespace Sys2Proof

namespace Machine

/-! ## The servo's states -/

theorem exec_discEn (on : Bool) (s : State) : exec (.discEn on) s = s.runDev (setDiscEn on) := rfl
theorem exec_realign (s : State) : exec .realign s = s.runDev doRealign := rfl

@[simp] theorem setServo_stb (st : Servo) (now : Nat) (d : Device) : (setServo st now d).stb = { d.stb with st := st } := by
  unfold setServo
  split
  case isTrue h =>
    cases h
    rfl
  case isFalse =>
    simp only [raiseTime, raise_stb]
    split
    all_goals rfl

/-- A field of the time port that is none of the servo's counts stays through a change of state. -/
theorem setServo_port {β : Type} (view : TimePort → β)
    (hv : ∀ p l u h a, view { p with lockCnt := l, unlockCnt := u, holdsec := h, holdAt := a } = view p)
    (st : Servo) (now : Nat) (d : Device) : view (setServo st now d).port = view d.port := by
  unfold setServo
  split
  · rfl
  · simp only [raiseTime, raise_port]
    split
    · exact hv d.port 0 0 0 now
    · exact hv d.port 0 0 d.port.holdsec d.port.holdAt

@[simp] theorem setServo_m1 (st : Servo) (now : Nat) (d : Device) : (setServo st now d).port.m1 = d.port.m1 :=
  setServo_port TimePort.m1 (fun _ _ _ _ _ => rfl) st now d

/-- R44, R49: a change of state counts one cause of source 244. -/
theorem setServo_rcnt {st : Servo} {d : Device} (h : d.stb.st ≠ st) (now : Nat) :
    ((setServo st now d).evc.src.at 244).rcnt = (d.evc.src.at 244).rcnt + 1 := by
  unfold setServo
  rw [if_neg h]
  exact (raise_rcnt_same 2 244 _ _ _ _ _).trans (by split <;> rfl)

theorem getLsbD_setFld_bit {n : Nat} (w : BitVec n) {i : Nat} (v : Nat) (hn : i < n) :
    (setFld w i i v).getLsbD i = v.testBit 0 :=
  getLsbD_setFld w i i v (i := 0) (by omega) hn

/-- R42: the servo looks for the first edge of a pair. -/
def Device.awaitPair (d : Device) : Device := { d with port := { d.port with m1 := none } }

/-- R44, R50: DISC_EN of STB_CTL written. -/
def Device.putDisc (v : Nat) (d : Device) : Device := { d with stb := { d.stb with ctl := setFld d.stb.ctl 0 0 v } }

/-- R44: DISC_EN cleared from 1. -/
theorem setDiscEn_off {d : Device} (h : d.stb.ctl.getLsbD 0 = true) (now : Nat) : setDiscEn false now d =
    setServo (if d.stb.ptCoarse then .coarse else .free) now { d with
      stb := { d.stb with ctl := setFld d.stb.ctl 0 0 0, rateMan := d.stb.rate } } := by
  have was : d.stb.discEn = true := h
  simp [setDiscEn, was]

/-- R44: DISC_EN set in FREE with plant time not valid. -/
theorem setDiscEn_on {d : Device} (tod : d.stb.ctl.getLsbD 2 = true) (free : d.stb.st = .free)
    (invalid : d.stb.ptValid = false) (now : Nat) : setDiscEn true now d =
    setServo .acq now (d.putDisc 1).awaitPair := by
  have disc : (setFld d.stb.ctl 0 0 1).getLsbD 0 = true := getLsbD_setFld_bit _ 1 (by decide)
  have tod' : (setFld d.stb.ctl 0 0 1).getLsbD 2 = true := by rw [getLsbD_setFld_apart _ _ (.inr (by decide)), tod]
  simp [setDiscEn, servoStart, Stb.discEn, Stb.ttodEn, bitOf, Device.putDisc, Device.awaitPair, disc, tod', free, invalid]

/-- R44: REALIGN while the servo follows edges, or holds over. -/
theorem doRealign_acq {d : Device} (h : d.stb.st = .track ∨ d.stb.st = .locked ∨ d.stb.st = .holdover) (now : Nat) :
    doRealign now d = setServo .acq now (setRealign d).awaitPair := by
  rcases h with h | h | h
  all_goals simp [doRealign, setRealign, Device.awaitPair, h]

/-- R44: REALIGN elsewhere. -/
theorem doRealign_set {d : Device} (h : d.stb.st = .free ∨ d.stb.st = .coarse ∨ d.stb.st = .acq) (now : Nat) :
    doRealign now d = setRealign d := by
  rcases h with h | h | h
  all_goals simp [doRealign, setRealign, h]

theorem setRealign_bit (d : Device) : (setRealign d).stb.ctl.getLsbD 4 = true :=
  getLsbD_setFld_bit d.stb.ctl 1 (by decide)

theorem setRealign_other {i : Nat} (h : i ≠ 4) (d : Device) :
    (setRealign d).stb.ctl.getLsbD i = d.stb.ctl.getLsbD i :=
  getLsbD_setFld_apart d.stb.ctl 1 (by omega)

/-- Settles O25: each write is a change of state after a write to STB_CTL, or that write alone. -/
theorem servoModes : Obligations.ServoModes := by
  unfold Obligations.ServoModes
  intro s
  refine ⟨?off, ?on, ?realign, ?ignored⟩
  case off =>
    intro h
    apply brings_of_runDev _ (exec_discEn false s)
    rw [setDiscEn_off h, setServo_stb]
    exact ⟨getLsbD_setFld_bit _ 0 (by decide), rfl, rfl, rfl⟩
  case on =>
    intro tod free invalid
    apply brings_of_runDev _ (exec_discEn true s)
    rw [setDiscEn_on tod free invalid, setServo_stb, setServo_m1]
    exact ⟨getLsbD_setFld_bit _ 1 (by decide), rfl, rfl⟩
  case realign =>
    intro h
    apply brings_of_runDev _ (exec_realign s)
    have moves : (setRealign s.core.dev).awaitPair.stb.st ≠ .acq := by
      change s.core.dev.stb.st ≠ .acq
      rcases h with h | h | h
      all_goals simp [h]
    rw [doRealign_acq h, setServo_stb, setServo_m1]
    exact ⟨setRealign_bit s.core.dev, rfl, rfl, setServo_rcnt moves s.mt⟩
  case ignored =>
    intro h
    apply brings_of_runDev _ (exec_realign s)
    rw [doRealign_set h]
    exact ⟨setRealign_bit _, rfl, fun i hi => setRealign_other hi _, rfl, rfl⟩

end Machine

end Sys2Proof

namespace Sys2Proof

namespace Machine

/-! ## TPPS edges -/

theorem exec_tppsEdge (rising : Bool) (stamp : DWord) (width : Word) (s : State) :
    exec (.tppsEdge rising stamp width) s = s.runDev (tppsEdge rising stamp.toNat width.toNat) := rfl
theorem exec_ppsMissing (s : State) : exec .ppsMissing s = s.runDev ppsMiss := rfl
theorem exec_ttodFrame (b : Tab Byte 12) (ok : Bool) (gap : BitVec 16) (t : DWord) (s : State) :
    exec (.ttodFrame b ok gap t) s = s.runDev (ttodFrame b ok gap.toNat t.toNat) := rfl

/-- R35, R37, R471: a narrow pulse, an edge that PPS_POL does not name, and any edge without VIO6. -/
theorem tppsEdge_ignored {rising : Bool} {stamp width : Nat} {d : Device}
    (h : width < 800 ∨ rising = d.stb.ctl.getLsbD 1 ∨ d.pwr.vioIn.getLsbD 6 = false) (now : Nat) :
    tppsEdge rising stamp width now d = d := by
  have : (rising == bitOf d.stb.ctl 1 || decide (width < 800) || !d.ioOn 6) = true := by
    rcases h with h | h | h
    · simp [h]
    · simp [bitOf, h]
    · have : d.ioOn 6 = false := h
      simp [this]
  rw [tppsEdge, if_pos this]

/-- R39: no frame has ended since the last accepted edge. -/
theorem takeFrames_of_none {d : Device} (h : d.port.frames = []) (stamp now : Nat) :
    takeFrames stamp now d = (none, { d with port := { d.port with frames := [] } }) := by
  simp [takeFrames, h]

/-- R36, R37: an edge is accepted, with no frame. -/
def Device.edgeTaken (stamp : Nat) (d : Device) : Device :=
  { d with port := { d.port with frames := [], pps := stamp, hasPps := true, missCnt := 0 }
           stb := { d.stb with ppsOk := true } }

theorem tppsEdge_locked {stamp width : Nat} {d : Device} (supply : d.pwr.vioIn.getLsbD 6 = true) (wide : 800 ≤ width)
    (locked : d.stb.st = .locked) (accepted : ppsAccepted d stamp = true) (frames : d.port.frames = []) (now : Nat) :
    tppsEdge (!d.stb.ctl.getLsbD 1) stamp width now d =
      lockedEdge (stamp - pdly d) none now (d.edgeTaken stamp) := by
  have active : ((!d.stb.ctl.getLsbD 1) == bitOf d.stb.ctl 1 || decide (width < 800) || !d.ioOn 6) = false := by
    have notNarrow : ¬ width < 800 := by omega
    have on : d.ioOn 6 = true := supply
    simp [bitOf, on, notNarrow]
  rw [tppsEdge, active, if_neg Bool.false_ne_true, if_pos accepted, takeFrames_of_none frames]
  simp only [locked, Device.edgeTaken]

/-- R41: the rate and the integrator take clamped values; a record of RATE_CLAMP reaches the event controller alone. -/
theorem setRate_changes (integ rate : Int) (now : Nat) (d : Device) : ∃ v, setRate integ rate now d =
    { d with stb := { d.stb with integ := clampRate integ, rate := clampRate rate }.showClamp, evc := v } := by
  unfold setRate
  simp only [raiseTime]
  split
  · exact ⟨_, rfl⟩
  · exact ⟨_, rfl⟩

/-- R41: the new integrator for phase error `e`. -/
def Stb.servoInteg (s : Stb) (e : Int) : Int :=
  clampRate (s.integ - e * 140737 / 1024 / 2 ^ fld s.servo 7 4)

/-- R41: the new rate for phase error `e`. -/
def Stb.servoRate (s : Stb) (e : Int) : Int :=
  clampRate (s.servoInteg e - e * 140737 / 1024 / 2 ^ fld s.servo 3 0)

theorem servoUpdate_changes (e : Int) (now : Nat) (d : Device) : ∃ v, servoUpdate e now d =
    { d with stb := { d.stb with integ := d.stb.servoInteg e, rate := d.stb.servoRate e }.showClamp, evc := v } := by
  have div : ∀ (a : Int) (k : Nat), Int.fdiv a (2 ^ k) = a / 2 ^ k :=
    fun a k => Int.fdiv_eq_ediv_of_nonneg a (by positivity)
  have unit : Int.fdiv (e * 140737) 1024 = e * 140737 / 1024 := Int.fdiv_eq_ediv_of_nonneg _ (by decide)
  unfold servoUpdate
  simp only [div, unit]
  exact setRate_changes _ _ now d

/-- R41, R44, R46: an edge in LOCKED whose error is within UNLOCK_THR. -/
theorem lockedEdge_within {m e : Int} {d : Device} (he : e = phaseError d m (d.port.sec + 1))
    (within : e.natAbs ≤ fld d.stb.thr 31 16) (now : Nat) :
    ∃ v, lockedEdge m none now d = { d with
      stb := { d.stb with pherr := satS 32 e, integ := d.stb.servoInteg e, rate := d.stb.servoRate e }.showClamp
      port := { d.port with
        sec := d.port.sec + 1, unlockCnt := 0, ancPend := d.port.ancPend || d.stb.anchorEn }
      evc := v } := by
  obtain ⟨v, h⟩ := servoUpdate_changes e now { d with
    stb := { d.stb with pherr := satS 32 e }, port := { d.port with sec := d.port.sec + 1 } }
  refine ⟨v, ?_⟩
  unfold lockedEdge seqCheck
  simp only [← he, h, Stb.showClamp]
  rw [if_neg (Nat.not_lt.mpr within), if_neg (by decide)]
  rfl

/-! ## Missed edges -/

theorem ppsWindowEnded_st {now : Nat} {d : Device} (h : ppsWindowEnded now d = true) : d.stb.st ≠ .holdover := by
  intro e
  simp [ppsWindowEnded, e] at h

/-- R37: a miss is counted, and the next second is expected. -/
def Device.missed (d : Device) : Device :=
  errInc 3 { d with port := { d.port with missCnt := d.port.missCnt + 1, sec := d.port.sec + 1 }
                    stb := { d.stb with ppsOk := false } }

/-- R43, R44: the first second in HOLDOVER. -/
theorem setServo_holdover {d : Device} (h : d.stb.st ≠ .holdover) (now : Nat) :
    (setServo .holdover now d).port.holdsec = 0 := by
  simp [setServo, h, raiseTime]

/-- R37, R44: a miss is counted and recorded, and reaches HOLDOVER at MISS_LIM. -/
theorem ppsMiss_ended {now : Nat} {d : Device} (ended : ppsWindowEnded now d = true) : ppsMiss now d =
    let e := raiseTime 0x02 (min (d.port.missCnt + 1) 255) now d.missed
    if max 1 (fld d.stb.servo 15 12) ≤ d.port.missCnt + 1 then
      setServo .holdover now { e with stb := { e.stb with rate := d.stb.integ }.showClamp }
    else e := by
  rw [ppsMiss, if_pos ended]
  rfl

/-! ## TTOD frames -/

/-- R39, R471: frames while TTOD_EN is 0 or VIO6 is out. -/
theorem ttodFrame_ignored {d : Device} (h : d.stb.ctl.getLsbD 2 = false ∨ d.pwr.vioIn.getLsbD 6 = false)
    (b : Tab Byte 12) (ok : Bool) (gap t now : Nat) : ttodFrame b ok gap t now d = d := by
  have : (!d.stb.ttodEn || !d.ioOn 6) = true := by
    rcases h with h | h
    · have : d.stb.ttodEn = false := h
      simp [this]
    · have : d.ioOn 6 = false := h
      simp [this]
  rw [ttodFrame, if_pos this]

/-- The twelve bytes of a frame. -/
theorem toList_frame (b : Tab Byte 12) : b.toList =
    [b.at 0, b.at 1, b.at 2, b.at 3, b.at 4, b.at 5, b.at 6, b.at 7, b.at 8, b.at 9, b.at 10, b.at 11] := by
  have : b = Vector.ofFn b.at := Tab.ext_at (fun i => (Tab.at_ofFn b.at i).symm)
  rw [this, Vector.toList_ofFn]
  simp [List.ofFn_succ]

section Frames
variable {d : Device} (en : d.stb.ctl.getLsbD 2 = true) (supply : d.pwr.vioIn.getLsbD 6 = true)
include en supply

theorem ttod_listens : (!d.stb.ttodEn || !d.ioOn 6) = false := by
  have on : d.ioOn 6 = true := supply
  have en' : d.stb.ttodEn = true := en
  simp [on, en']

/-- R39: a frame whose first byte is wrong. -/
theorem ttodFrame_badStart {b : Tab Byte 12} (h : b.at 0 ≠ 0xA5) (ok : Bool) (gap t now : Nat) :
    ttodFrame b ok gap t now d = raise 2 244 0x0F 0x05 4 now (errInc 1 { d with
      stb := { d.stb with ttodOk := false }
      port := { d.port with frames := d.port.frames.map (fun f => { f with newest := false }) } }) := by
  rw [ttodFrame, ttod_listens en supply, if_neg Bool.false_ne_true, if_pos h]
  rfl

/-- R39: a frame that passes every check waits for the next edge. -/
theorem ttodFrame_good {b : Tab Byte 12} (start : b.at 0 = 0xA5) {gap t : Nat} (close : gap ≤ 20)
    (crc : (crc16 (b.toList.take 10)).toNat = 256 * (b.at 10).toNat + (b.at 11).toNat) (version : fld (b.at 1) 3 0 = 1)
    (later : d.port.hasPps = true → due (d.port.pps + 80000000) t = true) (now : Nat) :
    ttodFrame b true gap t now d = { d with
      stb := { d.stb with ttodOk := d.stb.ttodOk && (b.at 1).getLsbD 7 }
      port := { d.port with frames :=
        ⟨beNat [b.at 2, b.at 3, b.at 4, b.at 5, b.at 6, b.at 7],
          BitVec.ofNat 32 (65536 * (b.at 1).toNat + 256 * (b.at 8).toNat + (b.at 9).toNat), t,
          (b.at 1).getLsbD 7, false, true⟩ :: d.port.frames.map (fun f => { f with newest := false }) } } := by
  have check : beNat (b.toList.drop 10) = 256 * (b.at 10).toNat + (b.at 11).toNat := by
    rw [toList_frame]
    simp [beNat, Nat.mul_comm]
  have sec : (b.toList.drop 2).take 6 = [b.at 2, b.at 3, b.at 4, b.at 5, b.at 6, b.at 7] := by
    rw [toList_frame]
    rfl
  have info : (b.at 1).toNat * 65536 + beNat ((b.toList.drop 8).take 2) =
      65536 * (b.at 1).toNat + 256 * (b.at 8).toNat + (b.at 9).toNat := by
    rw [toList_frame]
    simp [beNat]
    omega
  have spaced : ¬ (d.port.hasPps && !due (d.port.pps + 80000000) t) = true := by
    simpa using later
  rw [ttodFrame, ttod_listens en supply, if_neg Bool.false_ne_true, if_neg (by simp [start])]
  simp only
  rw [if_neg (by decide), if_neg (by omega), if_neg (by rw [crc, check]; exact fun h => h rfl),
    if_neg (by simp [version]), if_neg spaced, sec, info]
  rfl

end Frames

/-- Settles O24: the inputs that are ignored leave the blocks as they are; an edge in LOCKED, a miss and a frame are the
equations above. -/
theorem servoInputs : Obligations.ServoInputs := by
  unfold Obligations.ServoInputs
  intro s
  refine ⟨?ignoredEdge, ?lockedEdge, ?miss, ?badFrame, ?goodFrame, ?ignoredFrame⟩
  case ignoredEdge =>
    intro r t w h
    exact idles_of_runDev _ (exec_tppsEdge r t w s) (tppsEdge_ignored h s.mt)
  case lockedEdge =>
    intro t w supply d e wide locked accepted frames within
    apply brings_of_runDev _ (exec_tppsEdge _ t w s)
    rw [tppsEdge_locked supply wide locked accepted frames]
    obtain ⟨v, h⟩ := lockedEdge_within (m := t.toNat - pdly d) (e := e) (d := d.edgeTaken t.toNat) rfl within s.mt
    rw [h]
    exact ⟨rfl, rfl, rfl, rfl, rfl, locked, rfl, rfl, rfl⟩
  case miss =>
    intro ended
    apply brings_of_runDev _ (exec_ppsMissing s)
    have follows : s.core.dev.stb.st ≠ .holdover := ppsWindowEnded_st ended
    rw [ppsMiss_ended ended]
    by_cases limit : max 1 (fld s.core.dev.stb.servo 15 12) ≤ s.core.dev.port.missCnt + 1
    · simp only [if_pos limit]
      refine ⟨?_, ?_, ?_, fun _ => ⟨?_, ?_, ?_⟩, fun below => ?_⟩
      · exact setServo_port TimePort.missCnt (fun _ _ _ _ _ => rfl) _ _ _
      · exact setServo_port TimePort.sec (fun _ _ _ _ _ => rfl) _ _ _
      · rw [setServo_stb]
        rfl
      · rw [setServo_stb]
      · rw [setServo_stb]
        rfl
      · apply setServo_holdover
        exact follows
      · omega
    · simp only [if_neg limit]
      exact ⟨rfl, rfl, rfl, fun h => absurd h limit, fun _ => ⟨rfl, rfl⟩⟩
  case badFrame =>
    intro b ok gap t en supply start
    exact changes_of_runDev _ (exec_ttodFrame b ok gap t s) (ttodFrame_badStart en supply start ok _ _ s.mt)
  case goodFrame =>
    intro b gap t en supply start close crc version later
    exact changes_of_runDev _ (exec_ttodFrame b true gap t s)
      (ttodFrame_good en supply start close crc version later s.mt)
  case ignoredFrame =>
    intro b ok gap t h
    exact idles_of_runDev _ (exec_ttodFrame b ok gap t s) (ttodFrame_ignored h b ok _ _ s.mt)

end Machine

end Sys2Proof

namespace Sys2Proof

/-- An entry of a table that was changed entry by entry. -/
@[simp] theorem Tab.at_mapIdx {α β : Type} {n : Nat} (f : Nat → α → β) (t : Tab α n) (i : Fin n) :
    Tab.at (t.mapIdx f) i = f i.val (t.at i) := by
  simp [Tab.at]

namespace Machine

/-! ## What holds the device in reset -/

theorem exec_porst (why : ColdCause) (low : Bool) (s : State) : exec (.porst why low) s =
    .next { s with mt := if low then 0 else s.mt, core := porst why low s.core } := rfl
theorem exec_brown (w : CoreSupply) (s : State) :
    exec (.brown w) s = .next { s with mt := 0, core := brownOut w s.core } := rfl

/-- R433, R435: a bit of what holds the device in reset is set or cleared, and the others stay. -/
theorem holdReset_hold {k : Nat} (hk : k < 4) (on : Bool) (d : Device) (i : Nat) :
    bitOf (holdReset k on d).pwr.hold i = if i = k then on else bitOf d.pwr.hold i := by
  change (setFld d.pwr.hold k k on.toNat).getLsbD i = if i = k then on else d.pwr.hold.getLsbD i
  by_cases h : i = k
  · rw [h, if_pos rfl, getLsbD_setFld_bit _ _ hk]
    cases on <;> rfl
  · rw [if_neg h, getLsbD_setFld_apart _ _ (by omega)]

theorem held_of_hold {d : Device} {k : Nat} (h : bitOf d.pwr.hold k = true) : d.held = true := by
  rw [Device.held, bne_iff_ne]
  intro zero
  simp [bitOf, zero] at h

/-- R438: while the device is held in reset every timing pin shows its pull-down. -/
theorem tpOut_held {d : Device} (h : d.held = true) (p : Fin 256) : tpOut p d = .pullDown := by
  simp [tpOut, h]

/-! ## A burn cut off by a reset -/

/-- R422: power loss changes the keel, the fuses and the spares of a bank that they name; free values are taken. -/
def sameButBurn (d d' : Device) : Prop := ∃ k f m n, d' = { d with keel := k, fuses := f, mem := m, free := n }

theorem sameButBurn.trans {a b c : Device} (h : sameButBurn a b) (g : sameButBurn b c) : sameButBurn a c := by
  obtain ⟨_, _, _, _, rfl⟩ := h
  obtain ⟨_, _, _, _, rfl⟩ := g
  exact ⟨_, _, _, _, rfl⟩

theorem sameButBurn.lko {d d' : Device} (h : sameButBurn d d') : d'.lko = d.lko := by
  obtain ⟨_, _, _, _, rfl⟩ := h
  rfl
theorem sameButBurn.pwr {d d' : Device} (h : sameButBurn d d') : d'.pwr = d.pwr := by
  obtain ⟨_, _, _, _, rfl⟩ := h
  rfl

theorem fuseAct_changes (b : Block) (d : Device) : sameButBurn d (fuseAct b d) := by
  unfold fuseAct
  simp only
  split
  all_goals exact ⟨_, _, _, _, rfl⟩

theorem fuseCut_changes (b : Block) (d : Device) : sameButBurn d (fuseCut b d) := by
  unfold fuseCut
  simp only
  split
  · exact (fuseAct_changes b d).trans ⟨_, _, _, _, rfl⟩
  · split
    case h_2 =>
      split
      · exact fuseAct_changes b d
      · exact ⟨_, _, _, _, rfl⟩
    all_goals exact ⟨_, _, _, _, rfl⟩

theorem blockCut_changes (b : Block) (d : Device) : sameButBurn d (blockCut b d) := by
  unfold blockCut
  simp only
  split
  · exact ⟨_, _, _, _, rfl⟩
  · split
    · exact ⟨_, _, _, _, rfl⟩
    · split
      · refine sameButBurn.trans ?_ ((fuseCut_changes b _).trans ⟨_, _, _, _, rfl⟩)
        exact ⟨_, _, _, _, rfl⟩
      · split
        · exact ⟨_, _, _, _, rfl⟩
        · exact ⟨_, _, _, _, rfl⟩
      · exact ⟨_, _, _, _, rfl⟩

theorem jobCut_changes (d : Device) : sameButBurn d (jobCut d) := by
  unfold jobCut
  split
  · exact ⟨_, _, _, _, rfl⟩
  · exact blockCut_changes _ d

theorem jobCut_of_none {d : Device} (h : d.key.job = none) : jobCut d = d := by
  simp [jobCut, h]

/-! ## What a reset leaves -/

/-- R435: what every reset leaves of the blocks `d`: what lies outside the logic stays, but for a burn cut off, and the rest
is as after reset, with every timing pin pulled down. -/
def resetKeeps (d d' : Device) : Prop :=
  (d.key.job = none → d'.keel = d.keel ∧ d'.fuses = d.fuses) ∧ d'.pwr.permit = false ∧ d'.pwr.armed = false ∧
  d'.pwr.gate = false ∧ d'.chn = Device.reset.chn ∧ d'.axs = Device.reset.axs ∧ d'.evc = Device.reset.evc ∧
  d'.xfr = Device.reset.xfr ∧ d'.mem = Device.reset.mem ∧ d'.alm = Device.reset.alm ∧ d'.hlm = Device.reset.hlm ∧
  (∀ k, (d'.lko.at k).uv = (d.lko.at k).uv) ∧ (∀ p, tpOut p d' = .pullDown) ∧ d'.pwr.vioIn = d.pwr.vioIn

/-- R435: the lookout inputs lie outside the logic. -/
theorem keepAcross_uv (o d : Device) (k : LkNo) : ((o.keepAcross d).lko.at k).uv = (o.lko.at k).uv := by
  simp [Device.keepAcross]

/-- A reset that finds the blocks `o`, which differ from `d` by a burn cut off, and leaves `p` of the power block. -/
theorem resetKeeps_of {d o : Device} (same : sameButBurn d o) (idle : d.key.job = none → o = d) (b : Stb) (t : TimePort)
    {p : Pwr} (permit : p.permit = false) (armed : p.armed = false) (gate : p.gate = false)
    (vio : p.vioIn = o.pwr.vioIn) {k : Nat} (hold : bitOf p.hold k = true) :
    resetKeeps d { o.keepAcross Device.reset with stb := b, port := t, pwr := p } := by
  refine ⟨fun h => ?_, permit, armed, gate, rfl, rfl, rfl, rfl, rfl, rfl, rfl, fun n => ?_,
    tpOut_held (held_of_hold hold), ?_⟩
  · rw [idle h]
    exact ⟨rfl, rfl⟩
  · exact (keepAcross_uv o Device.reset n).trans (by rw [same.lko])
  · exact vio.trans (by rw [same.pwr])

/-- The bits of `hold` after bit `k` was written. -/
def holdsBut (k : Nat) (on : Bool) (d d' : Device) : Prop :=
  ∀ i, i < 4 → bitOf d'.pwr.hold i = if i = k then on else bitOf d.pwr.hold i

theorem holdsBut_holdReset {k : Nat} (hk : k < 4) (on : Bool) {d e : Device} (h : e.pwr.hold = d.pwr.hold) :
    holdsBut k on d (holdReset k on e) := by
  intro i _
  rw [holdReset_hold hk, h]

/-! ## Cold resets -/

/-- R435: PWR_RSTCAUSE of a PORST. -/
def coldCode (why : ColdCause) : BitVec 4 := match why with | .porstPin => 2 | .powerUp => 1

/-- R434: the bit of what holds the device in reset that stands for a core supply. -/
def supplyHold (w : CoreSupply) : Nat := match w with | .vcore => 2 | .vaux => 3

/-- R434: a core supply lies below its window. -/
def Pwr.without (w : CoreSupply) (p : Pwr) : Pwr :=
  match w with | .vcore => { p with vcoreIn := false } | .vaux => { p with vauxIn := false }

/-- R435: the power block of a cold reset, before the cause holds the device. -/
def Pwr.afterCold (cause : BitVec 4) (p : Pwr) : Pwr :=
  { Pwr.reset with vcoreIn := p.vcoreIn, vauxIn := p.vauxIn, vioIn := p.vioIn, hold := p.hold, rstcause := cause }

/-- R422, R435: the blocks of a cold reset that leaves the power block `p`. -/
def Device.afterCold (p : Pwr) (d : Device) : Device := { (jobCut d).keepAcross Device.reset with pwr := p }

theorem coldReset_dev (cause : BitVec 4) (c : Core) :
    (coldReset cause c).dev = c.dev.afterCold (c.dev.pwr.afterCold cause) := by
  unfold Device.afterCold
  rw [← (jobCut_changes c.dev).pwr]
  rfl

/-- R30, R433, R435: PORST_N low, or a power-up. -/
theorem porst_low (why : ColdCause) (c : Core) :
    porst why true c = ⟨c.ram.afterReset, holdReset 0 true (c.dev.afterCold (c.dev.pwr.afterCold (coldCode why)))⟩ := by
  rw [← coldReset_dev]
  rfl

/-- R434: VCORE or VAUX below its window. -/
theorem brownOut_eq (w : CoreSupply) (c : Core) : brownOut w c =
    ⟨c.ram.afterReset, holdReset (supplyHold w) true (c.dev.afterCold ((c.dev.pwr.afterCold 8).without w))⟩ := by
  have h := coldReset_dev 8 c
  cases w with
  | vcore => exact congrArg (fun d => (⟨c.ram.afterReset, holdReset 2 true (d.pwrUpd (Pwr.without .vcore))⟩ : Core)) h
  | vaux => exact congrArg (fun d => (⟨c.ram.afterReset, holdReset 3 true (d.pwrUpd (Pwr.without .vaux))⟩ : Core)) h

/-- R435: a cold reset held by bit `k`, with `p` left of the power block. -/
theorem afterCold_keeps {k : Nat} (hk : k < 4) (d : Device) {p : Pwr} (permit : p.permit = false)
    (armed : p.armed = false) (gate : p.gate = false) (vio : p.vioIn = d.pwr.vioIn) (hold : p.hold = d.pwr.hold) :
    resetKeeps d (holdReset k true (d.afterCold p)) ∧ holdsBut k true d (holdReset k true (d.afterCold p)) := by
  have bits : holdsBut k true d (holdReset k true (d.afterCold p)) := holdsBut_holdReset hk true hold
  exact ⟨resetKeeps_of (jobCut_changes d) jobCut_of_none _ _ permit armed gate
    (vio.trans (by rw [(jobCut_changes d).pwr])) ((bits k hk).trans (if_pos rfl)), bits⟩

/-! ## Warm resets -/

/-- R435: the power block of a warm reset, before RST_N holds the device. -/
def Pwr.afterWarm (p : Pwr) : Pwr := { p.afterCold 4 with phase := if p.phase = .pll then .pll else .fuse }

/-- R435: the blocks after a warm reset. -/
def Device.afterWarm (d : Device) : Device :=
  { d.keepAcross Device.reset with stb := d.stb, port := d.port, pwr := d.pwr.afterWarm }

/-- R435: RST_N low while PORST_N is high. -/
theorem rstPin_low {c : Core} (h : bitOf c.dev.pwr.hold 0 = false) :
    rstPin true c = ⟨c.ram.afterReset, holdReset 1 true c.dev.afterWarm⟩ := by
  rw [rstPin, h]
  rfl

theorem afterWarm_keeps (d : Device) :
    resetKeeps d (holdReset 1 true d.afterWarm) ∧ holdsBut 1 true d (holdReset 1 true d.afterWarm) := by
  have bits : holdsBut 1 true d (holdReset 1 true d.afterWarm) := holdsBut_holdReset (by decide) true rfl
  exact ⟨resetKeeps_of ⟨_, _, _, _, rfl⟩ (fun _ => rfl) d.stb d.port rfl rfl rfl rfl
    ((bits 1 (by decide)).trans (if_pos rfl)), bits⟩

/-- R435: a reset input that rises lets go of its own hold alone. -/
theorem holdReset_only (k : Nat) (on : Bool) (d : Device) :
    holdReset k on d = { d with pwr := { d.pwr with hold := (holdReset k on d).pwr.hold } } := rfl

end Machine

end Sys2Proof

namespace Sys2Proof

namespace Machine

/-! ## The start-up run on sound banks -/

/-- What each turn of a run over all numbers makes of its own number, and no other turn undoes, holds of every number after
the run. -/
theorem forAll_each {σ : Type} {n : Nat} (P : Fin n → σ → Prop) (f : Fin n → σ → σ) (own : ∀ i s, P i (f i s))
    (others : ∀ i j s, j ≠ i → P i s → P i (f j s)) (i : Fin n) (s : σ) : P i (forAll f s) := by
  have go : ∀ (k : Nat) (h : k ≤ n), i.val < k → P i (forUpTo f k h s) := by
    intro k
    induction k with
    | zero => intro _ hi; exact absurd hi (Nat.not_lt_zero _)
    | succ k ih =>
      intro h hi
      by_cases e : i.val = k
      · obtain rfl : i = ⟨k, h⟩ := Fin.ext e
        exact own _ _
      · exact others i ⟨k, h⟩ _ (fun j => e (congrArg Fin.val j).symm) (ih _ (by omega))
  exact go n _ i.isLt

/-- No spare of the bank has failed its test. -/
def Bank.sound (x : Bank) : Prop := ∀ k, (x.spares.at k).bad = false

theorem spareRows_of_sound {x : Bank} (h : x.sound) : spareRows x = [] := by
  unfold spareRows
  rw [List.map_eq_nil_iff, List.filter_eq_nil_iff]
  intro s hs
  obtain ⟨i, hi, rfl⟩ := List.getElem_of_mem hs
  have : (x.spares.toList[i]).bad = false := by
    rw [Vector.getElem_toList]
    exact h ⟨i, by simpa using hi⟩
  rw [this, Bool.and_false]
  exact Bool.false_ne_true

/-- A spare that has not failed takes the place of another. -/
theorem Bank.sound_upd {x : Bank} (h : x.sound) {k : Fin 2} {f : Spare → Spare} (hf : ∀ s, (f s).bad = s.bad) :
    Bank.sound { x with spares := x.spares.upd k f } := by
  intro i
  by_cases e : i = k
  · rw [e, Tab.at_upd_same, hf]
    exact h k
  · rw [Tab.at_upd_ne _ _ e]
    exact h i

/-- R378: applying the fused mappings fails no spare and leaves the results. -/
theorem applyFused_keeps (f : Fuses) (b : BankNo) {x : Bank} (h : x.sound) :
    (applyFused f b x).sound ∧ (applyFused f b x).nfail = x.nfail := by
  refine foldl_keeps (fun y : Bank => y.sound ∧ y.nfail = x.nfail) _ ?_ _ x ⟨h, rfl⟩
  rintro y m ⟨sound, results⟩
  split
  · exact ⟨sound, results⟩
  · exact ⟨Bank.sound_upd sound (fun _ => rfl), results⟩

/-- R376: the spares after step 1. -/
theorem fusedSpares_sound (f : Fuses) (b : BankNo) : ∀ k, ((fusedSpares f b).at k).bad = false := by
  refine foldl_keeps (fun t : Tab Spare 2 => ∀ k, (t.at k).bad = false) _ ?_ _ _ (fun k => by rw [Tab.at_all]; rfl)
  intro t x h k
  by_cases e : k = x.1
  · rw [e, Tab.at_put_same]
  · rw [Tab.at_put_ne _ _ e]
    exact h k

theorem Device.bankUpd_bankUpd (b : BankNo) (f g : Bank → Bank) (d : Device) :
    (d.bankUpd b f).bankUpd b g = d.bankUpd b (fun x => g (f x)) := by
  simp [Device.bankUpd, Tab.upd_upd]

/-- R370: cells without faults pass. -/
theorem marchRow_sound (ss : Bool) (D : DWord) : marchRow ss D [] = none := rfl

theorem spareFails_sound (ss : Bool) (D : DWord) (b : BankNo) (k : Nat) : spareFails ss D [] b k = false := by
  simp [spareFails, marchRow_sound]

theorem marchBank_sound (ss : Bool) (D : DWord) (b : BankNo) : marchBank ss D (rowsOf b []) = [] := by
  simp [marchBank, rowsOf]

/-- R371: the free spares of a bank have been tested, and none has a fault. -/
def Bank.tested (ss : Bool) (D : DWord) (b : BankNo) (x : Bank) : Bank :=
  { x with spares := x.spares.mapIdx (fun i s => if s.valid then s else { s with bad := spareFails ss D [] b i }) }

theorem Bank.tested_sound (ss : Bool) (D : DWord) (b : BankNo) {x : Bank} (h : x.sound) : (x.tested ss D b).sound := by
  intro k
  rw [Bank.tested, Tab.at_mapIdx]
  split
  · exact h k
  · exact spareFails_sound ss D b k

/-- R376, R380: the fused mappings have been applied, and the result is valid. -/
def Bank.mapped (f : Fuses) (b : BankNo) (x : Bank) : Bank := { applyFused f b x with valid := true }

/-- R371, R376: a run over a bank without faults, whose spares have no fault. -/
theorem destrBank_noFaults (ss : Bool) (D : DWord) (now : Nat) (b : BankNo) (d : Device) :
    destrBank ss D [] [] now b d =
      let e := d.bankUpd b (fun x => (x.tested ss D b).mapped d.fuses b)
      repairBank b ((fins 256).filter (fun r => (spareRows (e.mem.bank.at b)).contains r)) now e := by
  rw [← Device.bankUpd_bankUpd]
  unfold destrBank
  simp only [marchBank_sound, List.foldl_nil, List.contains_nil, Bool.false_or]
  rfl

theorem repairBank_nil (b : BankNo) (now : Nat) (d : Device) :
    repairBank b [] now d = d.bankUpd b (fun _ => { d.mem.bank.at b with unrep := false }) := rfl

/-- R371, R376: such a run over a bank with sound spares changes that bank alone: its result is valid, and no row lacks a
spare. -/
theorem destrBank_sound {b : BankNo} {d : Device} (h : (d.mem.bank.at b).sound) (ss : Bool) (D : DWord) (now : Nat) :
    ∃ x, destrBank ss D [] [] now b d = d.bankUpd b (fun _ => x) ∧
      x.nfail = (d.mem.bank.at b).nfail ∧ x.valid = true ∧ x.unrep = false := by
  obtain ⟨sound, results⟩ := applyFused_keeps d.fuses b (Bank.tested_sound ss D b h)
  have none : spareRows (((d.mem.bank.at b).tested ss D b).mapped d.fuses b) = [] := spareRows_of_sound sound
  refine ⟨{ ((d.mem.bank.at b).tested ss D b).mapped d.fuses b with unrep := false }, ?_, results, rfl, rfl⟩
  rw [destrBank_noFaults]
  simp only [Device.bankUpd_mem, Tab.at_upd_same, none, List.contains_nil, List.filter_false, repairBank_nil,
    Device.bankUpd_bankUpd]

/-- R376: the turn of the start-up run for one bank. -/
theorem startUpTurn (b : BankNo) (now : Nat) (d : Device) : ∃ x,
    destrBank false (background 0) [] [] now b
      (d.bankUpd b (fun x => { x.clearRes with spares := fusedSpares d.fuses b })) = d.bankUpd b (fun _ => x) ∧
    x.nfail = 0 ∧ x.valid = true ∧ x.unrep = false := by
  have fresh : ((d.bankUpd b (fun x => { x.clearRes with spares := fusedSpares d.fuses b })).mem.bank.at b) =
      { (d.mem.bank.at b).clearRes with spares := fusedSpares d.fuses b } := by
    rw [Device.bankUpd_mem, Tab.at_upd_same]
  obtain ⟨x, run, results, valid, repaired⟩ := destrBank_sound (b := b)
    (d := d.bankUpd b (fun x => { x.clearRes with spares := fusedSpares d.fuses b }))
    (by rw [fresh]; exact fusedSpares_sound d.fuses b) false (background 0) now
  refine ⟨x, ?_, ?_, valid, repaired⟩
  · rw [run, Device.bankUpd_bankUpd]
  · rw [results, fresh]
    rfl

/-- R376: what the start-up run leaves of a bank without faults. -/
def Bank.passed (x : Bank) : Prop := x.nfail = 0 ∧ x.valid = true ∧ x.unrep = false

theorem startUpRepair_banks (now : Nat) (c : Core) (b : BankNo) :
    ((startUpRepair [] [] now c).dev.mem.bank.at b).passed := by
  unfold startUpRepair doneRecord raiseMem
  simp only [raise_mem]
  refine forAll_each (fun (b : BankNo) (d : Device) => (d.mem.bank.at b).passed) _ ?own ?others b c.dev
  case own =>
    intro b d
    obtain ⟨x, run, holds⟩ := startUpTurn b now d
    rw [run, Device.bankUpd_mem, Tab.at_upd_same]
    exact holds
  case others =>
    intro b e d h holds
    obtain ⟨x, run, _⟩ := startUpTurn e now d
    rw [run, Device.bankUpd_mem, Tab.at_upd_ne _ _ h.symm]
    exact holds

end Machine

end Sys2Proof

namespace Sys2Proof

namespace Machine

/-! ## From a command's meaning to memories and blocks -/

theorem bringsAll_of_run {i : Instr} {s : State} {p : Core → Prop} (f : Nat → Core → Core) (h : exec i s = s.run f)
    (hp : p (f s.mt s.core)) : BringsAll i s p :=
  ⟨f s.mt s.core, h, hp⟩

theorem idles_of_run {i : Instr} {s : State} (f : Nat → Core → Core) (h : exec i s = s.run f)
    (hf : f s.mt s.core = s.core) : Idles i s := by
  rw [Idles, h, State.run_next, hf]

/-- A command that leaves the memories as they are. -/
theorem brings_of_run {i : Instr} {s : State} {p : Device → Prop} (f : Nat → Core → Core) (h : exec i s = s.run f)
    (g : Device → Device) (hf : f s.mt s.core = s.core.mapDev g) (hp : p (g s.core.dev)) : Brings i s p :=
  ⟨g s.core.dev, by rw [h, State.run_next, hf]; rfl, hp⟩

theorem changes_of_run {i : Instr} {s : State} {g : Device → Device} (f : Nat → Core → Core) (h : exec i s = s.run f)
    (hf : f s.mt s.core = s.core.mapDev g) : Changes i s g := by
  rw [Changes, h, State.run_next, hf]
  rfl

theorem exec_warm (low : Bool) (s : State) : exec (.warmReset low) s = s.run (fun _ => rstPin low) := rfl
theorem exec_bootFlow (st : BootStage) (s : State) : exec (.bootFlow st) s = s.run (bootFlow st) := rfl
theorem exec_romrun (s : State) : exec .romrun s = s.runDev (fun _ => romRun) := rfl
theorem exec_hostgo (ok : Bool) (s : State) : exec (.hostgo ok) s = s.run (hostGo ok) := rfl
theorem exec_skip (s : State) : exec .skip s = s.runDev (fun _ => hostSkip) := rfl

/-! ## The phases of the boot flow -/

/-- R433, R435: a device held in reset does not boot. -/
theorem bootFlow_held {c : Core} (h : c.dev.pwr.hold ≠ 0) (st : BootStage) (now : Nat) : bootFlow st now c = c := by
  unfold bootFlow
  rw [if_pos h]

section Phases
variable {c : Core} (up : c.dev.pwr.hold = 0) (now : Nat)
include up

theorem bootFlow_fuse (par : Bool) (bad : List FuseCheck) (v : Byte) :
    bootFlow (.fuse par bad v) now c = c.mapDev (bootFuse par bad v now) := by
  rw [bootFlow, if_neg (not_not.mpr up)]
theorem bootFlow_test (l : List RowFault) (m : List SpareFault) :
    bootFlow (.test l m) now c = bootTest l m now c := by
  rw [bootFlow, if_neg (not_not.mpr up)]
theorem bootFlow_clear : bootFlow .clear now c = bootClear c := by
  rw [bootFlow, if_neg (not_not.mpr up)]
theorem bootFlow_load (l : List Byte) (ok : Bool) : bootFlow (.load l ok) now c = bootLoad l ok now c := by
  rw [bootFlow, if_neg (not_not.mpr up)]
theorem bootFlow_ready : bootFlow .ready now c = c.mapDev (bootReady now) := by
  rw [bootFlow, if_neg (not_not.mpr up)]

end Phases

/-- R434, R436: FUSE ends with no slot that fails its check and the counter not lost. -/
theorem bootFuse_good {d : Device} (fuse : d.pwr.phase = .fuse) (counter : d.keel.ctrLost = false)
    (whole : d.fuses.cut = []) (par : Bool) (v : Byte) (now : Nat) :
    bootFuse par [] v now d = drawNonce { d with
      fuses := { d.fuses with bad := [] }, hps := { d.hps with par := par }
      pwr := { d.pwr with phase := .test, vcoreOk := d.pwr.vcoreIn, vauxOk := d.pwr.vauxIn, vioOk := d.pwr.vioIn
                          vio33 := v } } := by
  simp [bootFuse, fuse, whole, drawNonce, counter]

theorem bootFuse_other {d : Device} (h : d.pwr.phase ≠ .fuse) (par : Bool) (bad : List FuseCheck) (v : Byte) (now : Nat) :
    bootFuse par bad v now d = d := by
  rw [bootFuse, if_neg h]

@[simp] theorem Device.pwrUpd_mem (f : Pwr → Pwr) (d : Device) : (d.pwrUpd f).mem = d.mem := rfl

/-- R376, R436: TEST ends with banks that have no fault. -/
theorem bootTest_sound {c : Core} (h : c.dev.pwr.phase = .test) (now : Nat) :
    (bootTest [] [] now c).dev.pwr.phase = .clear ∧ (bootTest [] [] now c).ram = c.ram.loseBanks ∧
    ∀ b, ((bootTest [] [] now c).dev.mem.bank.at b).passed := by
  rw [bootTest, if_pos h]
  refine ⟨rfl, rfl, fun b => ?_⟩
  rw [Core.mapDev_dev, Device.pwrUpd_mem]
  exact startUpRepair_banks now c b

theorem bootTest_other {c : Core} (h : c.dev.pwr.phase ≠ .test) (l : List RowFault) (m : List SpareFault) (now : Nat) :
    bootTest l m now c = c := by
  rw [bootTest, if_neg h]

/-- A memory with nothing listed, whose unlisted bytes are 0, reads as 0. -/
theorem Memory.readN_nil {dflt : Nat → Byte} (h : ∀ a, dflt a = 0) (n : Nat) : ∀ a, Memory.readN dflt [] n a = 0 := by
  induction n with
  | zero => intro _; rfl
  | succ n ih => intro a; simp [Memory.readN, Memory.read, h, ih]

/-- R218: the cleared almanac reads as 0. -/
theorem almRead_clearAlm (r : Ram) (n a : Nat) : r.clearAlm.almRead n a = 0 := by
  have even : (r.almGen + r.almGen % 2) % 2 = 0 := by omega
  exact Memory.readN_nil (fun a => by simp [Ram.clearAlm, Ram.almDflt, even]) n a

/-- R436: CLEAR ends with program memory, almanac, clove tables and link buffers zero. -/
theorem bootClear_zero {c : Core} (h : c.dev.pwr.phase = .clear) :
    (bootClear c).dev.pwr.phase = .load ∧ (bootClear c).ram.bank = c.ram.bank ∧
    ∀ n a, (bootClear c).ram.progRead n a = 0 ∧ (bootClear c).ram.almRead n a = 0 ∧
      (bootClear c).ram.lutRead n a = 0 ∧ (bootClear c).ram.lbufRead n a = 0 := by
  have zero := Memory.readN_nil (dflt := zeroByte) (fun _ => rfl)
  rw [bootClear, if_pos h]
  exact ⟨rfl, rfl, fun n a => ⟨zero n a, almRead_clearAlm c.ram n a, zero n a, zero n a⟩⟩

theorem bootClear_other {c : Core} (h : c.dev.pwr.phase ≠ .clear) : bootClear c = c := by
  rw [bootClear, if_neg h]

/-- R257: with no image in the flash the boot ROM waits for the host. -/
theorem bootLoad_noFlash {c : Core} (load : c.dev.pwr.phase = .load) (boot : c.dev.hlm.mode = .boot)
    (unlocked : c.dev.hlm.locked = false) (idle : c.dev.hlm.waithost = false) (ok : Bool) (now : Nat) :
    bootLoad [] ok now c = c.mapDev (fun d => { d with hlm := { d.hlm with waithost := true } }) := by
  have waits : loadWaits c.dev = true := by simp [loadWaits, load, boot, unlocked, idle]
  simp [bootLoad, waits, loadFlash]

/-- R164: a raise counts one cause of its source. -/
theorem causes_raise {k : Nat} (hk : k < 256) (step kind cause arg now : Nat) (d : Device) :
    causes k (raise step k kind cause arg now d) = causes k d + 1 := by
  have h := raise_rcnt_same step (Fin.ofNat 256 k) kind cause arg now d
  rwa [show (Fin.ofNat 256 k).val = k from Nat.mod_eq_of_lt hk] at h

/-- R436, R449: READY. -/
theorem bootReady_done {d : Device} (load : d.pwr.phase = .load) (idle : d.hlm.waithost = false)
    (done : d.hlm.loaded = true ∨ d.hlm.mode = .recovery) (now : Nat) :
    (bootReady now d).pwr.phase = .ready ∧
    (bootReady now d).hlm.mode = (if d.hlm.loaded then .normal else .recovery) ∧
    (∀ n : Fin 16, ((bootReady now d).hlm.eng.at n).insvc =
      ((d.hlm.eng.at n).insvc || (d.hlm.emask.getLsbD n.val && !(d.hlm.eng.at n).fail))) ∧
    causes 241 (bootReady now d) = causes 241 d + 2 := by
  have ready : d.pwr.phase = .load ∧ (!d.hlm.waithost) = true ∧ (d.hlm.loaded = true ∨ d.hlm.mode = .recovery) :=
    ⟨load, by rw [idle]; rfl, done⟩
  unfold bootReady
  rw [if_pos ready]
  refine ⟨rfl, rfl, fun n => ?_, ?_⟩
  · simp only [raisePwr, raise_hlm, helmStart, Tab.at_mapIdx]
    cases (d.hlm.emask.getLsbD n.val && !(d.hlm.eng.at n).fail) <;> simp
  · simp only [raisePwr, causes_raise (show 241 < 256 by decide), BitVec.add_assoc]
    rfl

theorem bootReady_other {d : Device} (h : d.pwr.phase ≠ .load ∨ d.hlm.waithost = true) (now : Nat) :
    bootReady now d = d := by
  have : ¬ (d.pwr.phase = .load ∧ (!d.hlm.waithost) = true ∧ (d.hlm.loaded = true ∨ d.hlm.mode = .recovery)) := by
    rintro ⟨load, idle, _⟩
    rcases h with h | h
    · exact h load
    · rw [h] at idle
      exact Bool.false_ne_true idle
  rw [bootReady, if_neg this]

end Machine

end Sys2Proof

namespace Sys2Proof

namespace Machine

/-! ## The open store is written -/

theorem storeLoad_nil (r : Ram) : storeLoad [] r = { r with store := [] } := by
  simp [storeLoad]

/-- R257 step 11: the words are written one after another. -/
theorem storeLoad_concat (ws : List Word) (w : Word) (r : Ram) :
    storeLoad (ws ++ [w]) r = (storeLoad ws r).storeWrite 4 (4 * ws.length) w.toNat := by
  have pairs : (List.range (ws.length + 1)).zip (ws ++ [w]) = (List.range ws.length).zip ws ++ [(ws.length, w)] := by
    rw [List.range_succ, List.zip_append (by simp)]
    rfl
  simp only [storeLoad, nats_eq, List.length_append, List.length_singleton, pairs, List.foldl_append, List.foldl_cons,
    List.foldl_nil]

@[simp] theorem Ram.storeWrite_bank (n a v : Nat) (r : Ram) : (r.storeWrite n a v).bank = r.bank := by
  unfold Ram.storeWrite
  split <;> rfl

/-- R257: the data banks stay. -/
theorem storeLoad_bank (ws : List Word) (r : Ram) : (storeLoad ws r).bank = r.bank := by
  unfold storeLoad
  exact foldl_same Ram.bank _ (fun r x => Ram.storeWrite_bank _ _ _ r) _ _

theorem Ram.storeWrite_store {n a : Nat} (h : a + n ≤ storeSize) (v : Nat) (r : Ram) :
    (r.storeWrite n a v).store = Memory.writeN zeroByte n a v r.store := by
  rw [Ram.storeWrite, if_pos h]

/-- R257 step 11: words that fit the store stand in it, each at its address. -/
theorem storeLoad_holds (ws : List Word) (r : Ram) (fits : 4 * ws.length ≤ storeSize) :
    Memory.wf zeroByte storeSize (storeLoad ws r).store ∧
    ∀ (i : Nat) (w : Word), ws[i]? = some w → (storeLoad ws r).storeRead 4 (4 * i) = w.toNat := by
  induction ws using List.reverseRecOn with
  | nil => exact ⟨by rw [storeLoad_nil]; trivial, fun i w h => by simp at h⟩
  | append_singleton ws x ih =>
    rw [List.length_append, List.length_singleton] at fits
    obtain ⟨wf, holds⟩ := ih (by omega)
    have last : 4 * ws.length + 4 ≤ storeSize := by omega
    rw [storeLoad_concat]
    refine ⟨?_, fun i w h => ?_⟩
    · rw [Ram.storeWrite_store last]
      exact Memory.writeN_wf _ _ _ last wf
    · unfold Ram.storeRead at holds ⊢
      rw [Ram.storeWrite_store last]
      rcases Nat.lt_trichotomy i ws.length with lt | rfl | gt
      · rw [Memory.readN_writeN_apart _ _ _ _ _ last wf (by omega)]
        exact holds i w (by rwa [List.getElem?_append_left lt] at h)
      · rw [Memory.readN_writeN _ _ _ last wf]
        obtain rfl : x = w := by simpa using h
        exact Nat.mod_eq_of_lt x.isLt
      · rw [List.getElem?_eq_none (by simp; omega)] at h
        cases h

/-! ## The image in the data banks -/

theorem blocksOf_length (n : Nat) : ∀ (k : Nat) (l : List Byte), (blocksOf n k l).length ≤ k
  | 0, _ => by simp [blocksOf]
  | k + 1, [] => by simp [blocksOf]
  | k + 1, b :: l => by
    have := blocksOf_length n k ((b :: l).drop n)
    simp only [blocksOf, List.length_cons]
    omega

theorem imgWords_length (nd nw : Nat) (p : List Byte) : (imgWords nd nw p).length ≤ nw := by
  rw [imgWords, List.length_map]
  exact blocksOf_length 4 nw _

/-- R257 step 4: an image that passes has no more microwords than the open store. -/
theorem nw_of_imgCheck {f : Fuses} {b : List Byte} {n : Nat} (h : imgCheck f b n = 0) : (imgHead b).nw ≤ storeWords := by
  by_contra big
  have : storeWords < (imgHead b).nw := by omega
  unfold imgCheck at h
  simp only [this, true_or, if_true] at h
  split at h
  · cases h
  · split at h
    all_goals cases h

/-- R257 step 1: the image that stands in the data banks, of `n` bytes. -/
def bankImage (n : Nat) (r : Ram) : List Byte := (nats (max n 128)).map (fun a => BitVec.ofNat 8 (r.bankRead 1 a))

theorem bankOf_eight (b : BankNo) : bankOf (8 * b.val) = b := by
  apply Fin.ext
  simp [bankOf]

/-- R257 step 1: the boot ROM has found its source. -/
def Device.fromHost (d : Device) : Device := { d with hlm := { d.hlm with src := 2 } }

theorem causes_fromHost (k : Nat) (d : Device) : causes k d.fromHost = causes k d := rfl

/-- R257 step 1: HOSTGO with every bank on. -/
theorem hostGo_on {c : Core} (waits : c.dev.hlm.waithost = true) (on : ∀ b, (c.dev.mem.bank.at b).st = .on) (ok : Bool)
    (now : Nat) : hostGo ok now c =
      loadImage (bankImage c.dev.hlm.len c.ram) c.dev.hlm.len ok now (c.mapDev Device.fromHost) := by
  have powered : (fins 16).all (fun b => loadHost.bankPowered? (c.mapDev Device.fromHost).dev b) = true := by
    rw [List.all_eq_true]
    intro b _
    simp [loadHost.bankPowered?, Device.bankOn, bankOf_eight, Device.fromHost, on b]
  rw [hostGo, if_pos waits, loadHost]
  exact if_pos powered

/-- R257 step 1: HOSTGO with a bank that is not on. -/
theorem hostGo_off {c : Core} (waits : c.dev.hlm.waithost = true) {b : BankNo} (off : (c.dev.mem.bank.at b).st ≠ .on)
    (ok : Bool) (now : Nat) : hostGo ok now c = loadFail 10 now (c.mapDev Device.fromHost) := by
  have out : ¬ (fins 16).all (fun b => loadHost.bankPowered? (c.mapDev Device.fromHost).dev b) = true := by
    rw [List.all_eq_true]
    intro all
    have := all b (mem_fins b)
    simp [loadHost.bankPowered?, Device.bankOn, bankOf_eight, Device.fromHost, off] at this
  rw [hostGo, if_pos waits, loadHost]
  exact if_neg out

theorem hostGo_idle {c : Core} (h : c.dev.hlm.waithost = false) (ok : Bool) (now : Nat) : hostGo ok now c = c := by
  rw [hostGo, h]
  rfl

/-- R257, R259: a load that stops leaves its code, and counts one record. -/
theorem loadFail_dev (err now : Nat) (c : Core) :
    (loadFail err now c).dev.hlm =
      { c.dev.hlm with err := err, mode := .recovery, waithost := false, reload := false } ∧
    causes 249 (loadFail err now c).dev = causes 249 c.dev + 1 := by
  refine ⟨rfl, ?_⟩
  rw [loadFail, Core.mapDev_dev, raiseLoad, causes_raise (by decide)]
  rfl

/-- R257 steps 2 to 8: an image that fails a step. -/
theorem loadImage_bad {b : List Byte} {n : Nat} {c : Core} (h : imgCheck c.dev.fuses b n ≠ 0) (ok : Bool) (now : Nat) :
    loadImage b n ok now c = loadFail (imgCheck c.dev.fuses b n) now c := by
  rw [loadImage, if_pos h]

/-- R257: the records and the microwords of an image. -/
def imageRecs (f : Fuses) (b : List Byte) : List (Nat × Word) := imgRecs (imgHead b).nd (imgPayload f b)
def imageWords (f : Fuses) (b : List Byte) : List Word := imgWords (imgHead b).nd (imgHead b).nw (imgPayload f b)

/-- R257 steps 9 to 12: an image that passes every step. -/
theorem loadImage_good {b : List Byte} {n : Nat} {c : Core} (head : imgCheck c.dev.fuses b n = 0)
    (payload : payloadCheck (imageRecs c.dev.fuses b) (imageWords c.dev.fuses b) = 0) (ok : Bool) (now : Nat) :
    loadImage b n ok now c =
      if ok then loadDone (imgHead b) (imageRecs c.dev.fuses b) now (c.mapRam (storeLoad (imageWords c.dev.fuses b)))
      else loadFail 11 now (c.mapRam (storeLoad (imageWords c.dev.fuses b))) := by
  unfold imageRecs imageWords at *
  unfold loadImage
  simp only [head, payload, ne_eq, not_true, if_false]

/-- R257 step 11: the microwords of an image that passes stand in the store. -/
theorem imageWords_hold {f : Fuses} {b : List Byte} {n : Nat} (head : imgCheck f b n = 0) (r : Ram) {i : Nat} {w : Word}
    (h : (imageWords f b)[i]? = some w) : (storeLoad (imageWords f b) r).storeRead 4 (4 * i) = w.toNat := by
  refine (storeLoad_holds (imageWords f b) r ?_).2 i w h
  have words : (imageWords f b).length ≤ (imgHead b).nw := imgWords_length _ _ _
  have fits := nw_of_imgCheck head
  unfold storeWords at fits
  unfold storeSize
  omega

theorem loadDone_ram (h : ImgHead) (recs : List (Nat × Word)) (now : Nat) (c : Core) :
    (loadDone h recs now c).ram = c.ram := rfl
theorem loadFail_ram (err now : Nat) (c : Core) : (loadFail err now c).ram = c.ram := rfl

/-- R257 step 12, R259: a load that succeeds counts one record. -/
theorem causes_loadDone (h : ImgHead) (recs : List (Nat × Word)) (now : Nat) (c : Core) :
    causes 249 (loadDone h recs now c).dev = causes 249 c.dev + 1 := by
  rw [loadDone, raiseLoad, causes_raise (by decide)]
  rfl

/-- R257: a load from the data banks that stops with a code. -/
theorem hostgo_fails {s : State} {ok : Bool} {err : Nat}
    (h : hostGo ok s.mt s.core = loadFail err s.mt (s.core.mapDev Device.fromHost)) :
    Brings (.hostgo ok) s (fun d' =>
      d'.hlm = { s.core.dev.hlm with src := 2, waithost := false, err := err, mode := .recovery, reload := false } ∧
      causes 249 d' = causes 249 s.core.dev + 1) := by
  obtain ⟨hlm, count⟩ := loadFail_dev err s.mt (s.core.mapDev Device.fromHost)
  refine ⟨(loadFail err s.mt (s.core.mapDev Device.fromHost)).dev, ?_, hlm, count⟩
  rw [exec_hostgo, State.run_next, h]
  rfl

/-! ## Resets and boot -/

theorem romRun_of_recovery {d : Device} (h : d.hlm.mode = .recovery) :
    romRun d = { d with pwr := { d.pwr with gate := true } } := by
  rw [romRun, if_pos h]
  rfl

theorem romRun_other {d : Device} (h : d.hlm.mode ≠ .recovery) : romRun d = d := by
  rw [romRun, if_neg h]

theorem hostSkip_waiting {d : Device} (h : d.hlm.waithost = true) : hostSkip d =
    { d with hlm := { d.hlm with waithost := false, err := 0, mode := .recovery, reload := false } } := by
  rw [hostSkip, if_pos h]

theorem hostSkip_idle {d : Device} (h : d.hlm.waithost = false) : hostSkip d = d := by
  rw [hostSkip, h]
  rfl

/-- Settles O58: each reset and each phase is one of the equations above; what a reset leaves is `resetKeeps`, and the words
of an image are read back from the store one by one. -/
theorem resetsAndBoot : Obligations.ResetsAndBoot := by
  unfold Obligations.ResetsAndBoot
  intro s why which par storeOk vio33 d holds kept
  refine ⟨?cold, ?coldEnds, ?brown, ?warm, ?warmHeld, ?warmEnds, ?held, fun up => ⟨?fuse, ?notFuse, ?test,
    ?notTest, ?clear, ?notClear, ?load, ?ready, ?notReady⟩, ?romrun, ?noRomrun, ?idle, ?skip, ?image, ?off⟩
  case cold =>
    obtain ⟨keeps, bits⟩ := afterCold_keeps (k := 0) (by decide) d (p := d.pwr.afterCold (coldCode why))
      rfl rfl rfl rfl rfl
    refine ⟨_, exec_porst why true s, rfl, rfl, ?_⟩
    rw [porst_low]
    exact ⟨keeps, bits, rfl, rfl, rfl, by cases why <;> rfl⟩
  case coldEnds =>
    exact ⟨holdReset 0 false d, exec_porst why false s,
      holdsBut_holdReset (by decide) false rfl, holdReset_only 0 false d⟩
  case brown =>
    refine ⟨_, exec_brown which s, rfl, rfl, ?_⟩
    rw [brownOut_eq]
    obtain ⟨keeps, bits⟩ := afterCold_keeps (k := supplyHold which) (by cases which <;> decide) d
      (p := (d.pwr.afterCold 8).without which)
      (by cases which <;> rfl) (by cases which <;> rfl) (by cases which <;> rfl) (by cases which <;> rfl)
      (by cases which <;> rfl)
    cases which with
    | vcore => exact ⟨keeps, rfl, rfl, rfl, bits⟩
    | vaux => exact ⟨keeps, rfl, rfl, rfl, bits⟩
  case warm =>
    intro h
    apply bringsAll_of_run _ (exec_warm true s)
    rw [rstPin_low h]
    obtain ⟨keeps, bits⟩ := afterWarm_keeps d
    exact ⟨keeps, rfl, rfl, rfl, rfl, bits, rfl, rfl, rfl⟩
  case warmHeld =>
    intro h
    apply idles_of_run _ (exec_warm true s)
    rw [rstPin, h]
    rfl
  case warmEnds =>
    exact brings_of_run _ (exec_warm false s) (holdReset 1 false) rfl
      ⟨holdsBut_holdReset (by decide) false rfl, holdReset_only 1 false d⟩
  case held =>
    intro h st
    exact idles_of_run _ (exec_bootFlow st s) (bootFlow_held h st s.mt)
  case fuse =>
    intro fuse counter whole
    apply brings_of_run _ (exec_bootFlow _ s) _ (bootFlow_fuse up s.mt par [] vio33)
    rw [bootFuse_good fuse counter whole]
    exact ⟨rfl, rfl, rfl, rfl⟩
  case notFuse =>
    intro h
    apply idles_of_run _ (exec_bootFlow _ s)
    rw [bootFlow_fuse up, Core.mapDev, bootFuse_other h]
  case test =>
    intro h
    apply bringsAll_of_run _ (exec_bootFlow _ s)
    rw [bootFlow_test up]
    exact bootTest_sound h s.mt
  case notTest =>
    intro h
    apply idles_of_run _ (exec_bootFlow _ s)
    rw [bootFlow_test up, bootTest_other h]
  case clear =>
    intro h
    apply bringsAll_of_run _ (exec_bootFlow _ s)
    rw [bootFlow_clear up]
    exact bootClear_zero h
  case notClear =>
    intro h
    apply idles_of_run _ (exec_bootFlow _ s)
    rw [bootFlow_clear up, bootClear_other h]
  case load =>
    intro load boot unlocked idle
    apply changes_of_run _ (exec_bootFlow _ s)
    rw [bootFlow_load up, bootLoad_noFlash load boot unlocked idle]
  case ready =>
    intro load idle done
    exact brings_of_run _ (exec_bootFlow _ s) _ (bootFlow_ready up s.mt) (bootReady_done load idle done s.mt)
  case notReady =>
    intro h
    apply idles_of_run _ (exec_bootFlow _ s)
    rw [bootFlow_ready up, Core.mapDev, bootReady_other h]
  case romrun =>
    intro h
    exact changes_of_runDev _ (exec_romrun s) (romRun_of_recovery h)
  case noRomrun =>
    intro h
    exact idles_of_runDev _ (exec_romrun s) (romRun_other h)
  case idle =>
    intro h
    exact ⟨idles_of_run _ (exec_hostgo storeOk s) (hostGo_idle h storeOk s.mt),
      idles_of_runDev _ (exec_skip s) (hostSkip_idle h)⟩
  case skip =>
    intro h
    exact changes_of_runDev _ (exec_skip s) (hostSkip_waiting h)
  case image =>
    intro n image h p ws waits on
    have go : ∀ ok, hostGo ok s.mt s.core = loadImage image n ok s.mt (s.core.mapDev Device.fromHost) :=
      fun ok => hostGo_on waits on ok s.mt
    refine ⟨fun bad => ?_, fun head payload => ⟨?_, ?_⟩⟩
    · exact hostgo_fails ((go storeOk).trans (loadImage_bad (c := s.core.mapDev Device.fromHost) bad storeOk s.mt))
    · apply bringsAll_of_run _ (exec_hostgo true s)
      rw [go, loadImage_good (c := s.core.mapDev Device.fromHost) head payload, if_pos rfl, causes_loadDone, loadDone_ram,
        Core.mapRam_ram, Core.mapRam_dev, Core.mapDev_dev, causes_fromHost, storeLoad_bank]
      exact ⟨rfl, rfl, rfl, rfl, rfl, rfl, rfl, rfl, rfl, rfl, rfl, fun i w hw => imageWords_hold head s.core.ram hw⟩
    · apply bringsAll_of_run _ (exec_hostgo false s)
      obtain ⟨_, count⟩ := loadFail_dev 11 s.mt ((s.core.mapDev Device.fromHost).mapRam (storeLoad ws))
      rw [Core.mapRam_dev, Core.mapDev_dev, causes_fromHost] at count
      rw [go, loadImage_good (c := s.core.mapDev Device.fromHost) head payload, if_neg Bool.false_ne_true, loadFail_ram,
        Core.mapRam_ram, storeLoad_bank]
      exact ⟨rfl, rfl, rfl, rfl, count, rfl⟩
  case off =>
    intro b waits off
    exact hostgo_fails (hostGo_off waits off storeOk s.mt)

end Machine

end Sys2Proof

namespace Sys2Proof

namespace Machine

/-! ## An instruction of a service that stands before it -/

theorem canRun_of_ready {s : State} {h : Chan} {v : Service} {op : Nat} (r : Ready s h v op) : canRun v = true := by
  obtain ⟨_, count, inside, going, _⟩ := r
  exact canRun_of count inside going

/-- R182: the opcodes that the model takes for two-word ones are those of the statements. -/
theorem twoWords_of_romX {op : Nat} (h : romX op = true) : twoWords op := by
  simpa [romX, twoWords, or_assoc] using h

/-- R238, R250: the instruction that a service stands before, of an opcode of the ROM and without a tail, leaves its routine
staged. -/
theorem run_runOp {s : State} {h : Chan} {v : Service} {op : Nat} {g : Env → Staged} (r : Ready s h v op) (rom : op < 0xE0)
    (tail : (g (seenBy s h v)).tail = none) :
    s.run (runOp op g h) = .next (afterRoutine s h v (g (seenBy s h v))) := by
  have may := canRun_of_ready r
  obtain ⟨svc, _, _, _, word, patch, fits⟩ := r
  have last : (g (envOf h v s.mt s.core)).last = (g (envOf h v s.mt s.core)).ctx := by
    rw [Staged.last, show (g (envOf h v s.mt s.core)).tail = none from tail]
  rw [State.run_next, runOp_next svc may word rom patch (fun x => fits (twoWords_of_romX x)), last]
  rfl

/-- A command whose routine is `g` runs with the routine `f`, where the two agree on what is admitted. -/
theorem runs_of_rom {i : Chan → Instr} {op : Nat} {ok : Env → Prop} {f : Env → Staged} (g : Env → Staged)
    (he : ∀ h s, exec (i h) s = s.run (runOp op g h)) (rom : op < 0xE0) (hg : ∀ e, ok e → g e = f e)
    (tail : ∀ e, (f e).tail = none := by intro e; rfl) : Runs i op ok f := by
  intro s h v r admitted
  have same := hg _ admitted
  rw [he, run_runOp r rom (by rw [same, tail]), same]

/-- R182: what an instruction of a ROM opcode sees tells whether a second word belongs to it. -/
theorem seenBy_x {s : State} {h : Chan} {v : Service} {op : Nat} (r : Ready s h v op) (rom : op < 0xE0) :
    (seenBy s h v).x = romX op := by
  obtain ⟨_, _, _, _, word, _⟩ := r
  have x : (seenBy s h v).x = s.core.dev.hlm.extends (fld (insWord s v) 31 24) := rfl
  rw [x, word, Helm.extends, if_pos rom]

/-- R250: a one-word instruction goes on to the next word. -/
theorem go_oneWord {s : State} {h : Chan} {v : Service} {op : Nat} (r : Ready s h v op) (rom : op < 0xE0)
    (one : romX op = false) (c : Context) : (seenBy s h v).go c = goesOnTo s v 1 c := by
  have next : (seenBy s h v).next = v.ctx.pc.toNat + 1 := by
    rw [Env.next, seenBy_x r rom, one]
    rfl
  rw [Env.go, next]
  rfl

theorem Env.legal_of {e : Env} {ok : Bool} (h : ok = true) (r : Staged) : e.legal ok r = r := if_pos h
theorem Env.need_of {e : Env} {ok : Bool} (h : ok = true) (code : Nat) (r : Staged) : e.need ok code r = r := if_pos h

/-! ## Conversions -/

/-- R190: the field checks of P2T and T2P. -/
theorem conv_legal {w : Word} (rest : fld w 15 6 = 0) (d : dOk w) (a : aOk w) :
    (fld w 15 6 == 0 && regOk (fD w) && regOk (fA w)) = true := by
  unfold dOk at d
  unfold aOk at a
  simp [rest, regOk, fD, fA, d, a]

/-- R76, R77, R190: P2T converts at the latest epoch of the axis; until its routine lands, the tracked conversion carries no
mark of being fresh. -/
theorem exec_p2t {s : State} {h : Chan} {v : Service} (r : Ready s h v 0x34) (rest : fld (insWord s v) 15 6 = 0)
    (hd : dOk (insWord s v)) (ha : aOk (insWord s v)) :
    let w := insWord s v
    let a : Axis := Fin.ofNat 64 (fld w 5 0)
    let x := s.core.dev.axs.at a
    let q := x.target false (pA w v.ctx).toInt
    let t := x.p2t false q
    exec (.p2t h) s = .next (afterRoutine s h v
      { goesOnTo s v 1 (intoT w (BitVec.ofNat 64 t)
          { v.ctx with z := x.est.st != AxState.steady, n := false, c := decide (t < v.view.at'), v := t == never }) with
        convs := [⟨a, false, q, t, x.est.epoch, false⟩] }) := by
  intro w a x q t
  have routine : insP2t (seenBy s h v) = { (seenBy s h v).go (intoT w (BitVec.ofNat 64 t)
      { v.ctx with z := x.est.st != AxState.steady, n := false, c := decide (t < v.view.at'), v := t == never }) with
      convs := [⟨a, false, q, t, x.est.epoch, false⟩] } := Env.legal_of (conv_legal rest hd ha) _
  rw [← go_oneWord r (by decide) rfl, ← routine]
  exact run_runOp r (by decide) (by rw [routine]; rfl)

/-- Two routines that leave the same state after them are the same. -/
theorem afterRoutine_inj {s : State} {h : Chan} {v : Service} {a b : Staged}
    (e : afterRoutine s h v a = afterRoutine s h v b) : a = b := by
  have staged : ∀ r, ((afterRoutine s h v r).core.dev.chn.at h).prog.svc.map (fun u => u.staged) = some (v.staged ++ [r]) := by
    intro r
    simp [afterRoutine, State.withDev]
  have := staged a
  rw [e, staged b] at this
  simpa using this.symm

/-- A service of home channel 0 that has just begun, at program word 0. -/
def firstService : Service := ⟨0, 0, 0, 0, viewOf 0 0 Device.reset, 0, Context.clear, [], false⟩

/-- The state after reset, with that service and P2T t[0], p[0] on axis 0 at program word 0. -/
def beforeP2t : State :=
  { State.reset with core :=
    { ram := { Ram.reset with prog := [(3, 0x34)] }
      dev := Device.reset.progUpd 0 (fun p => { p with svc := some firstService }) } }

theorem beforeP2t_word : insWord beforeP2t firstService = 0x3400_0000 := by decide

theorem beforeP2t_ready : Ready beforeP2t 0 firstService 0x34 := by
  refine ⟨?_, by decide, rfl, ?_, ?_, rfl, ?_⟩
  · simp [beforeP2t]
  · intro r h
    simp [firstService] at h
  · rw [beforeP2t_word]
    decide
  · intro h
    simp [twoWords] at h

/-- Refutes O13: the statement marks the conversion that P2T stages as fresh, where the model sets that mark only when the
routine lands. The counterexample is P2T t[0], p[0] on axis 0, in the first service after reset. -/
theorem not_conversions : ¬ Obligations.Conversions := by
  unfold Obligations.Conversions
  intro h
  have rest : fld (insWord beforeP2t firstService) 15 6 = 0 := by rw [beforeP2t_word]; decide
  have hd : dOk (insWord beforeP2t firstService) := by rw [beforeP2t_word]; unfold dOk; decide
  have ha : aOk (insWord beforeP2t firstService) := by rw [beforeP2t_word]; unfold aOk; decide
  have claimed := (h beforeP2t 0 firstService).1 beforeP2t_ready rest hd ha
  have actual := exec_p2t beforeP2t_ready rest hd ha
  rw [actual] at claimed
  injection claimed with same
  have fresh := congrArg (fun r => r.convs.map (fun k => k.fresh)) (afterRoutine_inj same)
  simp at fresh

end Machine

end Sys2Proof

namespace Sys2Proof

namespace Machine

/-! ## Actions -/

section Places
variable {e : Env} {c : Chan}

/-- R123, R125: the next action stays in the current segment while that has ordinals left. -/
theorem place_of_room (h : e.emits < 4) : e.place = ⟨e.seq, e.emits, false⟩ := if_neg (by omega)

theorem withPlace_of_room (h : e.emits < 4) (k : Place → Staged) : e.withPlace k = k ⟨e.seq, e.emits, false⟩ := by
  rw [Env.withPlace, place_of_room h]
  rfl

/-- R198: the checks before an ordinal is taken pass for a target that takes the action. -/
theorem actTarget_of_takes {a : ActSpec} (h : Takes e c a) (k : Chan → Staged) :
    e.actTarget (fMember e.word) a k = k c := by
  obtain ⟨member, mode, width⟩ := h
  rw [Env.actTarget, Env.target, fMember, member]
  simp only []
  rw [Env.need_of mode, Env.need_of (by simpa using width)]

/-- R89, R198: with room in its queue and no placeholder of its own, the action is staged. -/
theorem stageAct_of_room (h : HasRoom e c) (a : ActSpec) (t : Nat) (pos : Option PosStamp) (r : Staged) :
    e.stageAct c a ⟨e.seq, e.emits, false⟩ t pos r =
      { r with emit := true, newSeg := none, act := some (c, actionAt e a t pos) } := by
  obtain ⟨_, _, _, room⟩ := h
  rw [Env.stageAct, if_neg (by simp; omega)]
  rfl

/-- R198: an action with a time stamp is staged. -/
theorem emitAt_staged {a : ActSpec} (takes : Takes e c a) (room : HasRoom e c) (t : Nat) :
    e.emitAt (fMember e.word) a t = { e.go e.ctx with emit := true, act := some (c, actionAt e a t none) } := by
  have unsettled : e.isSettled ⟨e.seq, e.emits, false⟩ = false := room.2.1
  rw [Env.emitAt, actTarget_of_takes takes, withPlace_of_room room.1, unsettled, if_neg Bool.false_ne_true,
    stageAct_of_room room]
  rfl

/-- R137: a settled ordinal is only counted. -/
theorem emitAt_settled {a : ActSpec} (takes : Takes e c a) (ordinals : e.emits < 4)
    (settled : (settledOf e.prog e.seq).getLsbD e.emits = true) (t : Nat) :
    e.emitAt (fMember e.word) a t = { e.go e.ctx with emit := true } := by
  have settled : e.isSettled ⟨e.seq, e.emits, false⟩ = true := settled
  rw [Env.emitAt, actTarget_of_takes takes, withPlace_of_room ordinals, settled, if_pos rfl]
  rfl

/-- R76, R199: an action stamped by a position of a steady axis is staged at the time of its prediction. -/
theorem emitPos_staged {a : ActSpec} {ax : Axis} (takes : Takes e c a) (room : HasRoom e c)
    (steady : (e.d.axs.at ax).est.st = .steady) (p : Int) :
    e.emitPos (fMember e.word) a ax p =
      (let x := e.d.axs.at ax
       let q := x.target false p
       { e.go e.ctx with
         emit := true, act := some (c, actionAt e a (x.p2t false q) (some ⟨ax, q, x.est.epoch, false⟩)) }) := by
  have unsettled : e.isSettled ⟨e.seq, e.emits, false⟩ = false := room.2.1
  have known : ((e.d.axs.at ax).est.st != AxState.steady) = false := by rw [steady]; rfl
  have free : ∀ coast, mustHold (e.d.axs.at ax) coast = false := by intro coast; rw [mustHold, known]; rfl
  rw [Env.emitPos, actTarget_of_takes takes, withPlace_of_room room.1, unsettled, if_neg Bool.false_ne_true]
  simp only [free, known, Bool.false_eq_true, if_false]
  rw [stageAct_of_room room]
  rfl

/-- R197: what EMIT and EMITP read from their word. -/
theorem emitSpec_eq (e : Env) : e.emitSpec = specE e := by
  unfold Env.emitSpec specE
  generalize fld e.word 11 10 = k
  match k with
  | 0 => rfl
  | 1 => rfl
  | _ + 2 => rfl

theorem emitLegal_of (h : emitFields e) : emitLegal e.word = true := by
  obtain ⟨type, zero, a, level⟩ := h
  unfold aOk at a
  have type : fld e.word 11 10 ≠ 3 := by omega
  have level : fld e.word 11 10 ≠ 0 ∨ fB e.word = 0 := by
    by_cases k : fld e.word 11 10 = 0
    · exact .inr (level k)
    · exact .inl k
  simpa [emitLegal, type, zero, regOk, fA, a] using level

theorem tripLegal_of (h : tripFields e) : (!bitOf e.word 11 && regOk (fA e.word)) = true := by
  obtain ⟨zero, a⟩ := h
  unfold aOk at a
  rw [bitOf, zero]
  simp [regOk, fA, a]

end Places

/-- R197, R198: an instruction whose routine is an action with a time stamp. -/
theorem emitsAt_of {i : Chan → Instr} {op : Nat} {ok : Env → Prop} {a : Env → ActSpec} (g : Env → Staged)
    (he : ∀ h s, exec (i h) s = s.run (runOp op g h)) (rom : op < 0xE0)
    (hg : ∀ e, ok e → fld e.word 5 0 = 0 → g e = e.emitAt (fMember e.word) (a e) (e.ctx.t.at (aField4 e)).toNat) :
    EmitsAt i op ok a := by
  refine ⟨fun c => runs_of_rom g he rom ?staged, fun c => runs_of_rom g he rom ?settled⟩
  case staged =>
    rintro e ⟨fields, zero, takes, room⟩
    rw [hg e fields zero, emitAt_staged takes room]
  case settled =>
    rintro e ⟨fields, zero, takes, ordinals, settled⟩
    rw [hg e fields zero, emitAt_settled takes ordinals settled]

/-- R197, R199: an instruction whose routine is an action with a position stamp. -/
theorem emitsOn_of {i : Chan → Instr} {op : Nat} {ok : Env → Prop} {a : Env → ActSpec} (g : Env → Staged)
    (he : ∀ h s, exec (i h) s = s.run (runOp op g h)) (rom : op < 0xE0)
    (hg : ∀ e, ok e →
      g e = e.emitPos (fMember e.word) (a e) (Fin.ofNat 64 (fld e.word 5 0)) (e.ctx.p.at (aField4 e)).toInt) :
    EmitsOn i op ok a := by
  intro c
  refine runs_of_rom g he rom ?_
  rintro e ⟨fields, takes, room, steady⟩
  rw [hg e fields, emitPos_staged takes room steady]

/-- Settles O17: each routine passes its field checks and is then the one shared by all time stamps, or by all position
stamps, with what it reads from its word. -/
theorem actionInstructions : Obligations.ActionInstructions := by
  unfold Obligations.ActionInstructions
  refine ⟨emitsAt_of insEmit (fun _ _ => rfl) (by decide) ?emit, emitsOn_of insEmitp (fun _ _ => rfl) (by decide) ?emitp,
    emitsAt_of insArmtrip (fun _ _ => rfl) (by decide) ?armtrip,
    emitsOn_of insArmtripPosition (fun _ _ => rfl) (by decide) ?armtripPosition⟩
  case emit =>
    intro e fields zero
    rw [insEmit, Env.legal_of (by simp [emitLegal_of fields, zero]), emitSpec_eq]
    rfl
  case emitp =>
    intro e fields
    rw [insEmitp, Env.legal_of (emitLegal_of fields), emitSpec_eq]
    rfl
  case armtrip =>
    intro e fields zero
    rw [insArmtrip, Env.legal_of (by simp [tripLegal_of fields, zero])]
    rfl
  case armtripPosition =>
    intro e fields
    rw [insArmtripPosition, Env.legal_of (tripLegal_of fields)]
    rfl

end Machine

end Sys2Proof

namespace Sys2Proof

namespace Machine

/-! ## What leaves the axes as they are

Programs, channels and causes act beside the axes: revising a program, and all that a revision can lead to, changes neither an
axis nor the queue of fixes. -/

/-- The axes and the fixes that wait for them. -/
def Device.axes (d : Device) : Tab AxisSt 64 × DrUnit := (d.axs, d.dr)

theorem axs_of_axes {d d' : Device} (h : d'.axes = d.axes) : d'.axs = d.axs := congrArg Prod.fst h
theorem dr_of_axes {d d' : Device} (h : d'.axes = d.axes) : d'.dr = d.dr := congrArg Prod.snd h

theorem samePrograms.axes {d d' : Device} (h : samePrograms d d') : d'.axes = d.axes := by
  obtain ⟨_, _, h⟩ := h
  subst h
  exact Eq.refl _

@[simp] theorem chnUpd_axes (c : Chan) (f : Channel → Channel) (d : Device) : (d.chnUpd c f).axes = d.axes := rfl
@[simp] theorem progUpd_axes (c : Chan) (f : Prog → Prog) (d : Device) : (d.progUpd c f).axes = d.axes := rfl
@[simp] theorem cfgUpd_axes (c : Chan) (f : ChnCfg → ChnCfg) (d : Device) : (d.cfgUpd c f).axes = d.axes := rfl
@[simp] theorem statUpd_axes (c : Chan) (f : ChnStat → ChnStat) (d : Device) : (d.statUpd c f).axes = d.axes := rfl
@[simp] theorem pinUpd_axes (c : Chan) (f : PinCell → PinCell) (d : Device) : (d.pinUpd c f).axes = d.axes := rfl
@[simp] theorem raise_axes (step src kind cause arg now : Nat) (d : Device) :
    (raise step src kind cause arg now d).axes = d.axes := rfl
@[simp] theorem raiseAx_axes (a : Axis) (kind cause arg now : Nat) (d : Device) :
    (raiseAx a kind cause arg now d).axes = d.axes := rfl
@[simp] theorem raiseChn_axes (step : Nat) (c : Chan) (kind cause arg now : Nat) (d : Device) :
    (raiseChn step c kind cause arg now d).axes = d.axes := rfl

@[simp] theorem returnHeld_axes (l : List HeldEff) (d : Device) : (returnHeld l d).axes = d.axes :=
  (returnHeld_changes l d).axes
@[simp] theorem mapProv_axes (f : Chan → List ProvEntry → List ProvEntry) (d : Device) : (d.mapProv f).axes = d.axes :=
  (mapProv_changes f d).axes
@[simp] theorem abandon_axes (h : Chan) (d : Device) : (abandon h d).axes = d.axes := (abandon_changes h d).axes

@[simp] theorem request_axes (h : Chan) (deadline : Nat) (rev : Bool) (d : Device) :
    (request h deadline rev d).axes = d.axes := by
  unfold request
  split <;> rfl

@[simp] theorem safeOne_axes (c : Chan) (k : Code) (d : Device) : (safeOne c k d).axes = d.axes := by
  obtain ⟨_, _, _, h⟩ := safeOne_changes c k d
  rw [h]
  rfl

@[simp] theorem setHFault_axes (step b first now : Nat) (d : Device) : (setHFault step b first now d).axes = d.axes := by
  obtain ⟨_, _, h, _⟩ := setHFault_changes step b first now d
  rw [h]
  rfl

@[simp] theorem safeMembers_axes (l : List Chan) (d : Device) : (safeMembers l d).axes = d.axes :=
  foldl_same Device.axes _ (fun d c => safeOne_axes c .halted d) _ d

@[simp] theorem enterGroup_axes (step g : Nat) (l : List Chan) (now : Nat) (d : Device) :
    (enterGroup step g l now d).axes = d.axes := by
  rw [enterGroup, safeMembers_axes]
  exact foldl_same Device.axes _ (fun d c => by rw [raiseChn_axes, safeOne_axes]) l d

@[simp] theorem enterSafe_axes (step : Nat) (c : Chan) (k : Code) (now : Nat) (d : Device) :
    (enterSafe step c k now d).axes = d.axes := by
  unfold enterSafe
  split
  · dsimp only
    split <;> simp
  · rfl

@[simp] theorem latePolicyHalt_axes (step : Nat) (c : Chan) (arg now : Nat) (d : Device) :
    (latePolicyHalt step c arg now d).axes = d.axes := by
  simp [latePolicyHalt]

@[simp] theorem countRevision_axes (step : Nat) (h : Chan) (now : Nat) (d : Device) :
    (countRevision step h now d).axes = d.axes := by
  unfold countRevision
  dsimp only
  split
  · split
    · simp
    · split <;> simp
  · simp

@[simp] theorem revise_axes (step : Nat) (h : Chan) (k : Nat) (old : Device) (now : Nat) (d : Device) :
    (revise step h k old now d).axes = d.axes := by
  unfold revise
  dsimp only
  split
  · rfl
  · simp

@[simp] theorem reviseAll_axes (step : Nat) (fails forced : Chan → List Nat) (old : Device) (now : Nat) (d : Device) :
    (reviseAll step fails forced old now d).axes = d.axes := by
  refine foldl_same Device.axes _ (fun d h => ?_) _ d
  split <;> simp

@[simp] theorem discardAxis_axes (a : Axis) (now : Nat) (d : Device) : (discardAxis a now d).axes = d.axes := by
  simp [discardAxis]

@[simp] theorem reApply_axes (c : Chan) (d : Device) : (reApply c d).axes = d.axes := by
  unfold reApply
  split
  · split <;> simp
  · rfl

@[simp] theorem reApplies_axes (a : Axis) (d : Device) : (reApplies a d).axes = d.axes :=
  foldl_same Device.axes _ (fun d c => reApply_axes c d) _ d

/-- R132: a fix makes the dependents of its axis be computed again, and leaves the axes. -/
@[simp] theorem recomputeAxis_axes (a : Axis) (drop : Bool) (now : Nat) (d : Device) :
    (recomputeAxis a drop now d).axes = d.axes := by
  rw [recomputeAxis, reviseAll_axes]
  dsimp only
  rw [foldl_same Device.axes _ (fun d h => progUpd_axes h _ d), reApplies_axes, mapProv_axes]

@[simp] theorem capWrite_axes (c : Chan) (stamp : Nat) (val : Option Nat) (edge miss multi : Bool) (now : Nat) (d : Device) :
    (capWrite c stamp val edge miss multi now d).axes = d.axes := by
  unfold capWrite
  dsimp only
  split
  · split <;> rfl
  · rfl

@[simp] theorem capEdge_axes (c : Chan) (l : Bool) (t now : Nat) (d : Device) : (capEdge c l t now d).axes = d.axes := by
  rw [capEdge, capWrite_axes, pinUpd_axes]

/-! ## Enable, disable and clear -/

theorem exec_axisEnable (a : Axis) (s : State) :
    exec (.axisEnable a) s = s.runDev (fun now d => axisEn1 a now (takeFix now d)) := rfl
theorem exec_axisDisable (a : Axis) (s : State) :
    exec (.axisDisable a) s = s.runDev (fun now d => axisEn0 a now (takeFix now d)) := rfl
theorem exec_clr (a : Axis) (s : State) :
    exec (.clr a) s = s.runDev (fun now d => enterNofix a now (takeFix now d)) := rfl

/-- R60: with no fix that it could take, the unit takes none. -/
theorem takeFix_of_noFixDue {s : State} (h : noFixDue s) (now : Nat) : takeFix now s.core.dev = s.core.dev := by
  obtain taken | empty := h
  · simp [takeFix, taken]
  · simp [takeFix, empty]

/-- R70: what entering NOFIX makes of the axis itself; the programs that depended on it are revised beside it. -/
theorem enterNofix_axes (a : Axis) (now : Nat) (d : Device) :
    (enterNofix a now d).axes = (d.estUpd a (fun e => { e.clear with st := .nofix })).axes := by
  unfold enterNofix
  dsimp only
  split
  · rfl
  · exact discardAxis_axes a now _

theorem enterNofix_dr (a : Axis) (now : Nat) (d : Device) : (enterNofix a now d).dr = d.dr :=
  (dr_of_axes (enterNofix_axes a now d)).trans (Device.estUpd_dr a _ d)

theorem enterNofix_same (a : Axis) (now : Nat) (d : Device) : (enterNofix a now d).axs.at a =
    { d.axs.at a with est := { (d.axs.at a).est.clear with st := .nofix } } := by
  rw [axs_of_axes (enterNofix_axes a now d), Device.estUpd_axs, Tab.at_upd_same]

theorem enterNofix_ne {a b : Axis} (h : b ≠ a) (now : Nat) (d : Device) : (enterNofix a now d).axs.at b = d.axs.at b := by
  rw [axs_of_axes (enterNofix_axes a now d), Device.estUpd_axs, Tab.at_upd_ne _ _ h]

/-- R70: entering NOFIX leaves no estimate. -/
theorem noEstimate_enterNofix (a : Axis) (now : Nat) (d : Device) : noEstimate ((enterNofix a now d).axs.at a).est := by
  rw [enterNofix_same]
  exact ⟨rfl, rfl, rfl, rfl, rfl, rfl, rfl⟩

/-- R51, R52: EN may go to 1 on a linear axis, and on a modulo axis with a modulus. -/
theorem axEnOk_of {r : AxRegs} (h : r.cfg.getLsbD 0 = true → 0 < r.m) : axEnOk r = true := by
  cases modulo : r.modulo with
  | false => simp [axEnOk, modulo]
  | true =>
    have : r.m ≠ 0 := (h modulo).ne'
    simp [axEnOk, this]

theorem axEnOk_of_noModulus {r : AxRegs} (h : r.cfg.getLsbD 0 = true) (m : r.m = 0) : axEnOk r = false := by
  have modulo : r.modulo = true := h
  simp [axEnOk, modulo, m]

/-- R55, R69, R72: EN set on a disabled axis that it may be set on. -/
theorem axisEn1_of_ok {a : Axis} {d : Device} (off : (d.axs.at a).reg.en = false) (ok : axEnOk (d.axs.at a).reg = true)
    (now : Nat) : axisEn1 a now d = d.axUpd a (fun x => { x with
      reg := { x.reg with en := true }
      est := { x.est.clear with st := .nofix, epoch := 0, fixlate := false, origin := now }
      quad := { QuadDec.reset with
        count := zposCount (d.axs.at a).reg, count0 := zposCount (d.axs.at a).reg, a := inLevel d (d.axs.at a).reg.srcidx
        b := inLevel d ((d.axs.at a).reg.srcidx + 1), enAt := now } }) := by
  simp [axisEn1, off, ok]

/-- R52: EN refused. -/
theorem axisEn1_of_refused {a : Axis} {d : Device} (off : (d.axs.at a).reg.en = false)
    (bad : axEnOk (d.axs.at a).reg = false) (now : Nat) : axisEn1 a now d = axCfgign a d := by
  simp [axisEn1, off, bad]

/-- R70, R72: EN cleared on an enabled axis. -/
theorem axisEn0_of_on {a : Axis} {d : Device} (on : (d.axs.at a).reg.en = true) (now : Nat) : axisEn0 a now d =
    (let d := enterNofix a now (d.axUpd a (fun x => { x with reg := { x.reg with en := false } }))
     { d with dr := { d.dr with q := d.dr.q.filter (fun f => f.ax != a) } }) := by
  simp [axisEn0, on]

/-- Settles O26: no fix is due, so each command is its own definition on the blocks as they are; EN cleared and CLR enter
NOFIX, which changes no other axis and no register. -/
theorem axisControl : Obligations.AxisControl := by
  unfold Obligations.AxisControl
  intro s a idle x
  refine ⟨?enable, ?refused, ?disable, ?clear⟩
  case enable =>
    intro off ok
    apply brings_of_runDev _ (exec_axisEnable a s)
    rw [takeFix_of_noFixDue idle, axisEn1_of_ok off (axEnOk_of ok)]
    dsimp only
    rw [Device.axUpd_axs, Tab.at_upd_same]
    exact ⟨rfl, ⟨rfl, rfl, rfl, rfl, rfl, rfl, rfl⟩, rfl, rfl, rfl, fun b other => Tab.at_upd_ne _ _ other, rfl, rfl⟩
  case refused =>
    intro off modulo m
    apply changes_of_runDev _ (exec_axisEnable a s)
    rw [takeFix_of_noFixDue idle, axisEn1_of_refused off (axEnOk_of_noModulus modulo m)]
    rfl
  case disable =>
    intro on
    apply brings_of_runDev _ (exec_axisDisable a s)
    rw [takeFix_of_noFixDue idle, axisEn0_of_on on]
    refine ⟨?_, noEstimate_enterNofix a _ _, ?_, ?_, fun b other => ?_⟩
    · dsimp only
      rw [enterNofix_same, Device.axUpd_axs, Tab.at_upd_same]
    · intro f waits
      simpa using (List.mem_filter.mp waits).2
    · intro f waits other
      refine List.mem_filter.mpr ⟨?_, by simpa using other⟩
      rw [enterNofix_dr]
      exact waits
    · dsimp only
      rw [enterNofix_ne other, Device.axUpd_axs, Tab.at_upd_ne _ _ other]
  case clear =>
    apply brings_of_runDev _ (exec_clr a s)
    rw [takeFix_of_noFixDue idle]
    refine ⟨?_, noEstimate_enterNofix a _ _, ?_, enterNofix_dr a _ _, fun b other => enterNofix_ne other _ _⟩
    · rw [enterNofix_same]
    · rw [enterNofix_same]
      rfl

end Machine

end Sys2Proof

namespace Sys2Proof

namespace Machine

/-! ## A fix is taken -/

theorem exec_fixTakesEffect (s : State) : exec .fixTakesEffect s = s.runDev takeFix := rfl
theorem exec_fixTimeout (a : Axis) (s : State) : exec (.fixTimeout a) s = s.runDev (fixTimeout a) := rfl

/-- R60: the unit takes the fix at the front of its queue once it has arrived. -/
theorem takeFix_of_due {d : Device} {f : FixReq} {q : List FixReq} {now : Nat} (dr : d.dr = ⟨f :: q, false⟩)
    (arrived : due f.arrive now = true) : takeFix now d = processFix f now { d with dr := ⟨q, true⟩ } := by
  simp [takeFix, dr, arrived]

/-- R52: a linear axis has the modulus 0. -/
theorem AxRegs.m_of_linear {r : AxRegs} (h : r.cfg.getLsbD 0 = false) : r.m = 0 := by
  have linear : r.modulo = false := h
  simp [AxRegs.m, linear]

/-- R61: the first fix of an acquisition passes every check. -/
theorem checkFix_first {ax : AxisSt} (first : ax.est.last = []) (z : Int) (t : Nat) : checkFix ax z t 0 = (0, none) := by
  simp [checkFix, first]

/-- R61: a fix that follows the last by less than 256 tk is out of order. -/
theorem checkFix_order {ax : AxisSt} {z' : Int} {t' : Nat} {l : List (Int × Nat)} (last : ax.est.last = (z', t') :: l)
    {t : Nat} (near : t < t' + 256) (z : Int) : checkFix ax z t 0 = (3, none) := by
  simp [checkFix, last, near]

/-- R62: a fix that is out of order is rejected. -/
theorem processFix_order {d : Device} {f : FixReq} {z : Int} {t : Nat} {l : List (Int × Nat)} (pre : f.pre = 0)
    (on : (d.axs.at f.ax).reg.en = true) (last : (d.axs.at f.ax).est.last = (z, t) :: l) (near : f.t < t + 256) (now : Nat) :
    processFix f now d = rejectFix f.ax 3 0 now d := by
  simp [processFix, on, pre, checkFix_order last near]

/-- R61: the first fix of an enabled linear axis is accepted as it is. -/
theorem processFix_first {d : Device} {f : FixReq} (pre : f.pre = 0) (on : (d.axs.at f.ax).reg.en = true)
    (linear : (d.axs.at f.ax).reg.m = 0) (first : (d.axs.at f.ax).est.last = []) (now : Nat) :
    processFix f now d = acceptFix f.ax f.z f.t none false now d := by
  simp [processFix, on, pre, checkFix_first first, reduceM, linear]

/-- R66: the first fix gives the position, and no velocity and acceleration. -/
theorem AxisSt.update_first (ax : AxisSt) (z : Int) (t : Nat) : ax.update 1 z t = (z * 65536, 0, 0, none, false) := rfl

/-- R53: a position of 48 bits lies in the range of a linear axis. -/
theorem overrange_of_48bits {z : Int} (lo : -140737488355328 ≤ z) (hi : z < 140737488355328) (m : Nat) :
    overrange m (z * 65536) = false := by
  have lo : ¬ z * 65536 < -9223372036854775808 := by omega
  have hi : ¬ 9223372036854775808 ≤ z * 65536 := by omega
  simp [overrange, lo, hi]

/-- R66, R69: the estimate after the first fix of a linear axis. -/
theorem acceptEst_first {ax : AxisSt} (linear : ax.reg.m = 0) (st : ax.est.st = .nofix) (last : ax.est.last = [])
    (z : Int) (t now : Nat) : acceptEst ax 1 z t none now = { ax.est with
      st := .acquiring, nfix := 1, fixlate := false, epoch := ax.est.epoch + 1, tf := t, x := z * 65536, turns := 0
      v := 0, a := 0, consec := 0, last := [(z, t)], t1 := t, vm := none, origin := now, zprev := z } := by
  simp [acceptEst, AxisSt.update_first, splitX, linear, nextAxState, st, last]

/-- R63, R66: the first fix gives the axis its first estimate; the programs that depend on the axis are revised beside
it. -/
theorem acceptFix_first {d : Device} {a : Axis} (st : (d.axs.at a).est.st = .nofix)
    {z : Int} (lo : -140737488355328 ≤ z) (hi : z < 140737488355328) (t : Nat) (vm : Option Vel) (now : Nat) :
    (acceptFix a z t vm false now d).axes = (d.estUpd a (fun _ => acceptEst (d.axs.at a) 1 z t vm now)).axes := by
  unfold acceptFix
  simp only [Bool.false_eq_true, if_false, st, if_true, AxisSt.update_first, overrange_of_48bits lo hi]
  exact recomputeAxis_axes a false now _

/-! ## Timeouts -/

theorem fixTimeout_of_idle {a : Axis} {d : Device} {now : Nat} (h : timeoutDue (d.axs.at a) now = false) :
    fixTimeout a now d = d := by
  simp [fixTimeout, h]

/-- R64: a timeout without TMO_DROP. -/
theorem fixTimeout_of_keep {a : Axis} {d : Device} {now : Nat} (h : timeoutDue (d.axs.at a) now = true)
    (keep : (d.axs.at a).reg.cfg.getLsbD 3 = false) :
    fixTimeout a now d = raiseAx a 0x04 0x21 0 now (d.estUpd a (fun e => { e with fixlate := true })) := by
  have keep : (d.axs.at a).reg.tmoDrop = false := keep
  simp [fixTimeout, h, keep]

/-- R64, R70: a timeout with TMO_DROP. -/
theorem fixTimeout_of_drop {a : Axis} {d : Device} {now : Nat} (h : timeoutDue (d.axs.at a) now = true)
    (drop : (d.axs.at a).reg.cfg.getLsbD 3 = true) (st : (d.axs.at a).est.st ≠ .nofix) :
    fixTimeout a now d =
      raiseAx a 0x04 0x21 1 now (enterNofix a now (d.estUpd a (fun e => { e with fixlate := true }))) := by
  have drop : (d.axs.at a).reg.tmoDrop = true := drop
  simp [fixTimeout, h, drop, st]

/-- Settles O28: what the unit does with the fix at the front of its queue follows from its check; the first fix of an
acquisition passes, and one too close to the last is out of order. -/
theorem fixTaken : Obligations.FixTaken := by
  unfold Obligations.FixTaken
  intro s d
  refine ⟨?none, ?first, ?order, ?late, ?dropped, ?early⟩
  case none =>
    intro idle
    exact idles_of_runDev _ (exec_fixTakesEffect s) (takeFix_of_noFixDue idle s.mt)
  case first =>
    intro f q dr arrived pre on linear st last lo hi
    have linear := AxRegs.m_of_linear linear
    apply brings_of_runDev _ (exec_fixTakesEffect s)
    have after : (takeFix s.mt d).axes = (d.axs.upd f.ax (fun x => { x with
        est := acceptEst (d.axs.at f.ax) 1 f.z f.t none s.mt }), ⟨q, true⟩) := by
      rw [takeFix_of_due dr arrived, processFix_first (d := { d with dr := ⟨q, true⟩ }) pre on linear last,
        acceptFix_first (d := { d with dr := ⟨q, true⟩ }) st lo hi]
      rfl
    have axs : (takeFix s.mt d).axs = _ := congrArg Prod.fst after
    have drAfter : (takeFix s.mt d).dr = _ := congrArg Prod.snd after
    dsimp only
    rw [axs, drAfter, Tab.at_upd_same, acceptEst_first linear st last]
    exact ⟨rfl, rfl, fun b other => Tab.at_upd_ne _ _ other, rfl⟩
  case order =>
    intro f q z t l dr arrived pre on last near
    apply changes_of_runDev _ (exec_fixTakesEffect s)
    rw [takeFix_of_due dr arrived, processFix_order (d := { d with dr := ⟨q, true⟩ }) pre on last near]
    simp only [rejectFix, raiseAx, satInc_eq_min]
    rfl
  case late =>
    intro a late keep
    exact changes_of_runDev _ (exec_fixTimeout a s) (fixTimeout_of_keep late keep)
  case dropped =>
    intro a late drop st
    apply brings_of_runDev _ (exec_fixTimeout a s)
    rw [fixTimeout_of_drop late drop st]
    refine ⟨noEstimate_enterNofix a _ _, ?_, ?_⟩
    · rw [raiseAx, raise_axs, enterNofix_same, Device.estUpd_axs, Tab.at_upd_same]
      rfl
    · rw [raiseAx, raise_axs, enterNofix_same, Device.estUpd_axs, Tab.at_upd_same]
  case early =>
    intro a early
    exact idles_of_runDev _ (exec_fixTimeout a s) (fixTimeout_of_idle early)

end Machine

end Sys2Proof

namespace Sys2Proof

namespace Machine

/-! ## Fixes delivered -/

/-- R60: a fix that an enabled axis delivers to a queue with room joins it. -/
theorem deliverFix_joins {a : Axis} {d : Device} (on : (d.axs.at a).reg.en = true) (room : d.dr.q.length < 64) (z : Int)
    (t arrive now : Nat) : deliverFix a z t arrive 0 now d =
      (let f : FixReq := ⟨a, z, t, arrive, if arrive + 4294967296 < t then 4 else 0, false⟩
       { d with dr := { d.dr with q := insertBefore (fun g => FixReq.before f g) f d.dr.q } }) := by
  have room : ¬ 64 ≤ d.dr.q.length := by omega
  simp [deliverFix, deliverFixAs, on, room]

/-- Two updates of an axis that agree on it as it is are the same. -/
theorem Device.axUpd_congr {a : Axis} {d : Device} {f g : AxisSt → AxisSt} (h : f (d.axs.at a) = g (d.axs.at a)) :
    d.axUpd a f = d.axUpd a g := by
  simp [Device.axUpd, Tab.upd, h]

/-- R60, R62: delivering a fix can change the estimate's record of rejections, the queue and the event controller. -/
theorem deliverFixAs_changes (edge : Bool) (a : Axis) (z : Int) (t arrive pre now : Nat) (d : Device) :
    ∃ f q e, deliverFixAs edge a z t arrive pre now d = { d.estUpd a f with dr := q, evc := e } := by
  have same : d.estUpd a id = d := by
    have : d.axs.upd a (fun x => { x with est := id x.est }) = d.axs := Tab.upd_same _ _ _ rfl
    rw [Device.estUpd, Device.axUpd, this]
  unfold deliverFixAs
  split
  · exact ⟨id, d.dr, d.evc, by rw [same]⟩
  · split
    · exact ⟨_, _, _, rfl⟩
    · exact ⟨id, _, d.evc, by rw [same]⟩

/-! ## VM_GO and standstill -/

theorem exec_vmGo (a : Axis) (tscale : Bool) (s : State) : exec (.vmGo a tscale) s = s.runDev (vmGo a tscale) := rfl
theorem exec_standstillFix (a : Axis) (s : State) : exec (.standstillFix a) s = s.runDev (standstill a) := rfl

/-- R59: VM_GO on an enabled axis of source VM, its time given in machine time. -/
theorem vmGo_machineTime {a : Axis} {d : Device} (on : (d.axs.at a).reg.en = true)
    (src : fld (d.axs.at a).reg.cfg 7 4 = 4) (now : Nat) : vmGo a true now d =
      (let r := (d.axs.at a).reg
       deliverFix a (signedOf 48 (r.vmPosLo.toNat + 4294967296 * fld r.vmPosHi 15 0)) (join64 r.vmTLo r.vmTHi) now 0 now d) := by
  simp [vmGo, on, AxRegs.src, src]

theorem vmGo_of_off {a : Axis} {d : Device} (off : (d.axs.at a).reg.en = false) (tscale : Bool) (now : Nat) :
    vmGo a tscale now d = d := by
  simp [vmGo, off]

/-- R56: only an enabled axis stands still. -/
theorem enabled_of_stillAt {x : AxisSt} {k : Nat} (h : stillAt x = some k) : x.reg.en = true := by
  cases on : x.reg.en with
  | true => rfl
  | false => simp [stillAt, on] at h

/-- R56: once the interval has expired, the fix of half a count joins the queue, here an empty one. -/
theorem standstill_of_due {a : Axis} {d : Device} {k now : Nat} (still : stillAt (d.axs.at a) = some k)
    (expired : due k now = true) (empty : d.dr.q = []) : standstill a now d =
      { d.axUpd a (fun x => { x with quad := { x.quad with lastFix := some k } }) with
        dr := { d.dr with q :=
          [⟨a, (d.axs.at a).quad.count + 32768, k, now, if now + 4294967296 < k then 4 else 0, false⟩] } } := by
  have enabled := enabled_of_stillAt still
  have on : ((d.axUpd a (fun x => { x with quad := { x.quad with lastFix := some k } })).axs.at a).reg.en = true := by
    rw [Device.axUpd_axs, Tab.at_upd_same]
    exact enabled
  simp only [standstill, still, expired, if_true]
  rw [deliverFix_joins on (by simp [empty])]
  simp only [Device.axUpd_dr, empty, insertBefore]

/-! ## A crossing at a ball -/

theorem exec_quadEdge (c : Chan) (l : Bool) (t : DWord) (s : State) :
    exec (.quadEdge c l t) s = s.runDev (quadBall c l t.toNat) := rfl
theorem exec_zReference (c : Chan) (t : DWord) (s : State) :
    exec (.zReference c t) s = s.runDev (zBall c t.toNat) := rfl

/-- What the pin cell notes of a crossing to `l` at ball time `t`, before its filter. -/
def PinCell.sees (l : Bool) (t : Nat) (p : PinCell) : PinCell :=
  { p with raw := l, seen := if p.drive = .undriven ∧ p.raw ≠ l then p.seen ++ [(t, l)] else p.seen }

/-- What the pin cell notes of a crossing to `l` that passes. -/
def PinCell.passes (l : Bool) (p : PinCell) : PinCell := { p with inp := l, cand := none }

/-- R57: the channel feeds the quadrature decoders. -/
def feedsQuad (d : Device) (c : Chan) : Prop := (d.chn.at c).cfg.en = true ∧ (d.chn.at c).cfg.mode = 13

theorem pinUpd_cfg (a c : Chan) (f : PinCell → PinCell) (d : Device) :
    ((d.pinUpd a f).chn.at c).cfg = (d.chn.at c).cfg := Device.chnUpd_keeps Channel.cfg a c d
theorem pinUpd_pin_same (c : Chan) (f : PinCell → PinCell) (d : Device) :
    ((d.pinUpd c f).chn.at c).pin = f (d.chn.at c).pin := by
  rw [Device.pinUpd_chn, Tab.at_upd_same]

theorem feedsQuad_pinUpd {d : Device} {c : Chan} (h : feedsQuad d c) (f : PinCell → PinCell) : feedsQuad (d.pinUpd c f) c := by
  unfold feedsQuad
  rw [pinUpd_cfg]
  exact h

section Crosses
variable {d : Device} {c : Chan} {l : Bool}

/-- R96: a crossing at the ball of a pin channel with no earlier one in its filter. -/
theorem ballEdge_of_quiet (pin : c.val < 256) (quiet : (d.chn.at c).pin.cand = none) (t now : Nat) :
    ballEdge c l t now d =
      (let d' := d.pinUpd c (PinCell.sees l t)
       if (d.chn.at c).pin.inp = l then d'.pinUpd c (fun p => { p with cand := none })
       else if (d.chn.at c).cfg.filt = 0 then passEdge c l t now d'
       else d'.pinUpd c (fun p => { p with cand := some t })) := by
  have seen : ∀ f : PinCell → PinCell, (d.pinUpd c f).chn.at c = { d.chn.at c with pin := f (d.chn.at c).pin } :=
    fun f => Tab.at_upd_same _ _ _
  simp only [ballEdge, isLink_eq_false pin, filterPass, quiet, seen]
  rfl

/-- R96: with the filter off the crossing passes at once. -/
theorem ballEdge_passes {t : DWord} (h : crossesAt d c l t 0) (now : Nat) :
    ballEdge c l t.toNat now d = passEdge c l t.toNat now (d.pinUpd c (PinCell.sees l t.toNat)) := by
  obtain ⟨pin, quiet, inp, filt⟩ := h
  have filt : (d.chn.at c).cfg.filt = 0 := filt
  simp [ballEdge_of_quiet pin quiet, inp, filt]

/-- R96: with the filter on the crossing waits. -/
theorem ballEdge_waits {t : DWord} (h : crossesAt d c l t 1) (now : Nat) :
    ballEdge c l t.toNat now d =
      (d.pinUpd c (PinCell.sees l t.toNat)).pinUpd c (fun p => { p with cand := some t.toNat }) := by
  obtain ⟨pin, quiet, inp, filt⟩ := h
  have filt : (d.chn.at c).cfg.filt ≠ 0 := filt
  simp [ballEdge_of_quiet pin quiet, inp, filt]

/-- R95, R96: the model's stamp of a crossing. -/
theorem inStamp_eq (d : Device) (c : Chan) (t : DWord) : inStamp (d.chn.at c).cfg t.toNat = stampAt d c t := rfl

/-- R55, R57, R96: a crossing that passes on a feeding channel reaches the decoders and, when it rises, their references. -/
theorem passEdge_feeds (h : feedsQuad d c) (t now : Nat) : passEdge c l t now d =
    (let t' := inStamp (d.chn.at c).cfg t
     let d' := quadEdge c l t' now (d.pinUpd c (PinCell.passes l))
     if l != (d.chn.at c).cfg.inv then zReference c t' now d' else d') := by
  obtain ⟨en, mode⟩ := h
  simp only [passEdge, en, mode]
  rfl

theorem quadBall_feeds (h : feedsQuad d c) (t now : Nat) : quadBall c l t now d = ballEdge c l t now d := by
  obtain ⟨en, mode⟩ := h
  simp [quadBall, en, mode]

theorem zBall_feeds {a : Axis} (h : feedsQuad d c) (asZ : quadAxes d c.val 2 = [a]) (t now : Nat) :
    zBall c t now d = ballEdge c (!(d.chn.at c).cfg.inv) t now d := by
  obtain ⟨en, mode⟩ := h
  simp [zBall, en, mode, asZ]

theorem quadBall_other (h : (d.chn.at c).cfg.en = false ∨ (d.chn.at c).cfg.mode ≠ 13) (t now : Nat) :
    quadBall c l t now d = d := by
  obtain off | other := h
  · simp [quadBall, off]
  · rw [quadBall, beq_false_of_ne other, Bool.and_false, if_neg Bool.false_ne_true]

/-! ## The decoders -/

/-- R55: which axes take a channel hangs on the registers of the axes alone. -/
theorem quadAxes_of_reg {d' : Device} (h : ∀ a, (d'.axs.at a).reg = (d.axs.at a).reg) : quadAxes d' = quadAxes d := by
  funext n role
  simp only [quadAxes, h]

@[simp] theorem quadAxes_pinUpd (a : Chan) (f : PinCell → PinCell) : quadAxes (d.pinUpd a f) = quadAxes d :=
  quadAxes_of_reg (fun _ => rfl)

/-- R55: an edge of a channel that no axis takes as its A or B. -/
theorem quadEdge_untaken (h : feedsQuad d c) (noA : quadAxes d c.val 0 = []) (noB : quadAxes d c.val 1 = []) (t now : Nat) :
    quadEdge c l t now d = d.pinUpd c (fun p => { p with inp := l }) := by
  obtain ⟨en, mode⟩ := h
  simp [quadEdge, en, mode, noA, noB]

/-- R57: an edge of a channel that no axis takes as its Z. -/
theorem zReference_untaken (noZ : quadAxes d c.val 2 = []) (t now : Nat) : zReference c t now d = d := by
  simp [zReference, noZ]

end Crosses

/-- R55: the count that a transition of A to `lvl`, stamped `t`, leads to, before it is brought into its field. -/
def QuadDec.moved (r : AxRegs) (lvl : Bool) (t : Nat) (q : QuadDec) : Int :=
  if (q.start (t / 32)).up true lvl != r.dir then (q.start (t / 32)).count + 65536 else (q.start (t / 32)).count - 65536

/-- R55, R56: the decoder after such a transition, where it is the first of its base period. -/
def QuadDec.counted (r : AxRegs) (lvl : Bool) (t : Nat) (q : QuadDec) : QuadDec :=
  { q.start (t / 32) with
    a := lvl, perA := true, perB := false, lastEdge := some t
    count := if r.m = 0 then fitS 48 (q.moved r lvl t) else reduceM r.m (q.moved r lvl t)
    lastFix := if fixSpaced r (q.start (t / 32)) t then some t else (q.start (t / 32)).lastFix }

section Starts
variable {q : QuadDec} {per : Nat}

@[simp] theorem QuadDec.start_a : (q.start per).a = q.a := by
  unfold QuadDec.start
  split <;> rfl
@[simp] theorem QuadDec.start_b : (q.start per).b = q.b := by
  unfold QuadDec.start
  split <;> rfl
@[simp] theorem QuadDec.start_count : (q.start per).count = q.count := by
  unfold QuadDec.start
  split <;> rfl

/-- R55: in a base period that begins no transition has been seen. -/
theorem QuadDec.start_perB (new : q.per ≠ some per) : (q.start per).perB = false := by
  rw [QuadDec.start, if_neg new]

end Starts

section Counts
variable {q : QuadDec} {r : AxRegs} {lvl : Bool} {t : Nat}

@[simp] theorem QuadDec.counted_a : (q.counted r lvl t).a = lvl := rfl
@[simp] theorem QuadDec.counted_lastEdge : (q.counted r lvl t).lastEdge = some t := rfl

@[simp] theorem QuadDec.counted_b : (q.counted r lvl t).b = q.b := QuadDec.start_b

/-- R52, R55: on a modulo axis the count goes up or down by one, reduced. -/
theorem QuadDec.counted_count (modulo : 0 < r.m) : (q.counted r lvl t).count =
    (q.count + (if (lvl != q.b) != r.cfg.getLsbD 2 then 65536 else -65536)) % r.m := by
  have dir : r.dir = r.cfg.getLsbD 2 := rfl
  simp only [QuadDec.counted, QuadDec.moved, QuadDec.up, QuadDec.start_b, QuadDec.start_count, dir, modulo.ne', reduceM,
    if_true, if_false]
  split <;> rfl

end Counts

section Transitions
variable {a : Axis} {lvl : Bool} {t : Nat} {d : Device} (new : (d.axs.at a).quad.per ≠ some (t / 32))
  (turns : (d.axs.at a).quad.a ≠ lvl)
include new turns

/-- R55, R56: the first transition of a base period counts, and a fix is made of it when the last lies far enough back. -/
theorem quadTransition_of_new (now : Nat) : quadTransition a true lvl t now d =
    (let r := (d.axs.at a).reg
     let q := (d.axs.at a).quad
     let d' := d.axUpd a (fun x => { x with quad := q.counted r lvl t })
     if fixSpaced r (q.start (t / 32)) t then
       deliverFixAs true a (max (q.start (t / 32)).count (q.moved r lvl t)) t (max (ceil32 t) now) 0 now d'
     else d') := by
  simp only [quadTransition, if_true, QuadDec.start_a, turns, if_false, Bool.or_true, Bool.not_true, Bool.or_false,
    QuadDec.start_perB new, Bool.and_false, Bool.false_eq_true]
  rfl

/-- R55, R60: what such a transition can change. -/
theorem quadTransition_changes (now : Nat) : ∃ (f : AxEst → AxEst) (q : DrUnit) (e : Evc),
    quadTransition a true lvl t now d = { d.axUpd a (fun x => { x with
      est := f x.est, quad := (d.axs.at a).quad.counted (d.axs.at a).reg lvl t }) with dr := q, evc := e } := by
  rw [quadTransition_of_new new turns]
  dsimp only
  split
  · obtain ⟨f, q, e, h⟩ := deliverFixAs_changes true a _ t (max (ceil32 t) now) 0 now
      (d.axUpd a (fun x => { x with quad := (d.axs.at a).quad.counted (d.axs.at a).reg lvl t }))
    refine ⟨f, q, e, ?_⟩
    rw [h, Device.estUpd, Device.axUpd, Device.axUpd, Tab.upd_upd]
    rfl
  · exact ⟨id, d.dr, d.evc, rfl⟩

end Transitions

/-- R55: a transition writes no register of an axis. -/
theorem quadTransition_reg {a : Axis} {lvl : Bool} {t : Nat} {d : Device} (new : (d.axs.at a).quad.per ≠ some (t / 32))
    (turns : (d.axs.at a).quad.a ≠ lvl) (now : Nat) (b : Axis) :
    ((quadTransition a true lvl t now d).axs.at b).reg = (d.axs.at b).reg := by
  obtain ⟨f, q, e, h⟩ := quadTransition_changes new turns now
  rw [h]
  by_cases same : b = a
  · subst same
    simp
  · simp [Tab.at_upd_ne _ _ same]

section Feeds
variable {d : Device} {c : Chan} {l : Bool} {a : Axis} {t : Nat} (h : feedsQuad d c)
include h

/-- R55: an edge of a channel that one axis takes, as its A. -/
theorem quadEdge_A (asA : quadAxes d c.val 0 = [a]) (noB : quadAxes d c.val 1 = [])
    (new : (d.axs.at a).quad.per ≠ some (t / 32)) (turns : (d.axs.at a).quad.a ≠ (l != (d.chn.at c).cfg.inv)) (now : Nat) :
    quadEdge c l t now d =
      quadTransition a true (l != (d.chn.at c).cfg.inv) t now (d.pinUpd c (fun p => { p with inp := l })) := by
  obtain ⟨en, mode⟩ := h
  have after : quadAxes (quadTransition a true (l != (d.chn.at c).cfg.inv) t now
      (d.pinUpd c (fun p => { p with inp := l }))) = quadAxes d :=
    quadAxes_of_reg (fun b => quadTransition_reg (d := d.pinUpd c (fun p => { p with inp := l })) new turns now b)
  simp [quadEdge, en, mode, asA, after, noB]

/-- R55, R96: a crossing of a channel that one axis takes, as its A, once it has passed the filter. -/
theorem passEdge_A (asA : quadAxes d c.val 0 = [a]) (noB : quadAxes d c.val 1 = []) (noZ : quadAxes d c.val 2 = [])
    (new : (d.axs.at a).quad.per ≠ some (inStamp (d.chn.at c).cfg t / 32))
    (turns : (d.axs.at a).quad.a ≠ (l != (d.chn.at c).cfg.inv)) (now : Nat) : passEdge c l t now d =
      quadTransition a true (l != (d.chn.at c).cfg.inv) (inStamp (d.chn.at c).cfg t) now
        ((d.pinUpd c (PinCell.passes l)).pinUpd c (fun p => { p with inp := l })) := by
  have inv : ((d.pinUpd c (PinCell.passes l)).chn.at c).cfg = (d.chn.at c).cfg := pinUpd_cfg c c _ d
  have edge := quadEdge_A (feedsQuad_pinUpd h (PinCell.passes l)) (by rw [quadAxes_pinUpd, asA])
    (by rw [quadAxes_pinUpd, noB]) (t := inStamp (d.chn.at c).cfg t) new (by rw [inv]; exact turns) now
  rw [inv] at edge
  rw [passEdge_feeds h]
  dsimp only
  rw [edge, zReference_untaken, ite_self]
  -- the transition writes no register, so still no axis takes the channel as its Z
  rw [quadAxes_of_reg (d := d) (fun b => ?_), noZ]
  exact quadTransition_reg (d := (d.pinUpd c (PinCell.passes l)).pinUpd c (fun p => { p with inp := l })) new turns now b

/-- R57: a rising edge of a channel that one axis takes, as its Z. -/
theorem zReference_Z (asZ : quadAxes d c.val 2 = [a]) (now : Nat) :
    zReference c t now d = capEdge c true t now (zEdge c d) := by
  obtain ⟨en, mode⟩ := h
  simp [zReference, en, mode, asZ]

end Feeds

/-- R57: the decoder at a reference that it takes. -/
def QuadDec.referenced (r : AxRegs) (q : QuadDec) : QuadDec :=
  { q with count := zposCount r, count0 := zposCount r, refDone := true }

section References
variable {d : Device} {c : Chan} {a : Axis}

/-- R57: under REF_ALL every reference is taken. -/
theorem zEdge_all (asZ : quadAxes d c.val 2 = [a]) (all : fld (d.axs.at a).reg.cfg 9 8 = 3) :
    zEdge c d = d.axUpd a (fun x => { x with quad := x.quad.referenced x.reg }) := by
  have all : (d.axs.at a).reg.zmode = 3 := all
  rw [zEdge, asZ]
  apply Device.axUpd_congr
  simp [all, QuadDec.referenced]

/-- R57, R96: a rising crossing of a channel that one axis takes, as its Z, once it has passed the filter. -/
theorem passEdge_Z (h : feedsQuad d c) (noA : quadAxes d c.val 0 = []) (noB : quadAxes d c.val 1 = [])
    (asZ : quadAxes d c.val 2 = [a]) (all : fld (d.axs.at a).reg.cfg 9 8 = 3) (t now : Nat) :
    (passEdge c (!(d.chn.at c).cfg.inv) t now d).axes =
      (d.axUpd a (fun x => { x with quad := x.quad.referenced x.reg })).axes := by
  have rises : ((!(d.chn.at c).cfg.inv) != (d.chn.at c).cfg.inv) = true := by cases (d.chn.at c).cfg.inv <;> rfl
  rw [passEdge_feeds h]
  dsimp only
  rw [quadEdge_untaken (feedsQuad_pinUpd h _) (by rw [quadAxes_pinUpd, noA]) (by rw [quadAxes_pinUpd, noB]), rises,
    if_pos rfl, zReference_Z (a := a) (feedsQuad_pinUpd (feedsQuad_pinUpd h _) _) (by simp [asZ]), capEdge_axes,
    zEdge_all (a := a) (by simp [asZ]) (by exact all)]
  rfl

/-- R57, R96: what a Z reference at the ball does to the axes. -/
theorem zBall_Z {t : DWord} (h : feedsQuad d c) (noA : quadAxes d c.val 0 = []) (noB : quadAxes d c.val 1 = [])
    (asZ : quadAxes d c.val 2 = [a]) (crosses : crossesAt d c (!(d.chn.at c).cfg.inv) t 0)
    (all : fld (d.axs.at a).reg.cfg 9 8 = 3) (now : Nat) :
    (zBall c t.toNat now d).axes = (d.axUpd a (fun x => { x with quad := x.quad.referenced x.reg })).axes := by
  have cfg : ((d.pinUpd c (PinCell.sees (!(d.chn.at c).cfg.inv) t.toNat)).chn.at c).cfg = (d.chn.at c).cfg :=
    pinUpd_cfg c c _ d
  have passed := passEdge_Z (feedsQuad_pinUpd h (PinCell.sees (!(d.chn.at c).cfg.inv) t.toNat))
    (by rw [quadAxes_pinUpd, noA]) (by rw [quadAxes_pinUpd, noB]) (by rw [quadAxes_pinUpd, asZ]) all t.toNat now
  rw [cfg] at passed
  rw [zBall_feeds h asZ, ballEdge_passes crosses, passed]
  rfl

end References

/-- R55, R96: what a counting crossing at the ball brings. -/
theorem quadEdge_counts {s : State} {a : Axis} {c : Chan} {l : Bool} {t : DWord} (h : feedsQuad s.core.dev c)
    (asA : quadAxes s.core.dev c.val 0 = [a]) (noB : quadAxes s.core.dev c.val 1 = [])
    (noZ : quadAxes s.core.dev c.val 2 = []) (crosses : crossesAt s.core.dev c l t 0)
    (new : (s.core.dev.axs.at a).quad.per ≠ some (stampAt s.core.dev c t / 32))
    (turns : (s.core.dev.axs.at a).quad.a ≠ (l != (s.core.dev.chn.at c).cfg.inv)) :
    Brings (.quadEdge c l t) s (fun d' =>
      (d'.axs.at a).quad = (s.core.dev.axs.at a).quad.counted (s.core.dev.axs.at a).reg
        (l != (s.core.dev.chn.at c).cfg.inv) (stampAt s.core.dev c t) ∧
      (d'.chn.at c).pin.inp = l ∧ ∀ b, b ≠ a → d'.axs.at b = s.core.dev.axs.at b) := by
  apply brings_of_runDev _ (exec_quadEdge c l t s)
  generalize s.core.dev = d at *
  have cfg : ((d.pinUpd c (PinCell.sees l t.toNat)).chn.at c).cfg = (d.chn.at c).cfg := pinUpd_cfg c c _ d
  have passed := passEdge_A (d := d.pinUpd c (PinCell.sees l t.toNat)) (l := l) (t := t.toNat) (a := a)
    (feedsQuad_pinUpd h _) (by rw [quadAxes_pinUpd, asA]) (by rw [quadAxes_pinUpd, noB]) (by rw [quadAxes_pinUpd, noZ])
    (by rw [cfg]; exact new) (by rw [cfg]; exact turns) s.mt
  rw [cfg, inStamp_eq] at passed
  obtain ⟨f, q, e, after⟩ := quadTransition_changes
    (d := ((d.pinUpd c (PinCell.sees l t.toNat)).pinUpd c (PinCell.passes l)).pinUpd c (fun p => { p with inp := l }))
    new turns s.mt
  rw [quadBall_feeds h, ballEdge_passes crosses, passed, after]
  refine ⟨?_, ?_, fun b other => Tab.at_upd_ne _ _ other⟩
  · rw [Device.axUpd_axs, Tab.at_upd_same]
    rfl
  · rw [Device.axUpd_chn, pinUpd_pin_same]

/-- Settles O27: each source's command is its own case; a crossing that passes its filter reaches the axes that take its
channel, here one, as its A or as its Z. -/
theorem fixSources : Obligations.FixSources := by
  unfold Obligations.FixSources
  intro s a d x
  refine ⟨?counts, ?waits, ?other, ?reference, ?still, ?go, ?noGo⟩
  case counts =>
    intro c l t en mode asA noB noZ crosses new modulo level
    have turns : x.quad.a ≠ (l != (d.chn.at c).cfg.inv) := by
      rw [level]
      cases l <;> cases (d.chn.at c).cfg.inv <;> decide
    obtain ⟨d', next, quad, inp, others⟩ := quadEdge_counts ⟨en, mode⟩ asA noB noZ crosses new turns
    refine ⟨d', next, ?_, ?_, ?_, ?_, inp, others⟩
    · rw [quad, QuadDec.counted_count modulo]
    · rw [quad, QuadDec.counted_a]
    · rw [quad, QuadDec.counted_b]
    · rw [quad, QuadDec.counted_lastEdge]
  case waits =>
    intro c l t en mode crosses
    apply brings_of_runDev _ (exec_quadEdge c l t s)
    rw [quadBall_feeds ⟨en, mode⟩, ballEdge_waits crosses, pinUpd_pin_same, pinUpd_pin_same]
    exact ⟨rfl, rfl, rfl, rfl, rfl⟩
  case other =>
    intro c l t h
    exact idles_of_runDev _ (exec_quadEdge c l t s) (quadBall_other h _ _)
  case reference =>
    intro c t en mode noA noB asZ crosses all
    apply brings_of_runDev _ (exec_zReference c t s)
    rw [axs_of_axes (zBall_Z ⟨en, mode⟩ noA noB asZ crosses all s.mt), Device.axUpd_axs, Tab.at_upd_same]
    exact ⟨rfl, rfl, fun b other => Tab.at_upd_ne _ _ other⟩
  case still =>
    intro k still expired empty
    apply changes_of_runDev _ (exec_standstillFix a s)
    rw [standstill_of_due still expired empty]
  case go =>
    intro on src room t
    refine ⟨_, exec_vmGo a true s, ?_⟩
    rw [joins, vmGo_machineTime on src, deliverFix_joins on room]
    rfl
  case noGo =>
    intro off
    exact idles_of_runDev _ (exec_vmGo a true s) (vmGo_of_off off true _)

end Machine

end Sys2Proof

namespace Sys2Proof

namespace Machine

/-! ## Updates of one channel that follow each other -/

/-- An update that leaves a channel as it is changes nothing. -/
theorem Device.chnUpd_same {c : Chan} {d : Device} {f : Channel → Channel} (h : f (d.chn.at c) = d.chn.at c) :
    d.chnUpd c f = d := by
  rw [Device.chnUpd, Tab.upd_same _ _ _ h]

/-- Two updates of one channel are one. -/
theorem Device.chnUpd_chnUpd (c : Chan) (f g : Channel → Channel) (d : Device) :
    (d.chnUpd c f).chnUpd c g = d.chnUpd c (fun h => g (f h)) := by
  simp only [Device.chnUpd, Tab.upd_upd]

theorem Device.chnUpd_at_same (c : Chan) (f : Channel → Channel) (d : Device) :
    (d.chnUpd c f).chn.at c = f (d.chn.at c) := Tab.at_upd_same _ _ _

/-- An update of a channel leaves every other channel. -/
theorem Device.chnUpd_others (c : Chan) (f : Channel → Channel) (d : Device) : otherChans c d (d.chnUpd c f) :=
  fun _ other => Tab.at_upd_ne _ _ other

/-! ## R82, R85: enable -/

theorem exec_channelEnable (c : Chan) (s : State) : exec (.channelEnable c) s = s.runDev (chanEnable c) := rfl
theorem exec_channelDisable (c : Chan) (s : State) :
    exec (.channelDisable c) s = s.runDev (fun _ => chanDisable c) := rfl

/-- R85, R147, R178: a pin channel of output mode 1 as it is enabled. -/
def Channel.opens (h : Channel) : Channel := { h with
  cfg := { h.cfg with en := true }
  stat := { h.stat with code := .ok, driven := true, run := 0, frozen := false, safe := false, safeDue := none }
  pin := { h.pin with drive := safeDrive h.cfg h.pin }
  prog := { h.prog with faultValid := false } }

section Enable
variable {c : Chan} {d : Device}

/-- R82: output mode 1 is valid, so outside a program group nothing refuses the enable of a READY device. -/
theorem enableRefused_output (ready : d.pwr.phase = .ready) (mode : (d.chn.at c).cfg.mode = 1)
    (alone : (d.chn.at c).cfg.member = false) : enableRefused c d = false := by
  have valid : modeValid c (d.chn.at c).cfg.mode = true := by
    rw [mode]
    rfl
  simp [enableRefused, ready, alone, valid]

/-- R82, R437: a mode that is not assigned, or a device before READY, refuses the enable. -/
theorem enableRefused_unassigned (h : (d.chn.at c).cfg.mode = 6 ∨ (d.chn.at c).cfg.mode = 7 ∨
    (d.chn.at c).cfg.mode = 15 ∨ d.pwr.phase ≠ .ready) : enableRefused c d = true := by
  obtain mode | mode | mode | early := h
  · simp [enableRefused, mode, modeValid]
  · simp [enableRefused, mode, modeValid]
  · simp [enableRefused, mode, modeValid]
  · simp [enableRefused, early]

/-- R85: mode 1 drives the ball, captures nothing and runs no train. -/
theorem enableChannel_output {h : Channel} (pin : c.val < 256) (mode : h.cfg.mode = 1) (lead now : Nat) :
    enableChannel c true lead now h = h.opens := by
  simp [enableChannel, Channel.opens, mode, isOutMode, isInMode, isTrainMode, isLink_eq_false pin]

theorem chanEnable_refused (off : (d.chn.at c).cfg.en = false) (refused : enableRefused c d = true) (now : Nat) :
    chanEnable c now d = d.statUpd c (fun s => { s with cfgign := true }) := by
  simp [chanEnable, off, refused]

theorem chanEnable_enabled (on : (d.chn.at c).cfg.en = true) (now : Nat) : chanEnable c now d = d := by
  simp [chanEnable, on]

/-- R82, R85, R152: the enable of a pin channel of output mode 1; that of a home channel starts its program. -/
theorem chanEnable_output (off : (d.chn.at c).cfg.en = false) (ready : d.pwr.phase = .ready) (pin : c.val < 256)
    (mode : (d.chn.at c).cfg.mode = 1) (alone : (d.chn.at c).cfg.member = false) (now : Nat) :
    chanEnable c now d =
      if (d.chn.at c).cfg.bound then programStart c now (d.chnUpd c Channel.opens) else d.chnUpd c Channel.opens := by
  have opens : d.chnUpd c (enableChannel c (linkUp c d) (d.lead c) now) = d.chnUpd c Channel.opens := by
    rw [linkUp_of_pin pin]
    exact Device.chnUpd_congr (enableChannel_output pin mode _ _)
  have bound : ((d.chnUpd c Channel.opens).chn.at c).cfg.bound = (d.chn.at c).cfg.bound := by
    rw [Device.chnUpd_at_same]
    rfl
  simp only [chanEnable, off, enableRefused_output ready mode alone, opens, bound, Bool.false_eq_true, if_false]

end Enable

/-! ## R152, R233: the start of a program -/

/-- R234: a request that merges into the queue leaves one for its channel there. -/
theorem exists_mem_mergeReq (r : Req) : ∀ l : List Req, ∃ q ∈ mergeReq r l, q.ch = r.ch
  | [] => ⟨r, List.mem_singleton_self r, rfl⟩
  | q :: l => by
    unfold mergeReq
    by_cases same : q.ch = r.ch
    · rw [if_pos same]
      exact ⟨_, List.mem_cons_self, same⟩
    · rw [if_neg same]
      obtain ⟨x, mem, ch⟩ := exists_mem_mergeReq r l
      exact ⟨x, List.mem_cons_of_mem _ mem, ch⟩

@[simp] theorem request_chn (h : Chan) (deadline : Nat) (rev : Bool) (d : Device) :
    (request h deadline rev d).chn = d.chn := by
  unfold request
  split <;> rfl

/-- R233: an enabled channel that requests service has a request in the queue. -/
theorem exists_mem_request {h : Chan} {d : Device} (on : (d.chn.at h).cfg.en = true) (deadline : Nat) (rev : Bool) :
    ∃ q ∈ (request h deadline rev d).hlm.q, q.ch = h := by
  rw [request, if_pos on]
  exact exists_mem_mergeReq ⟨h, deadline, rev⟩ d.hlm.q

/-- R152, R178: the program of a home channel as it starts at ENTRY. -/
def Prog.starts (g : ChnCfg) (p : Prog) : Prog := { p with
  ctx := { Context.clear with pc := BitVec.ofNat 15 (fld g.prog 14 0) }
  running := true, wait := .runnable, segs := [], settled := [], dsig := 0 }

theorem programStart_chn (c : Chan) (now : Nat) (d : Device) : (programStart c now d).chn =
    (d.chnUpd c (fun h => { h with prog := h.prog.starts h.cfg })).chn := by
  rw [programStart, request_chn]
  rfl

theorem exists_mem_programStart {c : Chan} {d : Device} (on : (d.chn.at c).cfg.en = true) (now : Nat) :
    ∃ r ∈ (programStart c now d).hlm.q, r.ch = c :=
  exists_mem_request (by rw [Device.progUpd_chn, Tab.at_upd_same]; exact on) _ _

/-! ## R85: disable -/

/-- R85: a channel as it is disabled: its queues are empty, its train has stopped and its ball is at the safe level. -/
theorem disableChannel_eq (h : Channel) : disableChannel h = { h with
    cfg := { h.cfg with
      en := false, pend := none, live := { h.cfg.live with train := setFld h.cfg.live.train 0 0 0 } }
    stat := { h.stat with safeDue := none }
    pin := { h.pin with drive := if h.stat.driven then safeDrive h.cfg h.pin else h.pin.drive }
    prov := [], comm := [], train := TrainGen.reset } := by
  cases driven : h.stat.driven with
  | true => simp [disableChannel, ballSafe, stopTrain, driven, safeDrive]
  | false => simp [disableChannel, ballSafe, stopTrain, driven]

theorem linkSafe_of_pin {c : Chan} (pin : c.val < 256) (d : Device) : linkSafe c d = d := by
  simp [linkSafe, isLink_eq_false pin]

theorem chanDisable_disabled {c : Chan} {d : Device} (off : (d.chn.at c).cfg.en = false) : chanDisable c d = d := by
  simp [chanDisable, off]

/-- R85: the disable of a pin channel that is no home channel. -/
theorem chanDisable_pin {c : Chan} {d : Device} (on : (d.chn.at c).cfg.en = true) (pin : c.val < 256)
    (unbound : (d.chn.at c).cfg.bound = false) : chanDisable c d = dropReq c (d.chnUpd c disableChannel) := by
  simp [chanDisable, on, unbound, linkSafe_of_pin pin]

/-- Settles O29: an enable is refused, or opens the channel and starts the program of a home channel; a disable is one update
of the channel, read off field by field. -/
theorem channelEnableDisable : Obligations.ChannelEnableDisable := by
  unfold Obligations.ChannelEnableDisable
  intro s c h
  refine ⟨?output, ?home, ?refused, ?enabled, ?disabled, ?disable⟩
  case output =>
    intro off ready pin mode alone unbound
    apply changes_of_runDev _ (exec_channelEnable c s)
    rw [chanEnable_output off ready pin mode alone, if_neg (Bool.eq_false_iff.mp unbound)]
    rfl
  case home =>
    intro off ready pin mode alone bound
    apply brings_of_runDev _ (exec_channelEnable c s)
    rw [chanEnable_output off ready pin mode alone, if_pos bound]
    have queued := exists_mem_programStart (c := c) (d := s.core.dev.chnUpd c Channel.opens)
      (by rw [Device.chnUpd_at_same]; rfl) s.mt
    have others : otherChans c s.core.dev (programStart c s.mt (s.core.dev.chnUpd c Channel.opens)) := by
      intro o other
      rw [programStart_chn, Device.chnUpd_chnUpd]
      exact Device.chnUpd_others c _ _ o other
    dsimp only
    refine ⟨?_, ?_, ?_, ?_, ?_, ?_, queued, others⟩
    all_goals rw [programStart_chn, Device.chnUpd_at_same, Device.chnUpd_at_same]; rfl
  case refused =>
    intro off cause
    exact changes_of_runDev _ (exec_channelEnable c s) (chanEnable_refused off (enableRefused_unassigned cause) s.mt)
  case enabled =>
    intro on
    exact idles_of_runDev _ (exec_channelEnable c s) (chanEnable_enabled on s.mt)
  case disabled =>
    intro off
    exact idles_of_runDev _ (exec_channelDisable c s) (chanDisable_disabled off)
  case disable =>
    intro on pin unbound
    apply brings_of_runDev _ (exec_channelDisable c s)
    have closed : (dropReq c (s.core.dev.chnUpd c disableChannel)).chn.at c = disableChannel h :=
      Device.chnUpd_at_same c _ _
    dsimp only
    rw [chanDisable_pin on pin unbound, closed, disableChannel_eq]
    exact ⟨rfl, rfl, rfl, rfl, getLsbD_setFld_bit _ 0 (by decide), rfl, rfl, rfl, rfl, Device.chnUpd_others c _ _, rfl⟩

end Machine

end Sys2Proof

namespace Sys2Proof

namespace Machine

/-! ## R114, R116: a host apply -/

theorem exec_applyGo (c : Chan) (m : BitVec 2) (a : Axis) (first : Bool) (s : State) :
    exec (.applyGo c m a first) s = s.runDev (hostApply c m a first) := rfl
theorem exec_applyCancel (c : Chan) (s : State) : exec (.applyCancel c) s = s.runDev (fun _ => cancelApply c) := rfl
theorem exec_applyLatch (c : Chan) (s : State) : exec (.applyLatch c) s = s.runDev (applyLatch c) := rfl

theorem join64_lt (lo hi : Word) : join64 lo hi < 18446744073709551616 := by
  have := lo.isLt
  have := hi.isLt
  rw [join64]
  omega

section Applies
variable {c : Chan} {d : Device} {now : Nat}

theorem cancelApply_of_none (idle : (d.chn.at c).cfg.pend = none) : cancelApply c d = d := by
  apply Device.chnUpd_same
  simp [← idle]

/-- R117: an apply with no position takes no time from an axis. -/
theorem convertApply_of_noPosition (h : ∀ p, (d.chn.at c).cfg.pend = some p → p.pos = none) : convertApply c now d = d := by
  cases pend : (d.chn.at c).cfg.pend with
  | none => simp [convertApply, pend]
  | some p => simp [convertApply, pend, h p pend]

/-- R114, R118: GO is refused while the channel waits for a group apply, and, without CANCEL, while an apply of its own is
pending. -/
theorem hostApply_refused {first : Bool}
    (busy : (d.chn.at c).cfg.gpend = true ∨ ((d.chn.at c).cfg.pend ≠ none ∧ first = false)) (m : BitVec 2) (a : Axis) :
    hostApply c m a first now d = d.statUpd c (fun s => { s with stgref := true }) := by
  obtain group | ⟨pending, rfl⟩ := busy
  · simp [hostApply, group]
  · simp [hostApply, Option.isSome_iff_ne_none.mpr pending]

/-- R116: the apply that GO records, in the modes NEXT and TIME. -/
def ChnCfg.applies (m : BitVec 2) (a : Axis) (now : Nat) (g : ChnCfg) : ChnCfg := { g with
  atmode := m, axis := BitVec.ofNat 6 a.val
  pend := some { atmode := m.toNat, pos := none, t := join64 g.atLo g.atHi, b := now } }

/-- R116: on a channel with nothing pending GO records an apply. -/
theorem startApply_records {m : BitVec 2} (mode : m = 0 ∨ m = 1) (alone : (d.chn.at c).cfg.gpend = false)
    (idle : (d.chn.at c).cfg.pend = none) (a : Axis) {v : Nat} (hv : v < 18446744073709551616) :
    startApply c m a v now d = d.cfgUpd c (fun g => { g with
      pend := some { atmode := m.toNat, pos := none, t := v, b := now } }) := by
  have notPos : m ≠ 2 := by rintro rfl; simp at mode
  have assigned : (m == 3) = false := by obtain rfl | rfl := mode <;> rfl
  have time : v % two64 = v := Nat.mod_eq_of_lt hv
  simp only [startApply, idle, alone, assigned, notPos, time, Option.isSome_none, Bool.or_false, Bool.false_eq_true, if_false]
  apply convertApply_of_noPosition
  intro p pend
  rw [Device.cfgUpd_chn, Tab.at_upd_same] at pend
  rw [← Option.some.inj pend]

theorem hostApply_records {m : BitVec 2} (mode : m = 0 ∨ m = 1) (alone : (d.chn.at c).cfg.gpend = false)
    (idle : (d.chn.at c).cfg.pend = none) (a : Axis) (first : Bool) :
    hostApply c m a first now d = d.cfgUpd c (ChnCfg.applies m a now) := by
  have cancelled : (if first then cancelApply c d else d) = d := by
    rw [cancelApply_of_none idle, ite_self]
  have assigned : (m == 3) = false := by obtain rfl | rfl := mode <;> rfl
  have fields : ((d.cfgUpd c (fun g => { g with atmode := m, axis := BitVec.ofNat 6 a.val })).chn.at c).cfg =
      { (d.chn.at c).cfg with atmode := m, axis := BitVec.ofNat 6 a.val } := by
    rw [Device.cfgUpd_chn, Tab.at_upd_same]
  simp only [hostApply, alone, cancelled, idle, assigned, Option.isSome_none, Bool.or_false, Bool.false_eq_true, if_false]
  rw [startApply_records mode (by rw [fields]; exact alone) (by rw [fields]; exact idle) a (join64_lt _ _)]
  exact (Device.chnUpd_chnUpd c _ _ d).trans (Device.chnUpd_congr rfl)

/-! ## R115, R116: the latch -/

/-- R115: of the checks only that of the lead concerns the lead's range. -/
theorem firstFailing_lead {s : StSet} (low : fld s.lead 10 0 < 16) (refSet : Chan → StSet) : firstFailing c s refSet d = 1 := by
  have low : s.leadVal < 16 := low
  simp [firstFailing, low]

/-- R115: a set that passes the checks that do not concern trains passes them all on a pin channel of mode 1. -/
theorem firstFailing_plain (plain : plainSet c (d.chn.at c)) (refSet : Chan → StSet) :
    firstFailing c (d.chn.at c).cfg.shadow refSet d = 0 := by
  obtain ⟨pin, mode, low, high, late, edge⟩ := plain
  have lead : ¬ ((d.chn.at c).cfg.shadow.leadVal < 16 ∨ 1024 < (d.chn.at c).cfg.shadow.leadVal) := by
    rw [StSet.leadVal]
    omega
  have late : (d.chn.at c).cfg.shadow.late ≠ 3 := late
  have edge : (d.chn.at c).cfg.shadow.edge ≠ 3 := edge
  simp [firstFailing, lead, late, edge, mode, isLink_eq_false pin]

/-- R114: the channel with its shadow set live. -/
def Channel.goesLive (h : Channel) : Channel := { h with cfg := { h.cfg with live := h.cfg.shadow } }

/-- R114: in mode 1 the latch starts and stops no train. -/
theorem latchSet_output {h : Channel} (mode : h.cfg.mode = 1) (s0 : Nat) : latchSet s0 h = h.goesLive := by
  simp [latchSet, Channel.goesLive, mode, isTrainMode]

/-- R116: in mode 1 an apply of mode NEXT is ready from the boundary that it was given. -/
theorem applyReady_next {p : PendApply} (mode : (d.chn.at c).cfg.mode = 1) (next : p.atmode = 0) (reached : p.b ≤ now) :
    applyReady c p now d = some 0 := by
  simp [applyReady, mode, isTrainMode, next, reached]

theorem applyLatch_of_none (idle : (d.chn.at c).cfg.pend = none) : applyLatch c now d = d := by
  have same : convertApply c now d = d := convertApply_of_noPosition (by simp [idle])
  simp [applyLatch, same, idle]

/-- R115, R116: an apply of mode NEXT that is ready ends, and its set goes live or is refused by its check. -/
theorem applyLatch_next {p : PendApply} (pend : (d.chn.at c).cfg.pend = some p) (next : p.atmode = 0) (noPos : p.pos = none)
    (reached : p.b ≤ now) (mode : (d.chn.at c).cfg.mode = 1) : applyLatch c now d =
      (let d' := cancelApply c d
       let n := firstFailing c (d'.chn.at c).cfg.shadow (fun r => (d'.chn.at r).cfg.live) d'
       if n = 0 then d'.chnUpd c (latchSet 0) else applyFails c n now d') := by
  have same : convertApply c now d = d := convertApply_of_noPosition (by rw [pend]; rintro _ ⟨⟩; exact noPos)
  simp only [applyLatch, same, pend, applyReady_next mode next reached]

theorem cancelApply_cfg (c : Chan) (d : Device) :
    ((cancelApply c d).chn.at c).cfg = { (d.chn.at c).cfg with pend := none } := by
  rw [cancelApply, Device.cfgUpd_chn, Tab.at_upd_same]

end Applies

/-- Settles O30: GO, CANCEL and the latch are the model's cases; at the latch in mode NEXT the set's check tells whether it
goes live. -/
theorem channelApply : Obligations.ChannelApply := by
  unfold Obligations.ChannelApply
  intro s c a first h
  refine ⟨?go, ?refused, rfl, ?latch, ?fails, ?idle⟩
  case go =>
    intro m mode alone idle
    exact changes_of_runDev _ (exec_applyGo c m a first s) (hostApply_records mode alone idle a first)
  case refused =>
    intro m busy
    exact changes_of_runDev _ (exec_applyGo c m a first s) (hostApply_refused busy m a)
  case latch =>
    intro p pend next noPos reached plain
    obtain ⟨pin, mode, checks⟩ := plain
    apply changes_of_runDev _ (exec_applyLatch c s)
    have admitted := firstFailing_plain (d := cancelApply c s.core.dev) (c := c)
      (by rw [plainSet, cancelApply_cfg]; exact ⟨pin, mode, checks⟩)
    rw [applyLatch_next pend next noPos reached mode]
    dsimp only
    rw [admitted, if_pos rfl, Device.chnUpd_congr (g := Channel.goesLive) (latchSet_output (by rw [cancelApply_cfg]; exact mode) 0)]
    exact Device.chnUpd_chnUpd c _ _ _
  case fails =>
    intro p pend next noPos reached mode low
    apply changes_of_runDev _ (exec_applyLatch c s)
    rw [applyLatch_next pend next noPos reached mode]
    dsimp only
    rw [firstFailing_lead (by rw [cancelApply_cfg]; exact low), if_neg (by decide)]
    rfl
  case idle =>
    intro idle
    exact idles_of_runDev _ (exec_applyLatch c s) (applyLatch_of_none idle)

end Machine

end Sys2Proof

namespace Sys2Proof

namespace Machine

/-! ## An update of several channels -/

theorem map_val_finsUpTo {n : Nat} : ∀ (k : Nat) (h : k ≤ n) (acc : List (Fin n)),
    (finsUpTo k h acc).map Fin.val = List.range k ++ acc.map Fin.val
  | 0, _, _ => rfl
  | k + 1, h, acc => by
    rw [finsUpTo, map_val_finsUpTo k, List.map_cons, List.range_succ, List.append_assoc, List.singleton_append]

/-- `fins n` lists no number twice. -/
theorem fins_nodup (n : Nat) : (fins n).Nodup := by
  apply List.Nodup.of_map Fin.val
  rw [fins, map_val_finsUpTo, List.map_nil, List.append_nil]
  exact List.nodup_range

/-- Each channel of a list is updated by its own function. -/
def Device.chnsUpd (l : List Chan) (f : Chan → Channel → Channel) (d : Device) : Device :=
  l.foldl (fun d c => d.chnUpd c (f c)) d

@[simp] theorem Device.chnsUpd_sys (l : List Chan) (f : Chan → Channel → Channel) (d : Device) :
    (d.chnsUpd l f).sys = d.sys := foldl_same Device.sys (fun d c => d.chnUpd c (f c)) (fun _ _ => rfl) l d

theorem Device.chnsUpd_chn_at (f : Chan → Channel → Channel) : ∀ {l : List Chan}, l.Nodup → ∀ (d : Device) (c : Chan),
    (d.chnsUpd l f).chn.at c = if c ∈ l then f c (d.chn.at c) else d.chn.at c
  | [], _, _, _ => rfl
  | a :: l, distinct, d, c => by
    obtain ⟨fresh, distinct⟩ := List.nodup_cons.mp distinct
    rw [show d.chnsUpd (a :: l) f = (d.chnUpd a (f a)).chnsUpd l f from rfl, chnsUpd_chn_at f distinct]
    by_cases same : c = a
    · subst same
      rw [if_neg fresh, Device.chnUpd_at_same, if_pos List.mem_cons_self]
    · rw [Device.chnUpd_others a _ d c same]
      simp only [List.mem_cons, same, false_or]

/-! ## R118: group applies -/

theorem exec_gapplyGo (t f : Bool) (s : State) : exec (.gapplyGo t f) s = s.runDev (gapplyGo t f) := rfl
theorem exec_gapplyCancel (s : State) : exec .gapplyCancel s = s.runDev (fun _ => gapplyCancel) := rfl
theorem exec_gapplyLatch (s : State) : exec .gapplyLatch s = s.runDev gapplyLatch := rfl

theorem mem_maskChans (m : Tab Word 16) (c : Chan) : c ∈ maskChans m ↔ inMask m c = true := by
  rw [maskChans, List.mem_filter]
  exact and_iff_right (mem_fins c)

theorem maskChans_nodup (m : Tab Word 16) : (maskChans m).Nodup := (fins_nodup 512).filter _

/-- An update of the channels of a mask. -/
theorem Device.chnsUpd_mask_at (m : Tab Word 16) (f : Chan → Channel → Channel) (d : Device) (c : Chan) :
    (d.chnsUpd (maskChans m) f).chn.at c = if inMask m c then f c (d.chn.at c) else d.chn.at c := by
  simp only [Device.chnsUpd_chn_at f (maskChans_nodup m), mem_maskChans]

/-- R118: GPEND of a channel written. -/
def Channel.putGpend (b : Bool) (h : Channel) : Channel := { h with cfg := { h.cfg with gpend := b } }

theorem putGpend_true_mask (m : Tab Word 16) (d : Device) (c : Chan) :
    (d.chnsUpd (maskChans m) (fun _ => Channel.putGpend true)).chn.at c =
      (d.chn.at c).putGpend ((d.chn.at c).cfg.gpend || inMask m c) := by
  rw [Device.chnsUpd_mask_at]
  cases inMask m c with
  | true => rw [if_pos rfl, Bool.or_true]
  | false => rw [if_neg Bool.false_ne_true, Bool.or_false]; rfl

theorem putGpend_false_mask (m : Tab Word 16) (d : Device) (c : Chan) :
    (d.chnsUpd (maskChans m) (fun _ => Channel.putGpend false)).chn.at c =
      (d.chn.at c).putGpend ((d.chn.at c).cfg.gpend && !inMask m c) := by
  rw [Device.chnsUpd_mask_at]
  cases inMask m c with
  | true => rw [if_pos rfl, Bool.not_true, Bool.and_false]
  | false => rw [if_neg Bool.false_ne_true, Bool.not_false, Bool.and_true]; rfl

/-- R118: the pending group apply written. -/
def Device.putGroup (g : Option GroupApply) (d : Device) : Device := { d with sys := { d.sys with gp := g } }

/-- R118: SYS_GAPPLY.ATMODE written. -/
def Device.putGatmode (t : Bool) (d : Device) : Device := { d with sys := { d.sys with gatmode := t } }

@[simp] theorem Device.putGroup_chn (g : Option GroupApply) (d : Device) : (d.putGroup g).chn = d.chn := rfl
@[simp] theorem Device.putGatmode_chn (t : Bool) (d : Device) : (d.putGatmode t).chn = d.chn := rfl

section Groups
variable {d : Device} {g : GroupApply}

theorem gapplyCancel_of_none (idle : d.sys.gp = none) : gapplyCancel d = d := by
  simp [gapplyCancel, idle]

/-- R118: CANCEL takes the mark off every member. -/
theorem gapplyCancel_of_some (gp : d.sys.gp = some g) :
    gapplyCancel d = (d.chnsUpd (maskChans g.mask) (fun _ => Channel.putGpend false)).putGroup none := by
  simp only [gapplyCancel, gp]
  generalize maskChans g.mask = l
  rfl

theorem gapplyCancel_sys (gp : d.sys.gp = some g) : (gapplyCancel d).sys = { d.sys with gp := none } := by
  rw [gapplyCancel_of_some gp, Device.putGroup, Device.chnsUpd_sys]

theorem gapplyCancel_chn (gp : d.sys.gp = some g) (c : Chan) : (gapplyCancel d).chn.at c =
    (d.chn.at c).putGpend ((d.chn.at c).cfg.gpend && !inMask g.mask c) := by
  rw [gapplyCancel_of_some gp, Device.putGroup_chn, putGpend_false_mask]

/-- R118: the group apply that GO records. -/
def Device.groupApply (atTime : Bool) (now : Nat) (d : Device) : GroupApply :=
  { mask := d.sys.gmask, atTime := atTime, t := join64 d.sys.gatLo d.sys.gatHi, goAt := now
    busy := (maskChans d.sys.gmask).find? (fun c => (d.chn.at c).cfg.pend.isSome) }

/-- R118: GO with no group apply pending marks every member. -/
theorem gapplyGo_of_none (idle : d.sys.gp = none) (t f : Bool) (now : Nat) : gapplyGo t f now d =
    ((d.putGatmode t).chnsUpd (maskChans d.sys.gmask) (fun _ => Channel.putGpend true)).putGroup
      (some (d.groupApply t now)) := by
  have cancelled : gapplyCancel { d with sys := { d.sys with gatmode := t } } =
      { d with sys := { d.sys with gatmode := t } } := gapplyCancel_of_none idle
  simp only [gapplyGo, cancelled, ite_self]
  split
  next g gp => exact absurd (idle.symm.trans gp) (by simp)
  next =>
    rw [Device.groupApply]
    generalize maskChans d.sys.gmask = l
    rfl

theorem gapplyGo_refused (pending : d.sys.gp ≠ none) (t : Bool) (now : Nat) :
    gapplyGo t false now d = { d with sys := { d.sys with gatmode := t, gref := true } } := by
  obtain ⟨g, gp⟩ := Option.ne_none_iff_exists'.mp pending
  simp [gapplyGo, gp]

theorem gapplyLatch_of_none (idle : d.sys.gp = none) (now : Nat) : gapplyLatch now d = d := by
  simp [gapplyLatch, idle]

/-- R118: a group apply at its boundary. -/
theorem groupDue_of {now : Nat} (later : g.goAt ≠ now) (reached : due g.goAt now = true)
    (time : g.atTime = true → g.t ≤ now) : groupDue g now = true := by
  cases atTime : g.atTime with
  | true => simp [groupDue, later, reached, time atTime]
  | false => simp [groupDue, later, reached, atTime]

/-- R115, R118: where every member's set is admissible, no member fails its check. -/
theorem failing_of_plain {m : Tab Word 16} (plain : ∀ c, inMask m c = true → plainSet c (d.chn.at c))
    (refSet : Chan → StSet) :
    ((maskChans m).map (fun c => (c, firstFailing c (d.chn.at c).cfg.shadow refSet d))).filter (fun x => x.2 ≠ 0) = [] := by
  rw [List.filter_eq_nil_iff]
  intro x mem
  obtain ⟨c, member, rfl⟩ := List.mem_map.mp mem
  have passes := firstFailing_plain (plain c ((mem_maskChans m c).mp member)) refSet
  simp [passes]

/-- R116, R118: the latch of one member at boundary `now`. -/
def latchMember (now : Nat) (c : Chan) (h : Channel) : Channel :=
  latchSet (now + 32 * effLead c h.cfg.shadow.leadVal) h

section Latches
variable {now : Nat} (gp : d.sys.gp = some g) (reached : groupDue g now = true)
  (plain : ∀ c, inMask g.mask c = true → plainSet c (d.chn.at c))
include gp reached plain

/-- R118: with every set admissible and no member busy, all members latch. -/
theorem gapplyLatch_all (free : g.busy = none) :
    gapplyLatch now d = (gapplyCancel d).chnsUpd (maskChans g.mask) (latchMember now) := by
  simp only [gapplyLatch, gp, reached, if_true, failing_of_plain plain, free, List.map_nil, List.append_nil, leastBy]
  generalize maskChans g.mask = l
  rfl

/-- R118: a member that was busy refuses the group apply, and no channel latches. -/
theorem gapplyLatch_busy {b : Chan} (busy : g.busy = some b) : gapplyLatch now d =
    { gapplyCancel d with sys := { (gapplyCancel d).sys with gerr := true, gerrch := b.val } } := by
  simp only [gapplyLatch, gp, reached, if_true, failing_of_plain plain, busy, List.map_nil, List.nil_append, leastBy,
    List.foldl_nil]

end Latches

end Groups

/-- Settles O31: GO and CANCEL write GPEND of the members alone; at its boundary the group apply ends, and every member
latches or, where one was busy, none. -/
theorem groupApplies : Obligations.GroupApplies := by
  unfold Obligations.GroupApplies
  intro s d
  refine ⟨?go, ?refused, ?cancel, ?latch, ?busy, ?idle⟩
  case go =>
    intro t f idle
    apply brings_of_runDev _ (exec_gapplyGo t f s)
    rw [gapplyGo_of_none idle]
    refine ⟨⟨d.groupApply t s.mt, rfl, rfl, rfl, rfl, rfl⟩, fun c => ?_⟩
    rw [Device.putGroup_chn, putGpend_true_mask]
    rfl
  case refused =>
    intro t pending
    exact changes_of_runDev _ (exec_gapplyGo t false s) (gapplyGo_refused pending t s.mt)
  case cancel =>
    intro g gp
    exact brings_of_runDev _ (exec_gapplyCancel s) ⟨gapplyCancel_sys gp, gapplyCancel_chn gp⟩
  case latch =>
    intro g gp later reached time free plain
    apply brings_of_runDev _ (exec_gapplyLatch s)
    rw [gapplyLatch_all gp (groupDue_of later reached time) plain free, Device.chnsUpd_sys, gapplyCancel_sys gp]
    refine ⟨rfl, rfl, fun c member => ?_, fun c other => ?_⟩
    · obtain ⟨-, mode, -⟩ := plain c member
      rw [Device.chnsUpd_mask_at, if_pos member, gapplyCancel_chn gp, latchMember, latchSet_output (by exact mode)]
      rfl
    · rw [Device.chnsUpd_mask_at, if_neg (Bool.eq_false_iff.mp other), gapplyCancel_chn gp, other, Bool.not_false,
        Bool.and_true]
      rfl
  case busy =>
    intro g b gp later reached time busy plain
    apply brings_of_runDev _ (exec_gapplyLatch s)
    rw [gapplyLatch_busy gp (groupDue_of later reached time) plain busy, gapplyCancel_sys gp]
    refine ⟨rfl, rfl, rfl, fun c => ?_⟩
    dsimp only
    rw [gapplyCancel_chn gp]
    rfl
  case idle =>
    intro idle
    exact ⟨idles_of_runDev _ (exec_gapplyCancel s) (gapplyCancel_of_none idle),
      idles_of_runDev _ (exec_gapplyLatch s) (gapplyLatch_of_none idle s.mt)⟩

end Machine

end Sys2Proof

namespace Sys2Proof

namespace Machine

/-! ## R97, R98: a period of a train commits -/

theorem exec_trainPeriodCommit (c : Chan) (s : State) :
    exec (.trainPeriodCommit c) s = s.runDev (fun now d => phaseStops c (trainStep c now d)) := rfl
theorem exec_trainPeriodStart (c : Chan) (s : State) : exec (.trainPeriodStart c) s = s.runDev (periodStart c) := rfl

/-- R98: a width that leaves 64 tk to either edge of its period stands as it is. -/
theorem trainWidth_of_fits {w per : Nat} (wide : 64 ≤ w) (short : w + 64 ≤ per) : trainWidth w per = w := by
  have inside : ¬ (w = 0 ∨ per ≤ w) := by omega
  have low : ¬ w < 64 := by omega
  have high : ¬ per < w + 64 := by omega
  simp only [trainWidth, inside, low, high, if_false]

/-- R97, R314: the period that starts at `t` is noted in the train. -/
def TrainGen.noteStart (t per : Nat) (x : TrainGen) : TrainGen := { x with starts := x.starts ++ [t], ends := t + per }

/-- R97: the train goes on to the period after the one that starts at `t`. -/
def TrainGen.advance (t per : Nat) (x : TrainGen) : TrainGen := { x with k := x.k + 1, next := (t + per) % two64 }

section Commits
variable {c : Chan} {d : Device}

/-- R97, R98, R101: the pulse of a period, of a width that fits, joins the committed queue. -/
theorem commitPeriod_of_fits (pin : c.val < 256) (room : (d.chn.at c).comm.length < 4) {w per : Nat} (wide : 64 ≤ w)
    (short : w + 64 ≤ per) (t now : Nat) :
    commitPeriod c t per w (d.chn.at c).cfg.live.lvl (d.chn.at c).cfg.live.armLk now d =
      d.chnUpd c (fun h => { h with
        comm := h.comm ++ [trainEntry c h t w now], train := h.train.noteStart t per }) := by
  have nonzero : ¬ w = 0 := by omega
  have part : ¬ per ≤ w := by omega
  have room : ¬ 4 ≤ (d.chn.at c).comm.length := by omega
  simp only [commitPeriod, trainWidth_of_fits wide short, linkUp_of_pin pin, Device.chnUpd_at_same, ne_eq, not_true,
    if_false, nonzero, Bool.not_true, Bool.false_eq_true, room, or_self, part, decide_false]
  exact (Device.chnUpd_chnUpd c _ _ d).trans (Device.chnUpd_congr rfl)

/-- R100: which channels run on the train of `r` hangs on the configuration and RUN of the channels alone. -/
theorem phasesOf_congr {d' : Device} (h : ∀ c, (d'.chn.at c).cfg = (d.chn.at c).cfg ∧
    (d'.chn.at c).train.run = (d.chn.at c).train.run) (r : Chan) : d'.phasesOf r = d.phasesOf r := by
  simp only [Device.phasesOf, h]

theorem phaseStops_of_other (other : (d.chn.at c).cfg.isPhase = false) : phaseStops c d = d := by
  simp [phaseStops, other]

theorem phaseCommit_of_empty (empty : (d.chn.at c).train.fixed = []) (now : Nat) : phaseCommit c now d = d := by
  simp [phaseCommit, empty]

theorem trainCommit_of_early {now : Nat} (h : (d.chn.at c).train.run = false ∨
    (now : Int) < commitAt (d.chn.at c).train.next (d.lead c)) : trainCommit c now d = d := by
  have early : periodDue c now d = false := by
    obtain stopped | early := h
    · simp [periodDue, stopped]
    · simp [periodDue, not_le.mpr early]
  simp [trainCommit, early]

/-- R100: a train that no phase channel runs on fixes no period of another. -/
theorem fixPhases_of_none {r : Chan} (alone : d.phasesOf r = []) (t per : Nat) : fixPhases r t per d = d := by
  simp [fixPhases, alone]

theorem isPhase_of_continuous (mode : (d.chn.at c).cfg.mode = 2) : (d.chn.at c).cfg.isPhase = false := by
  rw [ChnCfg.isPhase, mode]
  rfl

/-- R97, R98: a channel as its train commits the pulse of its next period at boundary `now`. -/
def Channel.commitsPeriod (c : Chan) (now : Nat) (h : Channel) : Channel := { h with
  comm := h.comm ++ [trainEntry c h h.train.next h.cfg.live.wid.toNat now]
  train := (h.train.noteStart h.train.next h.cfg.live.per.toNat).advance h.train.next h.cfg.live.per.toNat }

/-- R97: a running train whose commit instant has come commits its next period. -/
theorem trainCommit_of_due {now : Nat} (pin : c.val < 256) (mode : (d.chn.at c).cfg.mode = 2)
    (on : (d.chn.at c).cfg.en = true) (run : (d.chn.at c).train.run = true)
    (come : commitAt (d.chn.at c).train.next (d.lead c) ≤ (now : Int)) (room : (d.chn.at c).comm.length < 4)
    (phases : d.phasesOf c = []) (wide : 64 ≤ (d.chn.at c).cfg.live.wid.toNat)
    (short : (d.chn.at c).cfg.live.wid.toNat + 64 ≤ (d.chn.at c).cfg.live.per.toNat) :
    trainCommit c now d = d.chnUpd c (Channel.commitsPeriod c now) := by
  have ready : periodDue c now d = true := by simp [periodDue, run, on, isPhase_of_continuous mode, come]
  have squareOff : ¬ (d.chn.at c).cfg.mode = 4 := by rw [mode]; decide
  have burstOff : ¬ (d.chn.at c).cfg.mode = 3 := by rw [mode]; decide
  simp only [trainCommit, ready, if_true, squareOff, burstOff, if_false, false_and,
    commitPeriod_of_fits pin room wide short]
  rw [fixPhases_of_none]
  · exact Device.chnUpd_chnUpd c _ _ d
  · rw [phasesOf_congr (d := d), phases]
    exact fun o => ⟨Device.chnUpd_keeps Channel.cfg c o d, Device.chnUpd_keeps (fun h => h.train.run) c o d⟩

end Commits

/-! ## R314, R317: a period start -/

/-- A view that turn `i` alone changes, a run over all numbers changes as turn `i` does. -/
theorem forAll_view {σ β : Type} {n : Nat} (view : Fin n → σ → β) (f : Fin n → σ → σ) (own : Fin n → β → β)
    (turn : ∀ i s, view i (f i s) = own i (view i s)) (others : ∀ i j s, j ≠ i → view i (f j s) = view i s)
    (i : Fin n) (s : σ) : view i (forAll f s) = own i (view i s) := by
  have go : ∀ (k : Nat) (h : k ≤ n),
      view i (forUpTo f k h s) = if i.val < k then own i (view i s) else view i s := by
    intro k
    induction k with
    | zero => intro _; rfl
    | succ k ih =>
      intro h
      rw [forUpTo]
      by_cases here : i.val = k
      · obtain rfl : i = ⟨k, h⟩ := Fin.ext here
        rw [turn, ih, if_neg (lt_irrefl _), if_pos (Nat.lt_succ_self _)]
      · have same : (i.val < k + 1) = (i.val < k) := propext (by omega)
        rw [others i ⟨k, h⟩ _ (fun e => here (congrArg Fin.val e).symm), ih]
        simp only [same]
  exact (go n _).trans (if_pos i.isLt)

/-- R317: a period start of channel `c` at lookout `k`. -/
def Lookout.seesStart (c : Chan) (l : Lookout) : Lookout :=
  { l with clrPer := l.clrPer || (l.cfgE.getLsbD 6 && decide (fld l.cfgE 15 8 = c.val)) }

theorem seesStart_eq (c : Chan) (l : Lookout) :
    l.seesStart c = if lkClrper l.cfgE && lkCh l.cfgE == c then { l with clrPer := true } else l := by
  have chan : (lkCh l.cfgE == c) = decide (fld l.cfgE 15 8 = c.val) := by
    have small : fld l.cfgE 15 8 < 512 := lt_trans (fld_lt l.cfgE 15 8) (by decide)
    rw [Bool.eq_iff_iff, beq_iff_eq, decide_eq_true_iff, Fin.ext_iff, lkCh, Fin.val_ofNat, Nat.mod_eq_of_lt small]
  rw [chan, Lookout.seesStart, lkClrper, bitOf]
  split
  next sees => rw [sees, Bool.or_true]
  next misses => rw [Bool.eq_false_iff.mpr misses, Bool.or_false]

/-- R314: the train as its next period starts. -/
def TrainGen.begins (t : Nat) (l : List Nat) (x : TrainGen) : TrainGen :=
  { x with cur := some t, prev := x.cur, starts := l }

section PeriodStarts
variable {c : Chan} {d : Device} {t : Nat} {l : List Nat} {now : Nat}

theorem periodStart_of_empty (empty : (d.chn.at c).train.starts = []) : periodStart c now d = d := by
  simp [periodStart, periodStartDue, empty]

theorem periodStart_of_early (starts : (d.chn.at c).train.starts = t :: l) (early : now + 32 ≤ t) :
    periodStart c now d = d := by
  have early : ¬ t < now + 32 := by omega
  simp [periodStart, periodStartDue, starts, early]

/-- R317: the turn of lookout `k` at a period start of channel `c`. -/
def startAt (c : Chan) (k : LkNo) (d : Device) : Device :=
  if lkClrper (d.lko.at k).cfgE && lkCh (d.lko.at k).cfgE == c then d.lkoUpd k (fun l => { l with clrPer := true }) else d

theorem startAt_chn (c : Chan) (k : LkNo) (d : Device) : (startAt c k d).chn = d.chn := by
  unfold startAt
  split <;> rfl

theorem startAt_same (c : Chan) (k : LkNo) (d : Device) : (startAt c k d).lko.at k = (d.lko.at k).seesStart c := by
  rw [startAt, seesStart_eq]
  split
  · exact Tab.at_upd_same _ _ _
  · rfl

theorem startAt_ne (c : Chan) {k j : LkNo} (other : j ≠ k) (d : Device) : (startAt c j d).lko.at k = d.lko.at k := by
  unfold startAt
  split
  · exact Tab.at_upd_ne _ _ other.symm
  · rfl

/-- R314, R317: a period start that has come is the train's, and every lookout sees it. -/
theorem periodStart_of_due (starts : (d.chn.at c).train.starts = t :: l) (come : t < now + 32) :
    periodStart c now d =
      forAll (startAt c) (d.chnUpd c (fun h => { h with train := h.train.begins t l })) := by
  have ready : periodStartDue c now d = true := by simp [periodStartDue, starts, come]
  rw [periodStart, if_pos ready]
  refine congrArg (forAll (startAt c)) (Device.chnUpd_congr ?_)
  simp only [starts]
  rfl

end PeriodStarts

end Machine

open Machine in
/-- Settles O32: a period commits in one update of its channel when its instant has come; a period start is an update of the
train and one turn of each lookout. -/
theorem trains : Obligations.Trains := by
  unfold Obligations.Trains
  intro s c d h
  refine ⟨?commits, ?early, ?starts, ?waits, ?none⟩
  case commits =>
    intro pin mode on run fixed come room phases wide short
    apply changes_of_runDev _ (exec_trainPeriodCommit c s)
    rw [trainStep, trainCommit_of_due pin mode on run come room phases wide short, phaseCommit_of_empty, phaseStops_of_other]
    · rfl
    · rw [Device.chnUpd_at_same]
      exact isPhase_of_continuous mode
    · rw [Device.chnUpd_at_same]
      exact fixed
  case early =>
    intro mode fixed early
    apply idles_of_runDev _ (exec_trainPeriodCommit c s)
    rw [trainStep, trainCommit_of_early early, phaseCommit_of_empty fixed, phaseStops_of_other (isPhase_of_continuous mode)]
  case starts =>
    intro t l starts come
    apply brings_of_runDev _ (exec_trainPeriodStart c s)
    rw [periodStart_of_due starts come]
    have chn := forAll_same Device.chn (startAt c) (startAt_chn c)
      (d.chnUpd c (fun h => { h with train := h.train.begins t l }))
    refine ⟨?_, ?_, fun k => ?_⟩
    · rw [chn, Device.chnUpd_at_same]
      rfl
    · intro o other
      rw [chn]
      exact Device.chnUpd_others c _ d o other
    · exact forAll_view (fun k d => d.lko.at k) (startAt c) (fun _ => Lookout.seesStart c) (startAt_same c)
        (fun _ _ d other => startAt_ne c other d) k _
  case waits =>
    intro t l starts early
    exact idles_of_runDev _ (exec_trainPeriodStart c s) (periodStart_of_early starts early)
  case none =>
    intro empty
    exact idles_of_runDev _ (exec_trainPeriodStart c s) (periodStart_of_empty empty)

end Sys2Proof

namespace Sys2Proof

namespace Machine

/-! ## R96: crossings at a ball -/

theorem exec_inputEdge (c : Chan) (l : Bool) (t : DWord) (s : State) :
    exec (.inputEdge c l t) s = s.runDev (ballEdge c l t.toNat) := rfl
theorem exec_windowClose (c : Chan) (s : State) : exec (.windowClose c) s = s.runDev (windowClose c) := rfl
theorem exec_capAttrRead (c : Chan) (s : State) : exec (.capAttrRead c) s = s.runDev (fun _ => capAttrRead c) := rfl

theorem pinUpd_pinUpd (c : Chan) (f g : PinCell → PinCell) (d : Device) :
    (d.pinUpd c f).pinUpd c g = d.pinUpd c (fun p => g (f p)) := Device.chnUpd_chnUpd c _ _ d

/-- Two updates of a pin cell that agree on it as it is are the same. -/
theorem pinUpd_congr {c : Chan} {d : Device} {f g : PinCell → PinCell} (h : f (d.chn.at c).pin = g (d.chn.at c).pin) :
    d.pinUpd c f = d.pinUpd c g := Device.chnUpd_congr (by rw [h])

theorem pinUpd_same {c : Chan} {d : Device} {f : PinCell → PinCell} (h : f (d.chn.at c).pin = (d.chn.at c).pin) :
    d.pinUpd c f = d := Device.chnUpd_same (by rw [h])

section Balls
variable {c : Chan} {d : Device} {l : Bool} {t now : Nat}

/-- R96: the ball of a link channel is not the device's. -/
theorem ballEdge_link (link : 256 ≤ c.val) : ballEdge c l t now d = d := by
  simp [ballEdge, isLink, link]

/-- R96: a crossing back to the filtered level, before the one that waits has been stable for FILT base periods. -/
theorem ballEdge_undoes {a : Nat} (pin : c.val < 256) (inp : (d.chn.at c).pin.inp = l)
    (waits : (d.chn.at c).pin.cand = some a) (soon : t < a + 32 * (d.chn.at c).cfg.filt) :
    ballEdge c l t now d = d.pinUpd c (fun p => crossedPin p l t) := by
  have held : filterPass c t now d = d := by simp [filterPass, waits, not_le.mpr soon]
  have seen : ∀ f : PinCell → PinCell, (d.pinUpd c f).chn.at c = { d.chn.at c with pin := f (d.chn.at c).pin } :=
    fun f => Tab.at_upd_same _ _ _
  simp only [ballEdge, isLink_eq_false pin, held, seen, inp, Bool.false_eq_true, if_false, if_true]
  rw [pinUpd_pinUpd]
  apply pinUpd_congr
  rw [crossedPin, ← inp]

/-- R96: a crossing to the level that the ball shows already. -/
theorem ballEdge_same (inp : (d.chn.at c).pin.inp = l) (raw : (d.chn.at c).pin.raw = l)
    (quiet : (d.chn.at c).pin.cand = none) : ballEdge c l t now d = d := by
  by_cases pin : c.val < 256
  · rw [ballEdge_of_quiet pin quiet]
    simp only [inp, if_true]
    rw [pinUpd_pinUpd]
    apply pinUpd_same
    simp only [PinCell.sees, ← raw, ← quiet, ne_eq, not_true, and_false, if_false]
  · exact ballEdge_link (not_lt.mp pin)

/-- R96: a crossing that passes on a channel that does not feed the decoders reaches the capture logic. -/
theorem ballEdge_captures {t : DWord} (crosses : crossesAt d c l t 0) (mode : (d.chn.at c).cfg.mode ≠ 13) :
    ballEdge c l t.toNat now d = captureEdge c (l != (d.chn.at c).cfg.inv) (stampAt d c t) now
      (d.pinUpd c (fun p => crossedPin p l t.toNat)) := by
  have cfg : ((d.pinUpd c (PinCell.sees l t.toNat)).chn.at c).cfg = (d.chn.at c).cfg := pinUpd_cfg c c _ d
  have other : ((d.chn.at c).cfg.mode == 13) = false := beq_false_of_ne mode
  simp only [ballEdge_passes crosses, passEdge, cfg, other, Bool.and_false, Bool.false_eq_true, if_false, pinUpd_pinUpd]
  rfl

end Balls

/-! ## R103 to R105: the FIFO -/

/-- R103, R105: the pin cell with an entry of a measurement `v` written. -/
def PinCell.writes (stamp v : Nat) (edge miss multi : Bool) (p : PinCell) : PinCell := { p with
  lostDue := false
  cap := p.cap ++ [{ stamp := stamp, val := min 4294967295 v, edge := edge, lost := p.lostDue, miss := miss
                     multi := multi, sat := decide (4294967295 < v) }] }

/-- R103: a measurement saturates. -/
theorem capVal_some (v : Nat) : capVal (some v) = (min 4294967295 v, decide (4294967295 < v)) := by
  rw [capVal]
  split
  · rw [min_eq_right (by omega), decide_eq_false (by omega)]
  · rw [min_eq_left (by omega), decide_eq_true (by omega)]

/-- R103: a measurement of 32 bits is held as it is. -/
theorem PinCell.writes_of_narrow {v : Nat} (narrow : v < 4294967296) (stamp : Nat) (edge miss multi : Bool) (p : PinCell) :
    p.writes stamp v edge miss multi = { p with
      lostDue := false
      cap := p.cap ++ [{ stamp := stamp, val := v, edge := edge, lost := p.lostDue, miss := miss, multi := multi
                         sat := false }] } := by
  have held : min 4294967295 v = v := by omega
  have within : ¬ 4294967295 < v := by omega
  simp only [PinCell.writes, held, within, decide_false]

section Fifo
variable {c : Chan} {d : Device} {stamp now : Nat} {edge miss multi : Bool}

theorem capWrite_of_room (room : (d.chn.at c).pin.cap.length < 16) (v : Nat) :
    capWrite c stamp (some v) edge miss multi now d = d.pinUpd c (PinCell.writes stamp v edge miss multi) := by
  simp only [capWrite, not_le.mpr room, if_false, capVal_some]
  rfl

/-- R105: a full FIFO drops the entry. -/
theorem capWrite_of_full (full : 16 ≤ (d.chn.at c).pin.cap.length) (quiet : (d.chn.at c).cfg.even.getLsbD 1 = false)
    (v : Option Nat) : capWrite c stamp v edge miss multi now d = d.chnUpd c (fun h => { h with
      stat := { h.stat with covf := true }, pin := { h.pin with lostDue := true } }) := by
  have quiet : bitOf (d.chn.at c).cfg.even 1 = false := quiet
  simp [capWrite, full, quiet]

/-- R104: CAP_EDGE takes either edge under EDGE 2. -/
theorem captureEdge_both (on : (d.chn.at c).cfg.en = true) (mode : (d.chn.at c).cfg.mode = 8)
    (both : (d.chn.at c).cfg.live.edge = 2) (l : Bool) (t : Nat) : captureEdge c l t now d = capEdge c l t now d := by
  simp [captureEdge, on, mode, both, edgeSelected]

/-- R96, R104: a crossing that passes on CAP_EDGE writes an entry with the time since the edge before it. -/
theorem inputEdge_captures {l : Bool} {t : DWord} (crosses : crossesAt d c l t 0) (on : (d.chn.at c).cfg.en = true)
    (mode : (d.chn.at c).cfg.mode = 8) (both : fld (d.chn.at c).cfg.live.cfg 9 8 = 2) :
    ballEdge c l t.toNat now d =
      capWrite c (stampAt d c t) ((d.chn.at c).pin.prevSel.map (fun a => stampAt d c t - a))
        (l != (d.chn.at c).cfg.inv) false false now
        (d.pinUpd c (fun p => { crossedPin p l t.toNat with prevSel := some (stampAt d c t) })) := by
  have cfg : ((d.pinUpd c (fun p => crossedPin p l t.toNat)).chn.at c).cfg = (d.chn.at c).cfg := pinUpd_cfg c c _ d
  rw [ballEdge_captures crosses (by rw [mode]; decide), captureEdge_both (by rw [cfg, on]) (by rw [cfg, mode])
    (by rw [cfg]; exact both), capEdge, pinUpd_pin_same, pinUpd_pinUpd]
  rfl

end Fifo

/-! ## R107: windows -/

/-- R107: a window that is alone in the committed queue closes at its own end. -/
theorem dueWindow_single {e : CommEntry} (win : e.ty = .capwin) {now : Nat} (ended : (e.t + e.w + 31) / 32 * 32 ≤ now) :
    dueWindow [e] now = some (0, e, e.t + e.w) := by
  have tick : closeTick [e] 0 e = e.t + e.w := by simp [closeTick, laterWin]
  simp [dueWindow, tick, CommEntry.isWin, win, ceil32, ended, leastBy]

theorem windowClose_of_empty {c : Chan} {d : Device} (empty : (d.chn.at c).comm = []) (now : Nat) : windowClose c now d = d := by
  simp [windowClose, empty, dueWindow, leastBy]

/-- R107: a window alone in its queue that saw no edge leaves its MISS entry. -/
theorem windowClose_miss {c : Chan} {d : Device} {e : CommEntry} {now : Nat} (queue : (d.chn.at c).comm = [e])
    (win : e.ty = .capwin) (unseen : e.first = none) (ended : (e.t + e.w + 31) / 32 * 32 ≤ now)
    (narrow : e.w < 4294967296) (room : (d.chn.at c).pin.cap.length < 16) : windowClose c now d = d.chnUpd c (fun h => { h with
      comm := []
      pin := { h.pin with
        lostDue := false
        cap := h.pin.cap ++ [{ stamp := e.t + e.w, val := e.w, edge := false, lost := h.pin.lostDue, miss := true
                               multi := false, sat := false }] } }) := by
  have width : e.t + e.w - e.t = e.w := by omega
  simp only [windowClose, queue, dueWindow_single win ended, unseen, width]
  rw [capWrite_of_room (by rw [Device.chnUpd_at_same]; exact room)]
  refine (Device.chnUpd_chnUpd c _ _ d).trans (Device.chnUpd_congr ?_)
  rw [queue, PinCell.writes_of_narrow narrow]
  rfl

/-! ## R106: reads -/

/-- R106, R121: a read of CHN_CAP_ATTR answers the word that it latched. -/
theorem capAttrRead_of_read {c : Chan} {d : Device} {f : PinCell → PinCell}
    (read : capRead (d.chn.at c) = { d.chn.at c with pin := f (d.chn.at c).pin }) : capAttrRead c d =
      { d.pinUpd c f with hps := { d.hps with dout := (f (d.chn.at c).pin).attrL } } := by
  rw [capAttrRead, Device.chnUpd_at_same, read, Device.chnUpd_congr (g := fun h => { h with pin := f h.pin }) read]
  rfl

/-- R106: the pin cell after a host that owns the FIFO has read its head `x`, with `l` behind it. -/
def PinCell.consumes (x : CapEntry) (l : List CapEntry) (p : PinCell) : PinCell :=
  { p with attrL := x.attr l.length, stampL := x.stamp, valL := x.val, cap := l, capHeld := p.capHeld - 1 }

theorem capRead_owned {h : Channel} {x : CapEntry} {l : List CapEntry} (cap : h.pin.cap = x :: l)
    (own : h.cfg.live.cfg.getLsbD 10 = true) : capRead h = { h with pin := h.pin.consumes x l } := by
  have own : h.cfg.live.capown = true := own
  simp [capRead, cap, own, PinCell.consumes]

/-- R106: the pin cell after a read of the empty FIFO. -/
def PinCell.readsEmpty (p : PinCell) : PinCell := { p with attrL := 0, stampL := 0, valL := 0 }

theorem capRead_empty {h : Channel} (cap : h.pin.cap = []) : capRead h = { h with pin := h.pin.readsEmpty } := by
  simp [capRead, cap, PinCell.readsEmpty]

/-- Settles O34: a crossing waits in the filter, is undone there, or passes it and is captured; an entry is written or, in a
full FIFO, dropped. -/
theorem captures : Obligations.Captures := by
  unfold Obligations.Captures
  intro s c h
  refine ⟨?edge, ?full, ?waits, ?undone, ?none, ?window, ?noWindow, ?read, ?readEmpty⟩
  case edge =>
    intro l t a _ on mode both crosses prev room
    apply changes_of_runDev _ (exec_inputEdge c l t s)
    rw [inputEdge_captures crosses on mode both, prev]
    rw [Option.map_some, capWrite_of_room (by rw [pinUpd_pin_same]; exact room), pinUpd_pinUpd]
    rfl
  case full =>
    intro l t _ on mode both crosses full quiet
    apply changes_of_runDev _ (exec_inputEdge c l t s)
    rw [inputEdge_captures crosses on mode both, capWrite_of_full (by rw [pinUpd_pin_same]; exact full)
      (by rw [pinUpd_cfg]; exact quiet)]
    exact Device.chnUpd_chnUpd c _ _ _
  case waits =>
    intro l t crosses
    apply changes_of_runDev _ (exec_inputEdge c l t s)
    rw [ballEdge_waits crosses, pinUpd_pinUpd]
    rfl
  case undone =>
    intro l t a pin inp waits soon
    exact changes_of_runDev _ (exec_inputEdge c l t s) (ballEdge_undoes pin inp waits soon)
  case none =>
    intro l t idle
    apply idles_of_runDev _ (exec_inputEdge c l t s)
    obtain ⟨inp, raw, quiet⟩ | link := idle
    · exact ballEdge_same inp raw quiet
    · exact ballEdge_link link
  case window =>
    intro e queue win unseen ended narrow room
    apply changes_of_runDev _ (exec_windowClose c s)
    rw [windowClose_miss queue win unseen ended narrow room]
  case noWindow =>
    intro empty
    exact idles_of_runDev _ (exec_windowClose c s) (windowClose_of_empty empty s.mt)
  case read =>
    intro x l cap own
    exact changes_of_runDev _ (exec_capAttrRead c s) (capAttrRead_of_read (capRead_owned cap own))
  case readEmpty =>
    intro cap
    exact changes_of_runDev _ (exec_capAttrRead c s) (capAttrRead_of_read (capRead_empty cap))

end Machine

end Sys2Proof

namespace Sys2Proof

namespace Machine

/-! ## The step -/

/-- Settles O1, by the two branches of the step on the queue. -/
theorem stepRunsFrontCommand : Obligations.StepRunsFrontCommand := by
  unfold Obligations.StepRunsFrontCommand
  refine ⟨fun c rest s => rfl, fun s empty => ?_⟩
  rw [step, empty]

end Machine

end Sys2Proof

namespace Sys2Proof

namespace Machine

/-! ## Routines that read the banks, hold effects or fault -/

theorem Ready.svc {s : State} {h : Chan} {v : Service} {op : Nat} (r : Ready s h v op) :
    (s.core.dev.chn.at h).prog.svc = some v := r.1

/-- R160, R253: an instruction of a ROM opcode in front of the service that executes it: what its ROM routine gives is
staged. -/
theorem run_rom {s : State} {h : Chan} {v : Service} {op : Nat} {rom : Env → Run} (r : Ready s h v op) (low : op < 0xE0) :
    s.run (runInstr (fun o => o == op) rom h) = .next { s with core := stage h s.mt (rom (seenBy s h v)) s.core } := by
  have may := canRun_of_ready r
  have extended := seenBy_x r low
  obtain ⟨svc, _, _, _, word, patch, fits⟩ := r
  have mine : opOf (envOf h v s.mt s.core).word = op := word
  have plain : (seenBy s h v).execute rom = rom (seenBy s h v) := by
    refine Env.execute_rom (fun x => fits (twoWords_of_romX ?_)) (fun _ => ?_)
    · rw [← extended, x]
    · rw [show opOf (seenBy s h v).word = op from word]
      exact patch
  rw [State.run_next, runInstr_runs svc may (by rw [mine]; exact beq_self_eq_true op)]
  rw [show (envOf h v s.mt s.core).execute rom = rom (seenBy s h v) from plain]

/-- R250: a routine without a tail and without bank reads is staged. -/
theorem stage_afterRoutine {s : State} {h : Chan} {v : Service} (svc : (s.core.dev.chn.at h).prog.svc = some v) {r : Staged}
    (tail : r.tail = none) :
    { s with core := stage h s.mt ⟨r, [], none, 0⟩ s.core } = afterRoutine s h v r := by
  rw [stage_plain svc, Staged.last, tail]
  rfl

/-- R359: a read through port A is noted and leaves the channels. -/
theorem loadA_chn (a now : Nat) (d : Device) : (loadA a now d).chn = d.chn := by
  obtain ⟨m, e, h⟩ := notePort_changes true false (wordOf a) now d
  rw [loadA, h]

/-- R250, R362: a routine that read one bank word is staged, and its access noted. -/
theorem stage_afterRead {s : State} {h : Chan} {v : Service} (svc : (s.core.dev.chn.at h).prog.svc = some v) {r : Staged}
    (tail : r.tail = none) (a : Nat) :
    { s with core := stage h s.mt ⟨r, [a], none, 0⟩ s.core } =
      afterRoutine (s.withDev (loadA a s.mt s.core.dev)) h v r :=
  stage_afterRoutine (s := s.withDev (loadA a s.mt s.core.dev)) (by rw [State.withDev, loadA_chn]; exact svc) tail

/-- R175: an instruction whose ROM routine faults on what `bad` holds of. -/
theorem faultsOn_of {i : Chan → Instr} {op : Nat} {bad : Env → Prop} {code : Nat} (rom : Env → Run)
    (he : ∀ h s, exec (i h) s = s.run (runInstr (fun o => o == op) rom h)) (low : op < 0xE0)
    (hg : ∀ e, bad e → rom e = Env.rom (e.fault code)) : FaultsOn i op bad code := by
  intro s h v r fails
  rw [he, run_rom r low, hg _ fails]
  exact congrArg _ (stage_afterRoutine r.svc rfl)

theorem Env.need_false {e : Env} {ok : Bool} (h : ok = false) (code : Nat) (r : Staged) : e.need ok code r = e.fault code := by
  rw [Env.need, h]
  rfl

theorem regOk_of_dOk {w : Word} (h : dOk w) : regOk (fD w) = true := by
  unfold dOk at h
  simp [regOk, fD, h]

/-! ## R169, R193: bank addresses -/

section BankAddresses
variable {e : Env} {n a : Nat}

theorem bankAddr_of_reaches (h : reaches n e) (r : Staged) : e.bankAddr n e.byteAddr r = r := by
  obtain ⟨inside, aligned⟩ := h
  rw [Env.bankAddr, Env.need_of (decide_eq_true inside), Env.need_of (by simpa using aligned)]

theorem bankAddr_beyond (h : 0x1FFFFF < a) (r : Staged) : e.bankAddr n a r = e.fault fRange := by
  rw [Env.bankAddr, Env.need_false (by simpa using h)]

theorem bankAddr_misaligned (inside : a ≤ 0x1FFFFF) (h : a % n ≠ 0) (r : Staged) : e.bankAddr n a r = e.fault fAlign := by
  rw [Env.bankAddr, Env.need_of (decide_eq_true inside), Env.need_false (by simpa using h)]

/-- R128, R193: LDM at an address that can be read. -/
theorem ldm_of_on (h : reaches n e) (on : e.d.bankOn e.byteAddr = true) (set : Context → Nat → Context) :
    e.ldm n set = e.go (set e.ctx (e.bankWord (wordOf e.byteAddr) / 2 ^ (8 * (e.byteAddr % 8)))) := by
  rw [Env.ldm, bankAddr_of_reaches h, Env.need_of on]

/-- R169: LDM from a bank that is not on. -/
theorem ldm_of_off (h : reaches n e) (off : e.d.bankOn e.byteAddr = false) (set : Context → Nat → Context) :
    e.ldm n set = e.fault fBank := by
  rw [Env.ldm, bankAddr_of_reaches h, Env.need_false off]

/-- R193: at an aligned 64-bit address LDM takes the whole bank word. -/
theorem ldm_word (h : reaches 8 e) (on : e.d.bankOn e.byteAddr = true) (set : Context → Nat → Context) :
    e.ldm 8 set = e.go (set e.ctx (e.bankWord e.byteAddr)) := by
  have aligned : e.byteAddr % 8 = 0 := h.2
  have word : wordOf e.byteAddr = e.byteAddr := by rw [wordOf]; omega
  rw [ldm_of_on h on, word, aligned, Nat.mul_zero, Nat.pow_zero, Nat.div_one]

end BankAddresses

theorem run_runLdm {s : State} {h : Chan} {v : Service} {op : Nat} {g : Env → Staged} (r : Ready s h v op) (low : op < 0xE0) :
    s.run (runLdm op g h) =
      .next { s with core := stage h s.mt (Env.rom (g (seenBy s h v)) (seenBy s h v).ldmReads) s.core } :=
  run_rom r low

/-- R193, R362: a load whose routine goes on with the context `f` where `ok` holds. -/
theorem loads_of {i : Chan → Instr} {op : Nat} {ok : Env → Prop} {f : Env → Context} (g : Env → Staged)
    (he : ∀ h s, exec (i h) s = s.run (runLdm op g h)) (low : op < 0xE0) (one : romX op = false)
    (hg : ∀ e, ok e → g e = e.go (f e)) : Loads i op ok f := by
  intro s h v r admitted
  dsimp only
  rw [he, run_runLdm r low, hg _ admitted, ← go_oneWord r low one]
  exact congrArg _ (stage_afterRead r.svc rfl _)

/-- Settles O14: each load passes its checks and reads its bank word, or ends in the check that fails. -/
theorem bankLoads : Obligations.BankLoads := by
  unfold Obligations.BankLoads
  refine ⟨loads_of insLdmG (fun _ _ => rfl) (by decide) rfl ?g, loads_of insLdmT (fun _ _ => rfl) (by decide) rfl ?t,
    loads_of insLdmP (fun _ _ => rfl) (by decide) rfl ?p, faultsOn_of _ (fun _ _ => rfl) (by decide) ?range,
    faultsOn_of _ (fun _ _ => rfl) (by decide) ?align, faultsOn_of _ (fun _ _ => rfl) (by decide) ?bank⟩
  case g =>
    rintro e ⟨address, on⟩
    exact ldm_of_on address on _
  case t =>
    rintro e ⟨d, address, on⟩
    rw [insLdmT, Env.legal_of (regOk_of_dOk d), ldm_word address on]
    rfl
  case p =>
    rintro e ⟨d, address, on⟩
    rw [insLdmP, Env.legal_of (regOk_of_dOk d), ldm_word address on]
    rfl
  case range =>
    intro e beyond
    rw [insLdmG, Env.ldm, bankAddr_beyond beyond]
    rfl
  case align =>
    rintro e ⟨inside, misaligned⟩
    rw [insLdmG, Env.ldm, bankAddr_misaligned inside misaligned]
    rfl
  case bank =>
    rintro e ⟨address, off⟩
    rw [insLdmG, ldm_of_off address off]
    rfl

/-! ## R126: held effects -/

theorem hold_of_room {e : Env} (h : e.held.length < 16) (x : HeldEff) (c : Context) :
    e.hold x (e.go c) = { e.go c with held := [x] } := by
  rw [Env.hold, Env.effRoom, if_pos (decide_eq_true h)]
  rfl

theorem hold_of_full {e : Env} (h : ¬ e.held.length < 16) (x : HeldEff) (r : Staged) : e.hold x r = e.block .effSpace := by
  rw [Env.hold, Env.effRoom, if_neg (by simpa using h)]

/-- R126: an instruction whose routine only holds the effect `f` where `ok` holds. -/
theorem holds_of {i : Chan → Instr} {op : Nat} {ok : Env → Prop} {f : Env → HeldEff} (g : Env → Staged)
    (he : ∀ h s, exec (i h) s = s.run (runOp op g h)) (low : op < 0xE0) (one : romX op = false)
    (hg : ∀ e, ok e → g e = e.hold (f e) (e.go e.ctx)) : Holds i op 1 ok f := by
  intro s h v r admitted
  have routine := hg _ admitted
  dsimp only
  by_cases room : (seenBy s h v).held.length < 16
  · rw [hold_of_room room, go_oneWord r low one] at routine
    rw [if_pos room, he, run_runOp r low (by rw [routine]; rfl), routine]
    rfl
  · rw [hold_of_full room] at routine
    rw [if_neg room, he, run_runOp r low (by rw [routine]; rfl), routine]
    rfl

/-- R193: STM at an address that can be written is held. -/
theorem stm_of_reaches {e : Env} {n : Nat} (h : reaches n e) (v : Nat) :
    e.stm n v = e.hold (.stm e.byteAddr (BitVec.ofNat 64 v) (n == 4) e.ctx.pc) (e.go e.ctx) :=
  bankAddr_of_reaches h _

/-- R208: the detail of a SIG record, with its fields side by side. -/
theorem sigDetail_eq (h : Chan) (w g : Word) : sigDetail h (fld w 7 0) (if bitOf w 8 then g.toNat else 0) =
    BitVec.ofNat 16 (256 * fld w 7 0 + 8 * (if w.getLsbD 8 then g.toNat % 32 else 0) + h.val % 8) := by
  have code : fld w 7 0 < 256 := fld_lt w 7 0
  have bit : bitOf w 8 = w.getLsbD 8 := rfl
  rw [sigDetail, bit, Nat.mod_eq_of_lt code]
  cases w.getLsbD 8 with
  | true => congr 1; simp only [if_true]; omega
  | false => congr 1; simp only [Bool.false_eq_true, if_false]; omega

/-- Settles O15: each routine passes its checks and is then the one that holds its effect. -/
theorem heldEffects : Obligations.HeldEffects := by
  unfold Obligations.HeldEffects
  refine ⟨holds_of insStmG (fun _ _ => rfl) (by decide) rfl ?stmG, holds_of insStmT (fun _ _ => rfl) (by decide) rfl ?stmT,
    holds_of insStmP (fun _ _ => rfl) (by decide) rfl ?stmP, holds_of insStc (fun _ _ => rfl) (by decide) rfl ?stc,
    holds_of insSig (fun _ _ => rfl) (by decide) rfl ?sig, holds_of insXkick (fun _ _ => rfl) (by decide) rfl ?xkick,
    holds_of insLsend (fun _ _ => rfl) (by decide) rfl ?lsend, faultsOn_of _ (fun _ _ => rfl) (by decide) ?align,
    faultsOn_of _ (fun _ _ => rfl) (by decide) ?range⟩
  case stmG =>
    intro e address
    rw [insStmG, stm_of_reaches address]
    rfl
  case stmT =>
    rintro e ⟨d, address⟩
    rw [insStmT, Env.legal_of (regOk_of_dOk d), stm_of_reaches address, BitVec.ofNat_toNat, BitVec.setWidth_eq]
    rfl
  case stmP =>
    rintro e ⟨d, address⟩
    rw [insStmP, Env.legal_of (regOk_of_dOk d), stm_of_reaches address, BitVec.ofNat_toNat, BitVec.setWidth_eq]
    rfl
  case stc =>
    rintro e ⟨zero, d, reg, inside, other, on, bound⟩
    have target : e.stcOk (e.ctx.gr (fA e.word)).toNat (fld e.word 3 0) = true := by
      simp only [Env.stcOk, Bool.and_eq_true, decide_eq_true_eq, bne_iff_ne]
      exact ⟨⟨⟨⟨reg, inside⟩, other⟩, on⟩, bound⟩
    rw [insStc, Env.legal_of (by simp [zero, fD, d]), Env.need_of target]
    rfl
  case sig =>
    rintro e ⟨zero, d⟩
    rw [insSig, Env.legal_of (by simp [zero, fD, d]), sigDetail_eq]
    rfl
  case xkick =>
    intro e zero
    rw [insXkick, Env.legal_of (by simp [zero])]
  case lsend =>
    rintro e ⟨d, inside, aligned⟩
    rw [insLsend, Env.legal_of (regOk_of_dOk d), Env.lsendAt, Env.need_of (decide_eq_true inside),
      Env.need_of (by simpa using aligned)]
    rfl
  case align =>
    rintro e ⟨inside, misaligned⟩
    rw [insStmG, Env.stm, bankAddr_misaligned inside misaligned]
    rfl
  case range =>
    rintro e ⟨d, beyond⟩
    rw [insLsend, Env.legal_of (regOk_of_dOk d), Env.lsendAt, Env.need_false (by simpa using beyond)]
    rfl

end Machine

end Sys2Proof

namespace Sys2Proof

namespace Machine

/-! ## R123, R235, R236: dispatch -/

section DispatchOne
variable {d : Device} {r : Req} {n : EngineNo} {now : Nat}

theorem exec_serviceDispatch (s : State) : exec .serviceDispatch s = s.runDev dispatchStep := rfl

/-- R234: with every requesting channel enabled no request is dropped before a dispatch. -/
theorem dispatchStep_of_enabled (on : ∀ r ∈ d.hlm.q, (d.chn.at r.ch).cfg.en = true) : dispatchStep now d =
    if d.pwr.gate then ((nats (4 - d.turn.disp)).foldl (fun x _ => dispatchFrom now x.2 x.1) (d, sortReqs d.hlm.q)).1
    else d := by
  have kept : d.hlm.q.filter (fun r => (d.chn.at r.ch).cfg.en) = d.hlm.q := List.filter_eq_self.mpr on
  unfold dispatchStep
  rw [kept]

/-- R235: with every request tried, nothing is dispatched any more. -/
theorem dispatchFrom_done (l : List Nat) : l.foldl (fun x _ => dispatchFrom now x.2 x.1) (d, []) = (d, []) :=
  foldl_keeps (fun x => x = (d, [])) _ (fun x _ h => by rw [h]; rfl) l _ rfl

/-- R235, R236: a request that is alone and ready is dispatched to the best engine. -/
theorem dispatchStep_one (queue : d.hlm.q = [r]) (on : (d.chn.at r.ch).cfg.en = true) (gate : d.pwr.gate = true)
    (room : d.turn.disp < 4) (runs : (d.chn.at r.ch).prog.running = true) (ready : reqReady r d = true)
    (best : bestEngine d = some n) : dispatchStep now d = dispatchTo r n now d := by
  obtain ⟨k, turns⟩ : ∃ k, 4 - d.turn.disp = k + 1 := ⟨3 - d.turn.disp, by omega⟩
  have first : dispatchFrom now [r] d = (dispatchTo r n now d, []) := by simp [dispatchFrom, runs, ready, best]
  rw [dispatchStep_of_enabled (by simpa [queue] using on), if_pos gate, turns, queue, nats_eq, List.range_succ_eq_map,
    List.foldl_cons, show sortReqs [r] = [r] from rfl, first, dispatchFrom_done]

/-- R235, R437: with the run gate closed, or after four dispatches at the boundary, nothing is dispatched. -/
theorem dispatchStep_none (on : ∀ r ∈ d.hlm.q, (d.chn.at r.ch).cfg.en = true)
    (h : d.pwr.gate = false ∨ d.turn.disp = 4) : dispatchStep now d = d := by
  rw [dispatchStep_of_enabled on]
  rcases h with closed | full
  · rw [closed]
    rfl
  · rw [full]
    exact ite_self d

/-- R124, R158: a runnable program without segments can begin its service while a checkpoint is free. -/
theorem reqReady_of_runnable (runs : (d.chn.at r.ch).prog.running = true) (free : (d.chn.at r.ch).prog.svc = none)
    (wait : (d.chn.at r.ch).prog.wait = .runnable) (empty : (d.chn.at r.ch).prog.segs = []) (ckpt : d.ckptUsed < 1024) :
    reqReady r d = true := by
  simp [reqReady, runs, free, wait, empty, ckpt]

/-- R123: a dispatch changes the home channel of its request alone. -/
theorem dispatchTo_others (r : Req) (n : EngineNo) (now : Nat) (d : Device) : otherChans r.ch d (dispatchTo r n now d) :=
  fun _ other => (Tab.at_upd_ne _ _ other).trans (Tab.at_upd_ne _ _ other)

/-- R123, R159, R236: the helm after a dispatch. -/
theorem dispatchTo_hlm (r : Req) (n : EngineNo) (now : Nat) (d : Device) : (dispatchTo r n now d).hlm =
    { d.hlm with
      q := d.hlm.q.filter (fun x => x.ch != r.ch)
      eng := d.hlm.eng.upd n (fun e => { e with slots := e.slots.put (slotFor n d) (some r.ch) })
      slackmin := min d.hlm.slackmin ((r.deadline - now) / 32) } := rfl

/-- R123, R159: the program of a home channel without segments as its service starts, with the view `w`. -/
def Prog.serviced (r : Req) (n : EngineNo) (k : Fin 6) (w : View) (p : Prog) : Prog := { p with
  segs := [{ seq := p.nextSeq, ckpt := p.ctx, settled := 0, emits := 0, held := [], convs := [], epochs := []
             ended := false, fault := none, stop := false, rerun := false }]
  nextSeq := p.nextSeq + 1, wait := .runnable
  svc := some { eng := n, slot := k, deadline := r.deadline, first := p.nextSeq, view := w, count := 0, ctx := p.ctx
                staged := [], retried := false } }

theorem dispatchTo_prog (empty : (d.chn.at r.ch).prog.segs = []) (unsettled : (d.chn.at r.ch).prog.settled = []) :
    ∃ w : View, w.at' = now ∧
      ((dispatchTo r n now d).chn.at r.ch).prog = (d.chn.at r.ch).prog.serviced r n (slotFor n d) w := by
  let after := dispatchTo r n now d
  refine ⟨viewOf r.ch now { d with hlm := after.hlm, turn := after.turn }, rfl, ?_⟩
  rw [dispatchTo, Device.progUpd_chn, Tab.at_upd_same, beginSegment, Device.progUpd_chn, Tab.at_upd_same]
  simp only [Prog.serviced, settledOf, empty, unsettled]
  rfl

end DispatchOne

/-- Settles O38: a request that is alone and ready is dispatched, and the service it starts is read off the program. -/
theorem dispatch : Obligations.Dispatch := by
  unfold Obligations.Dispatch
  intro s r d p queue on
  have enabled : ∀ x ∈ d.hlm.q, (d.chn.at x.ch).cfg.en = true := by simpa [queue] using on
  refine ⟨?dispatched, fun h => idles_of_runDev _ (exec_serviceDispatch s) (dispatchStep_none enabled h)⟩
  intro n gate runs free wait empty unsettled ckpt room best
  have ready := reqReady_of_runnable runs free wait empty ckpt
  obtain ⟨w, seen, prog⟩ := dispatchTo_prog (r := r) (n := n) (now := s.mt) empty unsettled
  apply brings_of_runDev _ (exec_serviceDispatch s)
  rw [dispatchStep_one queue on gate room runs ready best, dispatchTo_hlm, prog]
  refine ⟨?_, ?_, rfl, rfl, rfl, rfl, ⟨_, rfl, rfl, rfl, rfl, rfl, rfl, rfl, rfl, seen⟩, dispatchTo_others r n s.mt d⟩
  · rw [show s.core.dev.hlm.q = [r] from queue]
    simp
  · simp only [Tab.at_upd_same, Tab.at_put_same]

end Machine

end Sys2Proof

namespace Sys2Proof

namespace Machine

/-! ## Updates of one program -/

theorem progUpd_progUpd (h : Chan) (f g : Prog → Prog) (d : Device) :
    (d.progUpd h f).progUpd h g = d.progUpd h (fun p => g (f p)) := Device.chnUpd_chnUpd h _ _ d

theorem progUpd_congr {h : Chan} {d : Device} {f g : Prog → Prog} (e : f (d.chn.at h).prog = g (d.chn.at h).prog) :
    d.progUpd h f = d.progUpd h g := 
  Device.chnUpd_congr (congrArg (fun p => { d.chn.at h with prog := p }) e)

theorem progUpd_same {h : Chan} {d : Device} {f : Prog → Prog} (e : f (d.chn.at h).prog = (d.chn.at h).prog) :
    d.progUpd h f = d := 
  Device.chnUpd_same (congrArg (fun p => { d.chn.at h with prog := p }) e)

theorem progUpd_at_same (h : Chan) (f : Prog → Prog) (d : Device) :
    ((d.progUpd h f).chn.at h).prog = f (d.chn.at h).prog := by
  rw [Device.progUpd_chn, Tab.at_upd_same]

theorem progUpd_prov (h c : Chan) (f : Prog → Prog) (d : Device) :
    ((d.progUpd h f).chn.at c).prov = (d.chn.at c).prov := Device.chnUpd_keeps Channel.prov h c d

theorem progUpd_others (h : Chan) (f : Prog → Prog) (d : Device) : otherChans h d (d.progUpd h f) := Device.chnUpd_others h _ d

/-! ## R135: what a landing does not recompute -/

/-- A change of the provisional queues that leaves each as it is changes nothing. -/
theorem mapProv_same {f : Chan → List ProvEntry → List ProvEntry} {d : Device}
    (h : ∀ c, f c (d.chn.at c).prov = (d.chn.at c).prov) : d.mapProv f = d :=
  foldl_keeps (fun d' => d' = d) _
    (fun d' c e => by subst e; exact Device.chnUpd_same (congrArg (fun l => { d'.chn.at c with prov := l }) (h c))) _ d rfl

/-- R136: with no segment that fails or is forced back, no program is revised. -/
theorem reviseAll_none {step : Nat} {fails forced : Chan → List Nat} {old d : Device} {now : Nat}
    (h : ∀ c, fails c ++ forced c = []) : reviseAll step fails forced old now d = d := by
  refine foldl_keeps (fun d' => d' = d) _ (fun d' c e => ?_) _ d rfl
  subst e
  rw [h c, ite_self]
  rfl

/-- The entries of the provisional queues that meet `p` are none when none meets it. -/
theorem provWhere_none {p : ProvEntry → Bool} {d : Device} (h : ∀ c, ∀ e ∈ (d.chn.at c).prov, p e = false) :
    d.provWhere p = [] := by
  refine List.flatMap_eq_nil_iff.mpr (fun c _ => ?_)
  rw [List.filter_eq_nil_iff.mpr (fun e mem => by simp [h c e mem])]
  rfl

/-- R131, R135: with no action stamped by a position and no conversion tracked, a landing recomputes nothing. -/
theorem recomputeStale_same {h : Chan} {d : Device} (timed : ∀ c, ∀ e ∈ (d.chn.at c).prov, e.pos = none)
    (untracked : ∀ g ∈ (d.chn.at h).prog.segs, g.convs = [] ∧ g.epochs = []) (now : Nat) : recomputeStale h now d = d := by
  unfold recomputeStale
  dsimp only
  rw [mapProv_same (fun c => ?queues), progUpd_same ?segments]
  · refine reviseAll_none (fun c => ?_)
    rw [List.append_nil]
    split
    · rw [provWhere_none (fun c e mem => by simp [timed c e mem]), List.filter_eq_nil_iff.mpr ?tests]
      · rfl
      case tests =>
        intro g mem
        obtain ⟨convs, epochs⟩ := untracked g mem
        simp [convs, epochs]
    · rfl
  case queues =>
    refine List.map_congr_left (fun e mem => ?_) |>.trans (List.map_id _)
    simp [timed c e mem]
  case segments =>
    have kept : ∀ f : Segment → Segment, (∀ g ∈ (d.chn.at h).prog.segs, f g = g) →
        (d.chn.at h).prog.segs.map f = (d.chn.at h).prog.segs :=
      fun f same => (List.map_congr_left same).trans (List.map_id _)
    rw [kept]
    intro g mem
    obtain ⟨convs, epochs⟩ := untracked g mem
    simp only [convs, epochs, List.map_nil]
    rw [← convs, ← epochs]

end Machine

end Sys2Proof

namespace Sys2Proof

namespace Machine

/-! ## R123 to R125, R250: the landing of a routine -/

theorem exec_routineCommit (h : Chan) (s : State) :
    exec (.routineCommit h) s = s.runDev (fun now d => recomputeStale h now (landNext h now d)) := rfl

/-- R123, R250: the program of a service `v` in segment `g` as the routine `r` lands, with the routines `l` behind it. -/
def Prog.lands (v : Service) (r : Staged) (l : List Staged) (g : Segment) (p : Prog) : Prog := { p with
  ctx := r.ctx, segs := [{ g with emits := g.emits + r.emit.toNat, stop := g.stop || r.stop }], again := false
  svc := some { v with staged := l, ctx := if l.isEmpty then r.ctx else v.ctx } }

/-- R123, R250: what the routine `r` writes to its program as it lands. -/
def Staged.writes (r : Staged) (p : Prog) : Prog :=
  { p.lastSeg (fun g => Segment.track r.convs { g with
      emits := g.emits + r.emit.toNat, held := g.held ++ r.held, stop := g.stop || r.stop }) with
    ctx := r.ctx, again := false, svc := p.svc.map (fun s => if s.staged.isEmpty then { s with ctx := r.ctx } else s) }

/-- R175: the program of segment `g` as its service ends with the held fault `f`. -/
def Prog.landsFault (f : HeldFault) (g : Segment) (p : Prog) : Prog := { p with
  segs := [{ g with fault := some f, ended := true }], svc := none, wait := .stopped }

section Landing
variable {d : Device} {h : Chan} {v : Service} {r : Staged} {l : List Staged} {g : Segment} {now : Nat}

/-- R250: the oldest staged routine, without a tail, lands once its COMMIT completed before `now`. -/
theorem landNext_of_due (svc : (d.chn.at h).prog.svc = some v) (staged : v.staged = r :: l) (before : r.at' ≠ now)
    (reached : due r.at' now = true) (tail : r.tail = none) :
    landNext h now d = landRoutine h r now (d.progUpd h (fun p => { p with svc := some { v with staged := l } })) := by
  have ready : (r.at' != now && due r.at' now) = true := by simp [before, reached]
  have head : r.head = r := by simp [Staged.head, tail]
  have rest : r.rest = [] := by simp [Staged.rest, tail]
  simp only [landNext, svc, staged, ready, if_true, head, rest]
  congr 1
  exact progUpd_congr (by simp only [svc]; rfl)

/-- R201: a routine that holds nothing has no CANCEL to decide. -/
theorem cancelNow_of_nothing (held : r.held = []) : cancelNow h r d = r := by rw [cancelNow, held]; rfl

/-- R123, R250: a routine that goes on in its segment and holds nothing makes its writes, and then its action. -/
theorem landRoutine_goes (go : r.fin = .go) (seg : r.newSeg = none) (held : r.held = []) : landRoutine h r now d =
    r.act.elim (d.progUpd h r.writes) (fun a => landAction a.1 a.2 now (d.progUpd h r.writes)) := by
  have nothing : ∀ d, r.held.foldl (fun d x => landEffect h x d) d = d := by intro d; rw [held]; rfl
  unfold landRoutine
  simp only [go, seg, cancelNow_of_nothing held, nothing, landFinish]
  cases r.act <;> rfl

/-- R123, R250: what such a routine writes in the only segment of its program. -/
theorem progUpd_writes (svc : (d.chn.at h).prog.svc = some { v with staged := l }) (segs : (d.chn.at h).prog.segs = [g])
    (held : r.held = []) (convs : r.convs = []) : d.progUpd h r.writes = d.progUpd h (Prog.lands v r l g) := by
  apply progUpd_congr
  cases l <;> simp [Staged.writes, Prog.lastSeg, Prog.lands, segs, svc, held, convs, Segment.track]

/-- R142: the margin of an action is noted in the status of its channel alone. -/
theorem noteMargin_changes (c : Chan) (t now : Nat) (d : Device) : ∃ f, noteMargin c t now d = d.statUpd c f := by
  unfold noteMargin
  dsimp only
  split
  · exact ⟨id, (Device.chnUpd_same rfl).symm⟩
  · exact ⟨_, rfl⟩

/-- R89: with no action or placeholder in place, an action that lands is alone in its queue, and nothing else of the programs
changes. -/
theorem landAction_alone (empty : ∀ c, (d.chn.at c).prov = []) (c : Chan) (x : ProvEntry) :
    let d' := landAction c x now d
    (d'.chn.at c).prov = [{ x with wrote := now }] ∧ otherChans c d d' ∧ ∀ o, (d'.chn.at o).prog = (d.chn.at o).prog := by
  have alone : d.chnUpd c (fun h => { h with prov := h.prov ++ [{ x with wrote := now }] }) =
      d.chnUpd c (fun h => { h with prov := [{ x with wrote := now }] }) := Device.chnUpd_congr (by simp [empty c])
  obtain ⟨f, noted⟩ := noteMargin_changes c x.t now (d.chnUpd c (fun h => { h with prov := [{ x with wrote := now }] }))
  dsimp only
  rw [landAction, mapProv_same (fun c => by rw [empty]; rfl), alone, noted]
  refine ⟨by rw [statUpd_prov, Device.chnUpd_at_same], fun o other => ?_, fun o => ?_⟩
  · exact (Device.chnUpd_others c _ _ o other).trans (Device.chnUpd_others c _ d o other)
  · exact (Device.chnUpd_keeps Channel.prog c o _).trans (Device.chnUpd_keeps Channel.prog c o d)

/-- R163, R236: a service in the only segment of its program ends: its slot frees. -/
theorem endService_single {w : WaitState} (svc : (d.chn.at h).prog.svc = some v) (segs : (d.chn.at h).prog.segs = [g])
    (first : g.rerun = false) : endService h w d =
      { (freeSlot v d).progUpd h (fun p => { p with segs := [{ g with ended := true }], svc := none, wait := w }) with
        hlm := { (freeSlot v d).hlm with svccnt := (d.hlm.svccnt + 1) % 4294967296 } } := by
  have ends : endSegment h (freeSlot v d) = (freeSlot v d).progUpd h (Prog.lastSeg (fun g => { g with ended := true })) := by
    have last : ((freeSlot v d).chn.at h).prog.segs = [g] := segs
    simp [endSegment, last, first]
  simp only [endService, svc, ends]
  have joined := progUpd_progUpd h (Prog.lastSeg (fun g => { g with ended := true }))
    (fun p => { p with svc := none, wait := w }) (freeSlot v d)
  have same : (freeSlot v d).progUpd h
        (fun p => { p.lastSeg (fun g => { g with ended := true }) with svc := none, wait := w }) =
      (freeSlot v d).progUpd h (fun p => { p with segs := [{ g with ended := true }], svc := none, wait := w }) :=
    progUpd_congr (by simp [Prog.lastSeg, show ((freeSlot v d).chn.at h).prog.segs = [g] from segs])
  rw [← same, ← joined]
  rfl

/-- R123, R250: the next routine lands, goes on in the only segment of its program and holds nothing. -/
theorem landNext_goes (svc : (d.chn.at h).prog.svc = some v) (segs : (d.chn.at h).prog.segs = [g]) (staged : v.staged = r :: l)
    (before : r.at' ≠ now) (reached : due r.at' now = true) (tail : r.tail = none) (go : r.fin = .go) (seg : r.newSeg = none)
    (held : r.held = []) (convs : r.convs = []) : landNext h now d =
      r.act.elim (d.progUpd h (Prog.lands v r l g)) (fun a => landAction a.1 a.2 now (d.progUpd h (Prog.lands v r l g))) := by
  rw [landNext_of_due svc staged before reached tail, landRoutine_goes go seg held,
    progUpd_writes (by rw [progUpd_at_same]) (by rw [progUpd_at_same]; exact segs) held convs, progUpd_progUpd]
  rfl

/-- R175: the next routine faulted: the service ends with the fault held in the only segment of its program. -/
theorem landNext_faults {f : HeldFault} (svc : (d.chn.at h).prog.svc = some v) (segs : (d.chn.at h).prog.segs = [g])
    (staged : v.staged = r :: l) (before : r.at' ≠ now) (reached : due r.at' now = true) (tail : r.tail = none)
    (faulted : r.fin = .fault f) (first : g.rerun = false) : landNext h now d =
      { (freeSlot v d).progUpd h (Prog.landsFault f g) with
        hlm := { (freeSlot v d).hlm with svccnt := (d.hlm.svccnt + 1) % 4294967296 } } := by
  have marked : (d.progUpd h (fun p => { p with svc := some { v with staged := l } })).progUpd h
        (Prog.lastSeg (fun g => { g with fault := some f })) =
      d.progUpd h (fun p => { p with svc := some { v with staged := l }, segs := [{ g with fault := some f }] }) := by
    rw [progUpd_progUpd]
    exact progUpd_congr (by simp [Prog.lastSeg, segs])
  rw [landNext_of_due svc staged before reached tail]
  simp only [landRoutine, faulted]
  rw [landFault, marked, endService_single (v := { v with staged := l }) (g := { g with fault := some f })
    (by rw [progUpd_at_same]) (by rw [progUpd_at_same]) first]
  have joined := progUpd_progUpd h (fun p => { p with svc := some { v with staged := l }, segs := [{ g with fault := some f }] })
    (fun p => { p with segs := [{ g with fault := some f, ended := true }], svc := none, wait := .stopped }) (freeSlot v d)
  exact congrArg (fun x : Device => { x with hlm := { (freeSlot v d).hlm with svccnt := (d.hlm.svccnt + 1) % 4294967296 } }) joined

end Landing

/-- Settles O35: the writes of the routine are one update of its program, and an action then joins its queue; what landed is
not computed again, as nothing of it rests on an axis. -/
theorem routinesLand : Obligations.RoutinesLand := by
  unfold Obligations.RoutinesLand
  intro s ch v r l g d p svc staged before reached tail segs convs epochs first empty _
  have written : ((d.progUpd ch (Prog.lands v r l g)).chn.at ch).prog = Prog.lands v r l g p := progUpd_at_same _ _ _
  have noProv : ∀ c, ((d.progUpd ch (Prog.lands v r l g)).chn.at c).prov = [] := fun c => (progUpd_prov _ _ _ _).trans (empty c)
  have untracked : ∀ q : Prog, q = Prog.lands v r l g p → ∀ g' ∈ q.segs, g'.convs = [] ∧ g'.epochs = [] := by
    intro q is g' mem
    rw [is, Prog.lands, List.mem_singleton] at mem
    exact mem ▸ ⟨convs, epochs⟩
  refine ⟨?writes, ?acts, ?faults⟩
  case writes =>
    intro go seg act held noConvs
    apply changes_of_runDev _ (exec_routineCommit ch s)
    rw [landNext_goes svc segs staged before reached tail go seg held noConvs, act]
    exact recomputeStale_same (fun c e mem => by rw [noProv] at mem; cases mem) (untracked _ written) s.mt
  case acts =>
    intro c x go seg act held noConvs noStop timed
    apply brings_of_runDev _ (exec_routineCommit ch s)
    obtain ⟨prov, others, progs⟩ := landAction_alone (now := s.mt) noProv c x
    have prog := (progs ch).trans written
    rw [landNext_goes svc segs staged before reached tail go seg held noConvs, act, Option.elim_some,
      recomputeStale_same ?alone (untracked _ prog), prov, prog]
    · exact ⟨rfl, by simp [Prog.lands, noStop], rfl, fun o other home => (others o other).trans (progUpd_others ch _ d o home)⟩
    case alone =>
      intro c' e mem
      by_cases same : c' = c
      · rw [same, prov, List.mem_singleton] at mem
        rw [mem]
        exact timed
      · rw [others c' same, noProv] at mem
        cases mem
  case faults =>
    intro f faulted
    apply brings_of_runDev _ (exec_routineCommit ch s)
    have ended : (((freeSlot v d).progUpd ch (Prog.landsFault f g)).chn.at ch).prog = Prog.landsFault f g p :=
      progUpd_at_same _ _ _
    rw [landNext_faults svc segs staged before reached tail faulted first, recomputeStale_same ?noProv ?untracked]
    · dsimp only
      rw [ended]
      exact ⟨rfl, rfl, rfl, rfl, by simp [freeSlot], rfl⟩
    case noProv =>
      intro c e mem
      dsimp only at mem
      rw [progUpd_prov, show ((freeSlot v d).chn.at c).prov = [] from empty c] at mem
      cases mem
    case untracked =>
      intro g' mem
      dsimp only at mem
      rw [ended, Prog.landsFault, List.mem_singleton] at mem
      exact mem ▸ ⟨convs, epochs⟩

end Machine

end Sys2Proof

namespace Sys2Proof

namespace Machine

/-! ## R193, R359: the bytes of a held store -/

/-- A view of the memories that a write of one bank byte leaves, a write of any number of them leaves. -/
theorem writeBytes_keeps {β : Type} (view : Ram → β) (skip : Nat → Bool) (h : ∀ a v r, view (r.bankWrite 1 a v) = view r) :
    ∀ (n a v : Nat) (r : Ram), view (writeBytes skip n a v r) = view r
  | 0, _, _, _ => rfl
  | n + 1, a, v, r => by
    rw [writeBytes, writeBytes_keeps view skip h n]
    split
    · rfl
    · exact h a _ r

/-- Bytes that no other port holds read as they were written; every other byte reads as before. -/
theorem bankRead_writeBytes {skip : Nat → Bool} (free : ∀ a, skip a = false) (b : Nat) : ∀ (n a v : Nat) {r : Ram}, r.wf →
    a + n ≤ bankSize → (writeBytes skip n a v r).bankRead 1 b =
      if a ≤ b ∧ b < a + n then v / 256 ^ (b - a) % 256 else r.bankRead 1 b
  | 0, a, v, r, _, _ => by
    rw [if_neg (by omega)]
    rfl
  | n + 1, a, v, r, wf, inside => by
    rw [writeBytes, free, if_neg Bool.false_ne_true,
      bankRead_writeBytes free b n (a + 1) (v / 256) (Ram.bankWrite_wf wf 1 a _) (by omega)]
    rcases Nat.lt_trichotomy b a with below | same | above
    · rw [if_neg (by omega), if_neg (by omega), Ram.bankRead_bankWrite_apart wf 1 a _ 1 b (by omega)]
    · subst same
      rw [if_neg (by omega), if_pos (by omega), Ram.bankRead_bankWrite wf 1 b _ (by omega)]
      simp
    · have power : v / 256 / 256 ^ (b - (a + 1)) = v / 256 ^ (b - a) := by
        rw [Nat.div_div_eq_div_mul, ← Nat.pow_succ', show (b - (a + 1)).succ = b - a by omega]
      rw [power, Ram.bankRead_bankWrite_apart wf 1 a _ 1 b (by omega)]
      exact if_congr (by omega) rfl rfl

/-- R359: a store through port A is noted in the memory block and the event controller alone. -/
theorem storeA_dev (n a v now : Nat) (c : Core) : ∃ m e, (storeA n a v now c).dev = { c.dev with mem := m, evc := e } :=
  notePort_changes true true (wordOf a) now c.dev

/-! ## R126, R129: the release of a segment -/

theorem exec_segmentRelease (h : Chan) (s : State) : exec (.segmentRelease h) s =
    s.run (fun now c => (releaseOldest h now c).1.mapDev (deliver now (releaseOldest h now c).2 [])) := rfl

/-- The program of a home channel whose only segment has been taken off for its release. -/
def Core.withoutSegs (h : Chan) (c : Core) : Core := c.mapDev (fun d => d.progUpd h (fun p => { p with segs := [] }))

section Releases
variable {h : Chan} {g : Segment} {c : Core} {now : Nat}

theorem segHolds_none {d : Device} (empty : ∀ c, (d.chn.at c).prov = []) (h : Chan) (seq : Nat) : d.segHolds h seq = false := by
  simp [Device.segHolds, empty]

/-- R129: a segment that has ended without a fault and holds no action is released. -/
theorem releaseOldest_of_ended (segs : (c.dev.chn.at h).prog.segs = [g]) (empty : ∀ a, (c.dev.chn.at a).prov = [])
    (ended : g.ended = true) (sound : g.fault = none) : releaseOldest h now c =
      (let r := releaseEffects h now g.held (c.withoutSegs h, [])
       match r.2 with
       | some pc => (r.1.1.mapDev (faultFinal h fBank pc now), r.1.2)
       | none => (if g.stop then r.1.1.mapDev (programStop h) else r.1.1, r.1.2)) := by
  have free : releasable h c.dev = true := by simp [releasable, segs, ended, sound, segHolds_none empty]
  unfold releaseOldest
  simp only [segs, free, if_true]
  rfl

/-- R129: a segment that has not ended stays. -/
theorem releaseOldest_of_open (segs : (c.dev.chn.at h).prog.segs = [g]) (running : g.ended = false) :
    releaseOldest h now c = (c, []) := by
  have held : releasable h c.dev = false := by simp [releasable, segs, running]
  unfold releaseOldest
  simp only [segs, held, Bool.false_eq_true, if_false]

/-- R126, R170: a held STM takes place where its bank is on. -/
theorem releaseEffects_stm {a : Nat} {v : DWord} {pc : BitVec 15} (on : c.dev.bankOn a = true) :
    releaseEffects h now [.stm a v false pc] (c, []) = ((storeA 8 a v.toNat now c, []), none) := by
  simp [releaseEffects, on]

/-- R170: a held STM whose bank is not on stops the release. -/
theorem releaseEffects_stm_off {a : Nat} {v : DWord} {pc : BitVec 15} (off : c.dev.bankOn a = false) :
    releaseEffects h now [.stm a v false pc] (c, []) = ((c, []), some pc) := by
  simp [releaseEffects, off]
  rfl

end Releases

/-! ## R140, R176: the program that stops -/

section Stops
variable {h : Chan} {d : Device}

theorem returnHeld_prog (l : List HeldEff) (d : Device) (h : Chan) :
    ((returnHeld l d).chn.at h).prog = (d.chn.at h).prog := by
  refine foldl_same (fun d => (d.chn.at h).prog) _ (fun d x => ?_) l d
  cases x with
  | capt c n => exact Device.chnUpd_keeps Channel.prog c h d
  | cancel c i m => exact Device.chnUpd_keeps Channel.prog c h d
  | _ => rfl

theorem returnHeld_hlm (l : List HeldEff) (d : Device) : (returnHeld l d).hlm = d.hlm := by
  refine foldl_same Device.hlm _ (fun d x => ?_) l d
  cases x with
  | capt c n => exact Device.pinUpd_hlm c _ d
  | cancel c i m => exact Device.chnUpd_hlm c _ d
  | _ => rfl

theorem mapProv_hlm (f : Chan → List ProvEntry → List ProvEntry) (d : Device) : (d.mapProv f).hlm = d.hlm :=
  foldl_same Device.hlm _ (fun d c => Device.chnUpd_hlm c _ d) _ d

theorem mapProv_prog (f : Chan → List ProvEntry → List ProvEntry) (d : Device) (h : Chan) :
    ((d.mapProv f).chn.at h).prog = (d.chn.at h).prog :=
  foldl_same (fun d => (d.chn.at h).prog) _ (fun d c => Device.chnUpd_keeps Channel.prog c h d) _ d

theorem abandon_prog (h : Chan) (d : Device) :
    ((abandon h d).chn.at h).prog = { (d.chn.at h).prog with svc := none } := by
  unfold abandon
  cases svc : (d.chn.at h).prog.svc with
  | none => exact congrArg (fun x => { (d.chn.at h).prog with svc := x }) svc
  | some v =>
    dsimp only
    rw [progUpd_at_same]
    cases v.inFlight with
    | true => rfl
    | false => rfl

theorem abandon_mfault (h : Chan) (d : Device) : (abandon h d).hlm.mfault = d.hlm.mfault := by
  unfold abandon
  cases (d.chn.at h).prog.svc with
  | none => rfl
  | some v =>
    dsimp only
    cases v.inFlight with
    | true => rfl
    | false => rfl

/-- R140, R493: what a program that stops gives up: its held effects, its provisional entries and its routine. -/
def givesUp (h : Chan) (d : Device) : Device :=
  abandon h ((returnHeld ((d.chn.at h).prog.segs.flatMap (fun g => g.held)) d).mapProv
    (fun _ l => l.filter (fun e => e.home != h)))

theorem givesUp_prog (h : Chan) (d : Device) : ((givesUp h d).chn.at h).prog = { (d.chn.at h).prog with svc := none } := by
  rw [givesUp, abandon_prog, mapProv_prog, returnHeld_prog]

theorem givesUp_mfault (h : Chan) (d : Device) : (givesUp h d).hlm.mfault = d.hlm.mfault := by
  rw [givesUp, abandon_mfault, mapProv_hlm, returnHeld_hlm]

/-- R140, R176, R493: a program as it stops. -/
def Prog.stops (p : Prog) : Prog := { p with
  ctx := p.released, running := false, wait := .stopped, segs := [], settled := [], svc := none, again := false }

theorem stopProgram_eq (h : Chan) (d : Device) : stopProgram h d = (dropReq h (givesUp h d)).progUpd h (fun p => { p with
    ctx := p.released, running := false, wait := .stopped, segs := [], settled := [], again := false }) := rfl

theorem dropReq_chn (h : Chan) (d : Device) : (dropReq h d).chn = d.chn := rfl
theorem dropReq_mfault (h : Chan) (d : Device) : (dropReq h d).hlm.mfault = d.hlm.mfault := by simp only [dropReq]

theorem stopProgram_prog (h : Chan) (d : Device) : ((stopProgram h d).chn.at h).prog = (d.chn.at h).prog.stops := by
  rw [stopProgram_eq, progUpd_at_same, dropReq_chn, givesUp_prog]
  rfl

/-- R260: the record of the latest MICRO fault stays as a program stops. -/
theorem stopProgram_mfault (h : Chan) (d : Device) : (stopProgram h d).hlm.mfault = d.hlm.mfault := by
  rw [stopProgram_eq, Device.progUpd_hlm, dropReq_mfault, givesUp_mfault]

theorem stopProgram_evc (h : Chan) (d : Device) : (stopProgram h d).evc = d.evc := by
  obtain ⟨_, _, stopped⟩ := stopProgram_changes h d
  rw [stopped]

/-- R176: what a fault that becomes final leaves of its program. -/
def Prog.faults (code : Nat) (pc : BitVec 15) (p : Prog) : Prog := { p.stops with
  faultPc := pc, faultCode := code, faultValid := true }

theorem faultFinal_chn (h : Chan) (code : Nat) (pc : BitVec 15) (now : Nat) (d : Device) :
    let x := (faultFinal h code pc now d).chn.at h
    x.prog = (d.chn.at h).prog.faults code pc ∧
      x.stat.safeDue = some (if code = fBank then .bankasleep else .progfault, addT now 32) := by
  dsimp only
  rw [faultFinal, Device.chnUpd_at_same, raiseChn, raise_chn]
  exact ⟨by dsimp only; rw [stopProgram_prog]; rfl, rfl⟩

theorem faultFinal_hlm (h : Chan) (code : Nat) (pc : BitVec 15) (now : Nat) (d : Device) :
    (faultFinal h code pc now d).hlm = (stopProgram h d).hlm := rfl

theorem faultFinal_evc (h : Chan) (code : Nat) (pc : BitVec 15) (now : Nat) (d : Device) :
    (faultFinal h code pc now d).evc =
      (raise 5 (h.val / 8) 0x04 0x30 (code % 32 * 8 + h.val % 8) now (stopProgram h d)).evc := rfl

/-- R176: a fault that becomes final counts at the source of its channel. -/
theorem faultFinal_causes (h : Chan) (code : Nat) (pc : BitVec 15) (now : Nat) (d : Device) :
    causes (h.val / 8) (faultFinal h code pc now d) = causes (h.val / 8) d + 1 := by
  have counted := causes_raise (k := h.val / 8) (by omega) 5 0x04 0x30 (code % 32 * 8 + h.val % 8) now (stopProgram h d)
  unfold causes at counted ⊢
  rw [faultFinal_evc, counted, stopProgram_evc]

theorem noteMicro_chn (h : Chan) (f : HeldFault) (d : Device) : (noteMicro h f d).chn = d.chn := by
  unfold noteMicro
  split <;> rfl

theorem noteMicro_evc (h : Chan) (f : HeldFault) (d : Device) : (noteMicro h f d).evc = d.evc := by
  unfold noteMicro
  split <;> rfl

theorem exec_faultFinal (h : Chan) (s : State) : exec (.faultFinal h) s = s.runDev (faultOldest h) := rfl

variable {g : Segment} {now : Nat}

/-- R175: the held fault of the only segment becomes final. -/
theorem faultOldest_of_fault {f : HeldFault} (segs : (d.chn.at h).prog.segs = [g]) (held : g.fault = some f) :
    faultOldest h now d = faultFinal h f.code f.pc now (noteMicro h f d) := by
  unfold faultOldest
  simp only [segs, held]

theorem faultOldest_of_none (segs : (d.chn.at h).prog.segs = [g]) (sound : g.fault = none) : faultOldest h now d = d := by
  unfold faultOldest
  simp only [segs, sound]

end Stops

/-! ## R129: what the release of the only segment leaves -/

section OnlySegment
variable {s : State} {ch : Chan} {g : Segment}

theorem withoutSegs_prog (c : Core) (h : Chan) :
    ((c.withoutSegs h).dev.chn.at h).prog = { (c.dev.chn.at h).prog with segs := [] } := progUpd_at_same h _ c.dev

/-- R129: a release without deliveries. -/
theorem exec_segmentRelease_of {c : Core} (h : releaseOldest ch s.mt s.core = (c, [])) :
    exec (.segmentRelease ch) s = .next { s with core := c } := by
  rw [exec_segmentRelease, State.run_next, h]
  rfl

/-- R126, R193: the release of a segment that holds one STM of eight bytes. -/
theorem segmentRelease_stm (segs : (s.core.dev.chn.at ch).prog.segs = [g]) (empty : ∀ c, (s.core.dev.chn.at c).prov = [])
    (ended : g.ended = true) (sound : g.fault = none) {a : Nat} {v : DWord} {pc : BitVec 15}
    (held : g.held = [.stm a v false pc]) (on : s.core.dev.bankOn a = true) (going : g.stop = false) :
    exec (.segmentRelease ch) s = .next { s with core := storeA 8 a v.toNat s.mt (s.core.withoutSegs ch) } := by
  have on : (s.core.withoutSegs ch).dev.bankOn a = true := on
  apply exec_segmentRelease_of
  simp [releaseOldest_of_ended segs empty ended sound, held, releaseEffects_stm on, going]

/-- R170: the release of a segment whose STM finds its bank not on. -/
theorem segmentRelease_off (segs : (s.core.dev.chn.at ch).prog.segs = [g]) (empty : ∀ c, (s.core.dev.chn.at c).prov = [])
    (ended : g.ended = true) (sound : g.fault = none) {a : Nat} {v : DWord} {pc : BitVec 15}
    (held : g.held = [.stm a v false pc]) (off : s.core.dev.bankOn a = false) : exec (.segmentRelease ch) s =
      .next (s.withDev (faultFinal ch fBank pc s.mt (s.core.withoutSegs ch).dev)) := by
  have off : (s.core.withoutSegs ch).dev.bankOn a = false := off
  refine exec_segmentRelease_of (c := (s.core.withoutSegs ch).mapDev (faultFinal ch fBank pc s.mt)) ?_
  simp [releaseOldest_of_ended segs empty ended sound, held, releaseEffects_stm_off off]

/-- R177: the release of a segment that holds only a stop. -/
theorem segmentRelease_stop (segs : (s.core.dev.chn.at ch).prog.segs = [g]) (empty : ∀ c, (s.core.dev.chn.at c).prov = [])
    (ended : g.ended = true) (sound : g.fault = none) (held : g.held = []) (stop : g.stop = true) :
    exec (.segmentRelease ch) s = .next (s.withDev (programStop ch (s.core.withoutSegs ch).dev)) := by
  refine exec_segmentRelease_of (c := (s.core.withoutSegs ch).mapDev (programStop ch)) ?_
  simp [releaseOldest_of_ended segs empty ended sound, held, releaseEffects, stop]

theorem programStop_chn (h : Chan) (d : Device) :
    (programStop h d).chn = (d.progUpd h (fun p => { p with running := false, wait := .stopped })).chn := rfl

end OnlySegment

/-- Settles O36: a segment that cannot be released stays; one that can is taken off, and its store, its fault or its stop takes
place on what is left. -/
theorem segmentsRelease : Obligations.SegmentsRelease := by
  unfold Obligations.SegmentsRelease
  intro s ch g d p segs empty
  refine ⟨fun ended sound => ⟨?stored, ?off, ?stopped⟩, ?unended, ?final, ?sound⟩
  case stored =>
    intro a v pc held inside on quiet going wf
    obtain ⟨m, e, dev⟩ := storeA_dev 8 a v.toNat s.mt (s.core.withoutSegs ch)
    have free : ∀ b, (s.core.withoutSegs ch).dev.mem.heldB b = false := by
      intro b
      rw [MemBlk.heldB, show (s.core.withoutSegs ch).dev.mem.bytesB = [] from quiet]
      rfl
    have bytes : ∀ b, (storeA 8 a v.toNat s.mt (s.core.withoutSegs ch)).ram.bankRead 1 b =
        if a ≤ b ∧ b < a + 8 then v.toNat / 256 ^ (b - a) % 256 else s.core.ram.bankRead 1 b :=
      fun b => bankRead_writeBytes free b 8 a v.toNat wf inside
    refine ⟨_, segmentRelease_stm segs empty ended sound held on going, fun i low => ?_, fun b apart => ?_, ?_, ?_, ?_, ?_, ?_⟩
    · rw [bytes, if_pos (by omega), Nat.add_sub_cancel_left]
    · rw [bytes, if_neg (by omega)]
    · exact writeBytes_keeps Ram.alm _ (fun a v r => Ram.bankWrite_alm 1 a v r) 8 a _ _
    · exact writeBytes_keeps Ram.prog _ (fun a v r => Ram.bankWrite_prog 1 a v r) 8 a _ _
    · exact writeBytes_keeps Ram.lut _ (fun a v r => Ram.bankWrite_lut 1 a v r) 8 a _ _
    · dsimp only
      rw [dev]
      exact withoutSegs_prog s.core ch
    · dsimp only
      rw [dev]
      exact progUpd_others ch (fun p => { p with segs := [] }) d
  case off =>
    intro a v pc held off
    refine ⟨_, segmentRelease_off segs empty ended sound held off, ?_⟩
    obtain ⟨prog, due⟩ := faultFinal_chn ch fBank pc s.mt (s.core.withoutSegs ch).dev
    rw [prog, due]
    exact ⟨rfl, rfl, rfl, rfl, rfl, rfl⟩
  case stopped =>
    intro held stop
    refine ⟨_, segmentRelease_stop segs empty ended sound held stop, ?_⟩
    unfold otherChans
    dsimp only
    rw [programStop_chn, Core.withoutSegs, Core.mapDev_dev, progUpd_progUpd]
    exact ⟨progUpd_at_same ch _ d, progUpd_others ch _ d⟩
  case unended =>
    intro running
    exact exec_segmentRelease_of (releaseOldest_of_open segs running)
  case final =>
    intro f held other
    apply brings_of_runDev _ (exec_faultFinal ch s)
    rw [faultOldest_of_fault segs held]
    obtain ⟨prog, due⟩ := faultFinal_chn ch f.code f.pc s.mt (noteMicro ch f d)
    have counted := faultFinal_causes ch f.code f.pc s.mt (noteMicro ch f d)
    unfold causes at counted
    rw [noteMicro_chn] at prog
    rw [noteMicro_evc] at counted
    rw [prog, due, counted, if_neg (show f.code ≠ fBank from other), faultFinal_hlm, stopProgram_mfault]
    refine ⟨rfl, rfl, rfl, rfl, rfl, ?released, rfl, ?micro, rfl⟩
    case released =>
      have released : (d.chn.at ch).prog.released = g.ckpt := by rw [Prog.released, segs]
      exact released
    case micro =>
      unfold noteMicro
      cases f.ua <;> rfl
  case sound =>
    intro sound
    exact idles_of_runDev _ (exec_faultFinal ch s) (faultOldest_of_none segs sound)

end Machine

end Sys2Proof

namespace Sys2Proof

namespace Machine

/-! ## R382 to R384: causes and their source -/

theorem length_insertBefore {α : Type} (p : α → Bool) (a : α) : ∀ l : List α, (insertBefore p a l).length = l.length + 1
  | [] => rfl
  | b :: l => by
    unfold insertBefore
    split
    · rfl
    · rw [List.length_cons, length_insertBefore p a l, List.length_cons]

/-- R383: a cause that finds the queue of an edge source full leaves four in it, and one is counted as dropped. -/
theorem Source.take_full {c : Cause} {x : Source} (full : 4 ≤ x.q.length) :
    (Source.take false c x).q.length = 4 ∧ (Source.take false c x).drop = satInc 8 x.drop := by
  have long := length_insertBefore (Cause.after c) c x.q
  unfold Source.take Source.queue Source.count
  cases cut : (insertBefore (Cause.after c) c x.q).drop 4 with
  | nil =>
    have := List.drop_eq_nil_iff.mp cut
    omega
  | cons y l =>
    refine ⟨?_, by simp [cut]⟩
    simp [cut]
    omega

/-- R384: a newer cause becomes the latch of a level source. -/
theorem Source.take_level {c : Cause} {x : Source} (newer : ∀ p, x.latch = some p → p.at' < c.at') :
    (Source.take true c x).latch = some c := by
  unfold Source.take Source.latchIn Source.count
  cases latch : x.latch with
  | none => rfl
  | some p =>
    have late : Cause.after c p = false := by
      have : c.at' ≠ p.at' := by have := newer p latch; omega
      simp [Cause.after, this]
    simp [late]

/-- R383: EVC_DROPS after a raise. -/
theorem raise_evc_drops (step : Nat) (s : SourceNo) (kind cause arg now : Nat) (d : Device) :
    (raise step s.val kind cause arg now d).evc.drops =
      if Source.drops (d.evc.isLevel s) (d.evc.src.at s) then satInc 32 d.evc.drops else d.evc.drops := by
  have same : Fin.ofNat 256 s.val = s := Fin.ext (Nat.mod_eq_of_lt s.isLt)
  unfold raise raiseAt
  rw [same]

/-- Settles O6: what a raise does is what its source does with the cause, in each of the source's modes. -/
theorem raiseReachesItsSource : Obligations.RaiseReachesItsSource := by
  unfold Obligations.RaiseReachesItsSource
  intro step src kind cause arg now d inside s old new c
  have number : src = s.val := (Nat.mod_eq_of_lt inside).symm
  have taken : new = Source.take (d.evc.isLevel s) c old := by
    rw [show new = (raise step s.val kind cause arg now d).evc.src.at s by rw [← number]]
    exact raise_src_same step s kind cause arg now d
  refine ⟨?count, ?room, ?full, ?latch, fun o other => raise_src_ne step src kind cause arg now d other, rfl, rfl⟩
  case count => rw [taken, Source.take_rcnt]
  case room =>
    intro edge room newer
    rw [taken, edge, Source.take_edge room newer]
    exact ⟨rfl, rfl⟩
  case full =>
    intro edge full
    have drops : Source.drops false old = true := by simpa [Source.drops] using full
    obtain ⟨four, dropped⟩ := Source.take_full (c := c) full
    rw [number, raise_evc_drops, edge, if_pos drops, taken, edge, satInc_eq_min 32]
    exact ⟨four, dropped.trans (satInc_eq_min 8 _), rfl⟩
  case latch =>
    intro level newer
    rw [taken, level, Source.take_level newer]

end Machine

end Sys2Proof

namespace Sys2Proof

namespace Machine

/-! ## R160, R183: the forms of integer instructions -/

/-- R161: an instruction of opcode `op` goes on behind its extension word, if it has one. -/
theorem go_words {s : State} {h : Chan} {v : Service} {op : Nat} (r : Ready s h v op) (rom : op < 0xE0) (c : Context) :
    (seenBy s h v).go c = goesOnTo s v (if romX op then 2 else 1) c := by
  have next : (seenBy s h v).next = v.ctx.pc.toNat + (if romX op then 2 else 1) := by
    rw [Env.next, seenBy_x r rom]
    rfl
  rw [Env.go, next]
  rfl

/-- An instruction whose ROM routine `g` goes on with the context `f` where `ok` holds. -/
theorem computes_of {i : Chan → Instr} {op len : Nat} {ok : Word → Context → Prop} {f : Word → Word → Context → Context}
    (g : Env → Staged) (he : ∀ h s, exec (i h) s = s.run (runOp op g h)) (rom : op < 0xE0)
    (words : len = if romX op then 2 else 1) (hg : ∀ e, ok e.word e.ctx → g e = e.go (f e.word e.ext e.ctx)) :
    Computes i op len ok f := by
  intro s h v r admitted
  have routine := hg (seenBy s h v) admitted
  rw [words, he, run_runOp r rom (by rw [routine]; rfl), routine, go_words r rom]
  rfl

/-- R175: an instruction whose ROM routine `g` faults on what `bad` holds of. -/
theorem faultsAs_of {i : Chan → Instr} {op code : Nat} {bad : Service → Word → Prop} (g : Env → Staged)
    (he : ∀ h s, exec (i h) s = s.run (runOp op g h)) (rom : op < 0xE0) (hg : ∀ e, bad e.svc e.word → g e = e.fault code) :
    FaultsAs i op code bad :=
  faultsOn_of (bad := fun e => bad e.svc e.word) _ he rom (fun e fails => by rw [hg e fails])

theorem Env.legal_false {e : Env} {ok : Bool} (h : ok = false) (r : Staged) : e.legal ok r = e.fault fIllegal := by
  rw [Env.legal, h]
  rfl

/-- R183: no bit of the fn field outside `mask` is set. -/
theorem fFn_and_eq_zero_iff (w : Word) (mask : Nat) :
    fFn w &&& (4095 ^^^ mask) = 0 ↔ ∀ i < 12, w.getLsbD i = true → mask.testBit i = true := by
  have all : (4095 : Nat) = 2 ^ 12 - 1 := by decide
  have bits : ∀ i, (fFn w &&& (4095 ^^^ mask)).testBit i = (decide (i < 12) && (w.getLsbD i && !mask.testBit i)) := by
    intro i
    rw [Nat.testBit_and, Nat.testBit_xor, all, Nat.testBit_two_pow_sub_one, fFn, testBit_fld]
    cases decide (i < 12) <;> simp
  constructor
  · intro zero i low set
    have := bits i
    simpa [zero, low, set] using this
  · intro within
    refine Nat.eq_of_testBit_eq (fun i => ?_)
    rw [bits, Nat.zero_testBit]
    by_cases low : i < 12
    · cases set : w.getLsbD i with
      | false => simp
      | true => simp [within i low set]
    · simp [low]

/-- R183: only the `n` low bits of the fn field may be set. -/
theorem fFn_and_low_iff (w : Word) (n : Nat) : fFn w &&& (4095 ^^^ (2 ^ n - 1)) = 0 ↔ fld w 11 0 < 2 ^ n := by
  rw [fFn_and_eq_zero_iff]
  constructor
  · intro within
    refine Nat.lt_pow_two_of_testBit _ (fun i high => ?_)
    rw [testBit_fld]
    by_cases low : i < 12
    · have := within i low
      rw [Nat.testBit_two_pow_sub_one, decide_eq_false (by omega)] at this
      simpa [low] using this
    · simp [low]
  · intro below i low set
    have bit : (fld w 11 0).testBit i = true := by rw [testBit_fld]; simp [low, set]
    have := Nat.ge_two_pow_of_testBit bit
    rw [Nat.testBit_two_pow_sub_one, decide_eq_true]
    exact (Nat.pow_lt_pow_iff_right (by decide)).mp (lt_of_le_of_lt this below)

/-- R183: in format R with the fn bits `mask` the routine `k` runs on g[a] and g[b]. -/
theorem formR_of {e : Env} {mask : Nat} (fn : fFn e.word &&& (4095 ^^^ mask) = 0) (k : Word → Word → Staged) :
    e.formR mask k = k (gA e.word e.ctx) (gB e.word e.ctx) := Env.legal_of (beq_iff_eq.mpr fn) _

theorem formR_illegal {e : Env} {mask : Nat} (fn : fFn e.word &&& (4095 ^^^ mask) ≠ 0) (k : Word → Word → Staged) :
    e.formR mask k = e.fault fIllegal := Env.legal_false (beq_eq_false_iff_ne.mpr fn) _

theorem formR_zero {e : Env} (fn : fld e.word 11 0 = 0) (k : Word → Word → Staged) :
    e.formR 0 k = k (gA e.word e.ctx) (gB e.word e.ctx) := 
  formR_of ((fFn_and_low_iff e.word 0).mpr (by rw [fn]; decide)) k

theorem formR_zero_illegal {e : Env} (fn : fld e.word 11 0 ≠ 0) (k : Word → Word → Staged) :
    e.formR 0 k = e.fault fIllegal :=
  formR_illegal (fun zero => fn (Nat.lt_one_iff.mp ((fFn_and_low_iff e.word 0).mp zero))) k

/-- The low bits of an integer are the word that stands for it. -/
theorem w32i_eq (i : Int) : w32i i = BitVec.ofInt 32 i := by
  apply BitVec.eq_of_toNat_eq
  rw [w32i, BitVec.toNat_ofNat, BitVec.toNat_ofInt, Nat.mod_eq_of_lt (lowBits_lt 32 i), lowBits]

theorem sImm_eq (e : Env) : sImm e.word = immS e.word e.ctx := w32i_eq _

/-! ## R184, R185: sums, differences and logic -/

section Sums
variable (e : Env) (x : Word → Context → Word)

theorem doAdd_eq : e.doAdd (gA e.word e.ctx) (x e.word e.ctx) = e.go (addTo x e.word e.ext e.ctx) := rfl
theorem doSub_eq : e.doSub (gA e.word e.ctx) (x e.word e.ctx) = e.go (subTo x e.word e.ext e.ctx) := rfl
theorem doLogic_eq (f : Word → Word → Word) :
    e.doLogic (f (gA e.word e.ctx) (x e.word e.ctx)) = e.go (logicTo f x e.word e.ext e.ctx) := rfl

/-- R183: CMP has d = 0. -/
theorem doCmp_eq (d : fld e.word 23 20 = 0) :
    e.doCmp (gA e.word e.ctx) (x e.word e.ctx) = e.go (cmpTo x e.word e.ext e.ctx) :=
  Env.legal_of (beq_iff_eq.mpr d) _

theorem doCmp_illegal (a b : Word) (d : fld e.word 23 20 ≠ 0) : e.doCmp a b = e.fault fIllegal :=
  Env.legal_false (beq_eq_false_iff_ne.mpr d) _

end Sums

/-- R183: the fn field of a register form without modifiers must be 0. -/
theorem illFormed_fn {i : Chan → Instr} {op : Nat} (k : Env → Word → Word → Staged)
    (he : ∀ h s, exec (i h) s = s.run (runOp op (fun e => e.formR 0 (k e)) h)) (rom : op < 0xE0) :
    IllFormed i op (fun w => fld w 11 0 ≠ 0) := faultsAs_of _ he rom (fun _ fn => formR_zero_illegal fn _)

/-- R183: CMP, register form, with a field that is not 0. -/
theorem insCmp_illegal {e : Env} (bad : fld e.word 11 0 ≠ 0 ∨ fld e.word 23 20 ≠ 0) : insCmp e = e.fault fIllegal := by
  by_cases fn : fld e.word 11 0 = 0
  · exact (formR_zero fn _).trans (doCmp_illegal e _ _ (bad.resolve_left (not_not_intro fn)))
  · exact formR_zero_illegal fn _

/-- Settles O7: each routine passes its field checks and is then the operation on its operands, or ends in the check that
fails. -/
theorem addSubLogic : Obligations.AddSubLogic := by
  unfold Obligations.AddSubLogic
  refine ⟨computes_of insAdd (fun _ _ => rfl) (by decide) rfl ?add, computes_of insAddI (fun _ _ => rfl) (by decide) rfl ?addI,
    computes_of insSub (fun _ _ => rfl) (by decide) rfl ?sub, computes_of insSubI (fun _ _ => rfl) (by decide) rfl ?subI,
    computes_of insCmp (fun _ _ => rfl) (by decide) rfl ?cmp, computes_of insCmpI (fun _ _ => rfl) (by decide) rfl ?cmpI,
    computes_of insAnd (fun _ _ => rfl) (by decide) rfl ?and, computes_of insAndI (fun _ _ => rfl) (by decide) rfl ?andI,
    computes_of insOr (fun _ _ => rfl) (by decide) rfl ?or, computes_of insOrI (fun _ _ => rfl) (by decide) rfl ?orI,
    computes_of insXor (fun _ _ => rfl) (by decide) rfl ?xor, computes_of insXorI (fun _ _ => rfl) (by decide) rfl ?xorI,
    computes_of insLdi (fun _ _ => rfl) (by decide) rfl ?ldi,
    illFormed_fn Env.doAdd (fun _ _ => rfl) (by decide), illFormed_fn Env.doSub (fun _ _ => rfl) (by decide),
    illFormed_fn (fun e a b => e.doLogic (a &&& b)) (fun _ _ => rfl) (by decide),
    illFormed_fn (fun e a b => e.doLogic (a ||| b)) (fun _ _ => rfl) (by decide),
    illFormed_fn (fun e a b => e.doLogic (a ^^^ b)) (fun _ _ => rfl) (by decide),
    faultsAs_of insCmp (fun _ _ => rfl) (by decide) (fun _ bad => insCmp_illegal bad),
    faultsAs_of insCmpI (fun _ _ => rfl) (by decide) (fun e d => doCmp_illegal e _ _ d),
    faultsAs_of insLdi (fun _ _ => rfl) (by decide) ?noLdi⟩
  case add => exact fun e fn => (formR_zero fn _).trans (doAdd_eq e gB)
  case addI => exact fun e _ => by rw [insAddI, sImm_eq]; exact doAdd_eq e immS
  case sub => exact fun e fn => (formR_zero fn _).trans (doSub_eq e gB)
  case subI => exact fun e _ => by rw [insSubI, sImm_eq]; exact doSub_eq e immS
  case cmp =>
    rintro e ⟨fn, d⟩
    exact (formR_zero fn _).trans (doCmp_eq e gB d)
  case cmpI => exact fun e d => by rw [insCmpI, sImm_eq]; exact doCmp_eq e immS d
  case and => exact fun e fn => (formR_zero fn _).trans (doLogic_eq e gB _)
  case andI => exact fun e _ => doLogic_eq e immZ _
  case or => exact fun e fn => (formR_zero fn _).trans (doLogic_eq e gB _)
  case orI => exact fun e _ => doLogic_eq e immZ _
  case xor => exact fun e fn => (formR_zero fn _).trans (doLogic_eq e gB _)
  case xorI => exact fun e _ => doLogic_eq e immZ _
  case ldi =>
    rintro e ⟨a, imm⟩
    exact Env.legal_of (by simp [fA, fImm, a, imm]) _
  case noLdi => exact fun e bad => Env.legal_false (by simpa [fA, fImm, imp_iff_not_or] using bad) _

end Machine

end Sys2Proof

namespace Sys2Proof

namespace Machine

/-! ## R184: products -/

section Products
variable (e : Env) (x : Word → Context → Word)

/-- R184: MUL with the modifiers `hi` and `u`. -/
theorem doMul_eq (hi u : Word → Bool) :
    e.doMul (hi e.word) (u e.word) (gA e.word e.ctx) (x e.word e.ctx) = e.go (mulTo hi u x e.word e.ext e.ctx) := by
  have overflow : mulOver (u e.word) (gA e.word e.ctx) (x e.word e.ctx) =
      if u e.word then decide (4294967296 ≤ mulFull (u e.word) (gA e.word e.ctx) (x e.word e.ctx))
      else outS 32 (mulFull (u e.word) (gA e.word e.ctx) (x e.word e.ctx)) := by
    cases u e.word with
    | false => rfl
    | true => exact decide_eq_decide.mpr (by simp only [mulFull, if_true]; omega)
  have full : mulFull (u e.word) (gA e.word e.ctx) (x e.word e.ctx) =
      if u e.word then ((gA e.word e.ctx).toNat : Int) * (x e.word e.ctx).toNat
      else (gA e.word e.ctx).toInt * (x e.word e.ctx).toInt := by rw [mulFull, Nat.cast_mul]
  simp only [Env.doMul, mulTo, overflow, w32i_eq]
  rw [full]
  rfl

/-- R184: MAC, its product shifted right by `n`. -/
theorem doMac_eq (n : Word → Nat) :
    e.doMac (n e.word) (gA e.word e.ctx) (x e.word e.ctx) = e.go (macTo n x e.word e.ext e.ctx) := by
  simp only [Env.doMac, w32i_eq]
  rfl

end Products

/-! ## R184, R185: shifts -/

section Shifts
variable (e : Env) (x : Word → Context → Word)

/-- R185: a shift by `k` with result `r` and last bit shifted out `out`. -/
theorem writeG_shiftFlags (r : Word) (k : Nat) (out : Bool) : e.writeG (e.ctx.shiftFlags r k out) r =
    e.go { intoG e.word r e.ctx with c := if k = 0 then e.ctx.c else out } := by
  unfold Context.shiftFlags
  split <;> rfl

theorem shlCarry_eq (a : Word) (k : Nat) : shlCarry a k = shlOut a k := by
  unfold shlCarry shlOut
  split <;> simp [*]

theorem asrW_eq (a : Word) (k : Nat) : asrW a k = asrBits a k := by
  unfold asrW asrBits
  rw [BitVec.sshiftRight, Int.shiftRight_eq_div_pow]
  rfl

theorem doShl_eq : e.doShl (gA e.word e.ctx) (x e.word e.ctx) = e.go (shiftTo shlBits shlOut x e.word e.ext e.ctx) := by
  simp only [Env.doShl, writeG_shiftFlags, shlCarry_eq]
  rfl

theorem doShr_eq : e.doShr (gA e.word e.ctx) (x e.word e.ctx) = e.go (shiftTo shrBits shrOut x e.word e.ext e.ctx) := by
  simp only [Env.doShr, writeG_shiftFlags]
  rfl

theorem doAsr_eq : e.doAsr (gA e.word e.ctx) (x e.word e.ctx) = e.go (shiftTo asrBits asrOut x e.word e.ext e.ctx) := by
  simp only [Env.doAsr, writeG_shiftFlags, asrW_eq]
  rfl

end Shifts

/-- R183: imm16 of an immediate shift is below 64. -/
theorem formShift_of {e : Env} (amount : fld e.word 15 0 < 64) (k : Word → Word → Staged) :
    e.formShift k = k (gA e.word e.ctx) (immZ e.word e.ctx) := Env.legal_of (decide_eq_true amount) _

theorem formShift_illegal {e : Env} (amount : 64 ≤ fld e.word 15 0) (k : Word → Word → Staged) :
    e.formShift k = e.fault fIllegal := Env.legal_false (decide_eq_false (Nat.not_lt.mpr amount)) _

theorem formR_low {e : Env} {n : Nat} (fn : fld e.word 11 0 < 2 ^ n) (k : Word → Word → Staged) :
    e.formR (2 ^ n - 1) k = k (gA e.word e.ctx) (gB e.word e.ctx) := formR_of ((fFn_and_low_iff e.word n).mpr fn) k

theorem formR_low_illegal {e : Env} {n : Nat} (fn : 2 ^ n ≤ fld e.word 11 0) (k : Word → Word → Staged) :
    e.formR (2 ^ n - 1) k = e.fault fIllegal :=
  formR_illegal (fun zero => Nat.not_lt.mpr fn ((fFn_and_low_iff e.word n).mp zero)) k

/-- Settles O8: each routine passes its field checks and is then the operation on its operands, or ends in the check that
fails. -/
theorem multiplyShift : Obligations.MultiplyShift := by
  unfold Obligations.MultiplyShift
  refine ⟨computes_of insMul (fun _ _ => rfl) (by decide) rfl ?mul, computes_of insMulI (fun _ _ => rfl) (by decide) rfl ?mulI,
    computes_of insMac (fun _ _ => rfl) (by decide) rfl ?mac, computes_of insMacI (fun _ _ => rfl) (by decide) rfl ?macI,
    computes_of insShl (fun _ _ => rfl) (by decide) rfl ?shl, computes_of insShlI (fun _ _ => rfl) (by decide) rfl ?shlI,
    computes_of insShr (fun _ _ => rfl) (by decide) rfl ?shr, computes_of insShrI (fun _ _ => rfl) (by decide) rfl ?shrI,
    computes_of insAsr (fun _ _ => rfl) (by decide) rfl ?asr, computes_of insAsrI (fun _ _ => rfl) (by decide) rfl ?asrI,
    faultsAs_of insMul (fun _ _ => rfl) (by decide) (fun _ fn => formR_low_illegal (n := 2) fn _),
    faultsAs_of insMac (fun _ _ => rfl) (by decide) (fun _ fn => formR_low_illegal (n := 5) fn _),
    illFormed_fn Env.doShl (fun _ _ => rfl) (by decide), illFormed_fn Env.doShr (fun _ _ => rfl) (by decide),
    illFormed_fn Env.doAsr (fun _ _ => rfl) (by decide),
    faultsAs_of insShlI (fun _ _ => rfl) (by decide) (fun _ amount => formShift_illegal amount _),
    faultsAs_of insShrI (fun _ _ => rfl) (by decide) (fun _ amount => formShift_illegal amount _),
    faultsAs_of insAsrI (fun _ _ => rfl) (by decide) (fun _ amount => formShift_illegal amount _)⟩
  case mul => exact fun e fn => (formR_low fn _).trans (doMul_eq e gB bit0 bit1)
  case mulI => exact fun e _ => by rw [insMulI, sImm_eq]; exact doMul_eq e immS never' never'
  case mac => exact fun e fn => (formR_low fn _).trans (doMac_eq e gB (fun w => fld w 4 0))
  case macI => exact fun e _ => by rw [insMacI, sImm_eq]; exact doMac_eq e immS (fun _ => 0)
  case shl => exact fun e fn => (formR_zero fn _).trans (doShl_eq e gB)
  case shlI => exact fun e amount => (formShift_of amount _).trans (doShl_eq e immZ)
  case shr => exact fun e fn => (formR_zero fn _).trans (doShr_eq e gB)
  case shrI => exact fun e amount => (formShift_of amount _).trans (doShr_eq e immZ)
  case asr => exact fun e fn => (formR_zero fn _).trans (doAsr_eq e gB)
  case asrI => exact fun e amount => (formShift_of amount _).trans (doAsr_eq e immZ)

end Machine

end Sys2Proof

namespace Sys2Proof

namespace Machine

/-! ## R184: MIN and MAX -/

/-- R183: in a register form whose only modifier is U, no other bit of the fn field may be set. -/
theorem fFn_and_u_iff (w : Word) : fFn w &&& (4095 ^^^ 2) = 0 ↔ fld w 11 2 = 0 ∧ fld w 0 0 = 0 := by
  have only : ∀ i, (2 : Nat).testBit i = true ↔ i = 1 := by
    intro i
    rw [show (2 : Nat) = 2 ^ 1 from rfl, Nat.testBit_two_pow, decide_eq_true_iff, eq_comm]
  rw [fFn_and_eq_zero_iff]
  constructor
  · intro within
    have clear : ∀ i < 12, i ≠ 1 → w.getLsbD i = false := fun i low other =>
      Bool.eq_false_iff.mpr (fun set => other ((only i).mp (within i low set)))
    refine ⟨Nat.eq_of_testBit_eq (fun i => ?_), Nat.eq_of_testBit_eq (fun i => ?_)⟩
    · rw [testBit_fld, Nat.zero_testBit]
      by_cases low : i < 11 + 1 - 2
      · rw [clear (2 + i) (by omega) (by omega), Bool.and_false]
      · simp [low]
    · rw [testBit_fld, Nat.zero_testBit]
      by_cases low : i < 0 + 1 - 0
      · rw [clear (0 + i) (by omega) (by omega), Bool.and_false]
      · simp [low]
  · rintro ⟨high, first⟩ i low set
    rw [only]
    have outside : ∀ {hi lo}, fld w hi lo = 0 → ¬ (lo ≤ i ∧ i ≤ hi) := by
      rintro hi lo zero ⟨above, below⟩
      have bit := testBit_fld w hi lo (i - lo)
      rw [zero, Nat.zero_testBit, decide_eq_true (by omega), Nat.add_sub_cancel' above, set] at bit
      simp at bit
    have := outside high
    have := outside first
    omega

theorem formR_u {e : Env} (fn : fld e.word 11 2 = 0 ∧ fld e.word 0 0 = 0) (k : Word → Word → Staged) :
    e.formR 2 k = k (gA e.word e.ctx) (gB e.word e.ctx) := formR_of ((fFn_and_u_iff e.word).mpr fn) k

theorem formR_u_illegal {e : Env} (fn : fld e.word 11 2 ≠ 0 ∨ fld e.word 0 0 ≠ 0) (k : Word → Word → Staged) :
    e.formR 2 k = e.fault fIllegal :=
  formR_illegal (fun zero => not_and_or.mpr fn ((fFn_and_u_iff e.word).mp zero)) k

theorem doMin_eq (e : Env) (u : Word → Bool) (x : Word → Context → Word) :
    e.doPick (leW (u e.word) (gA e.word e.ctx) (x e.word e.ctx)) (gA e.word e.ctx) (x e.word e.ctx) =
      e.go (pickTo u false x e.word e.ext e.ctx) := rfl

theorem doMax_eq (e : Env) (u : Word → Bool) (x : Word → Context → Word) :
    e.doPick (leW (u e.word) (x e.word e.ctx) (gA e.word e.ctx)) (gA e.word e.ctx) (x e.word e.ctx) =
      e.go (pickTo u true x e.word e.ext e.ctx) := rfl

/-! ## R186: SAT -/

/-- R186: SAT between bounds in order is a clamp, and V tells that it moved the value. -/
theorem doSat_eq (e : Env) (lo hi : Word → Context → Int) (ordered : lo e.word e.ctx ≤ hi e.word e.ctx) :
    e.doSat (gA e.word e.ctx) (lo e.word e.ctx) (hi e.word e.ctx) = e.go (satTo lo hi e.word e.ext e.ctx) := by
  have clamped : ∀ i l h : Int, l ≤ h → (if i < l then l else if h < i then h else i) = max l (min h i) := by
    intro i l h ordered
    omega
  have moved : ∀ i l h : Int, l ≤ h → (decide (i < l) || decide (h < i)) = decide (max l (min h i) ≠ i) := by
    intro i l h ordered
    rw [← Bool.decide_or]
    exact decide_eq_decide.mpr (by omega)
  simp only [Env.doSat, clamped _ _ _ ordered, moved _ _ _ ordered, w32i_eq]
  rfl

/-- R186: the least and the greatest value of SAT, register form. -/
def satLo (w : Word) (c : Context) : Int := if bit1 w then 0 else -(gB w c).toInt
def satHi (w : Word) (c : Context) : Int := if bit1 w then ((gB w c).toNat : Int) else (gB w c).toInt

/-- R186: SAT, register form, with U or with g[b] not negative. -/
theorem insSat_of {e : Env} (fn : fld e.word 11 2 = 0 ∧ fld e.word 0 0 = 0)
    (sign : bit1 e.word = false → (gB e.word e.ctx).getLsbD 31 = false) :
    insSat e = e.go (satTo satLo satHi e.word e.ext e.ctx) := by
  have u : fU e.word = bit1 e.word := rfl
  rw [insSat, formR_u fn, u]
  cases unsigned : bit1 e.word with
  | true =>
    have ordered : satLo e.word e.ctx ≤ satHi e.word e.ctx := by simp [satLo, satHi, unsigned]
    have := doSat_eq e satLo satHi ordered
    rwa [satLo, satHi, unsigned] at this
  | false =>
    have positive : (gB e.word e.ctx).msb = false := sign unsigned
    have ordered : satLo e.word e.ctx ≤ satHi e.word e.ctx := by
      have := BitVec.toInt_nonneg_of_msb_false positive
      simp only [satLo, satHi, unsigned, Bool.false_eq_true, if_false]
      omega
    have := doSat_eq e satLo satHi ordered
    rw [satLo, satHi, unsigned] at this
    rw [if_neg Bool.false_ne_true, Env.need_of (by rw [positive]; rfl)]
    exact this

/-- R175, R186: SAT without U at a negative g[b]. -/
theorem insSat_negative {e : Env} (fn : fld e.word 11 0 = 0) (sign : (gB e.word e.ctx).getLsbD 31 = true) :
    insSat e = e.fault fArith := by
  have zero : fFn e.word &&& (4095 ^^^ 0) = 0 := (fFn_and_low_iff e.word 0).mpr (by rw [fn]; decide)
  have within := (fFn_and_eq_zero_iff e.word 0).mp zero
  have signed : fU e.word = false := Bool.eq_false_iff.mpr (fun set => by simpa using within 1 (by decide) set)
  have negative : (gB e.word e.ctx).msb = true := sign
  have fits : fFn e.word &&& (4095 ^^^ 2) = 0 :=
    (fFn_and_eq_zero_iff e.word 2).mpr (fun i low set => by simpa using within i low set)
  rw [insSat, formR_of fits, signed, if_neg Bool.false_ne_true, Env.need_false (by rw [negative]; rfl)]

/-- R186: the least and the greatest value of SAT, immediate form. -/
def satLoI (w : Word) (_ : Context) : Int := if w.getLsbD 15 then 0 else -((2 ^ (fld w 5 0 - 1) : Nat) : Int)
def satHiI (w : Word) (_ : Context) : Int :=
  if w.getLsbD 15 then (2 ^ fld w 5 0 : Nat) - 1 else (2 ^ (fld w 5 0 - 1) : Nat) - 1

theorem satLoI_le (w : Word) (c : Context) : satLoI w c ≤ satHiI w c := by
  have := Nat.two_pow_pos (fld w 5 0)
  have := Nat.two_pow_pos (fld w 5 0 - 1)
  unfold satLoI satHiI
  split <;> omega

/-- R186: SAT, immediate form, with n from 1 to 32. -/
theorem insSatI_of {e : Env} (zero : fld e.word 14 6 = 0) (one : 1 ≤ fld e.word 5 0) (most : fld e.word 5 0 ≤ 32) :
    insSatI e = e.go (satTo satLoI satHiI e.word e.ext e.ctx) := by
  rw [insSatI, Env.legal_of (by simp [zero, one, most]), Env.formI, ← doSat_eq e satLoI satHiI (satLoI_le _ _), satLoI, satHiI]
  have u : bitOf e.word 15 = e.word.getLsbD 15 := rfl
  rw [u]
  cases e.word.getLsbD 15 <;> rfl

theorem insSatI_illegal {e : Env} (bad : fld e.word 14 6 ≠ 0 ∨ fld e.word 5 0 = 0 ∨ 32 < fld e.word 5 0) :
    insSatI e = e.fault fIllegal :=
  Env.legal_false (by
    rcases bad with high | low | beyond
    · simp [high]
    · simp [low]
    · simp [Nat.not_le.mpr beyond]) _

/-- Settles O9: each routine passes its field checks and is then the choice or the clamp, or ends in the check that fails. -/
theorem minMaxSat : Obligations.MinMaxSat := by
  unfold Obligations.MinMaxSat
  refine ⟨computes_of insMin (fun _ _ => rfl) (by decide) rfl (fun e fn => (formR_u fn _).trans (doMin_eq e bit1 gB)),
    computes_of insMinI (fun _ _ => rfl) (by decide) rfl ?minI,
    computes_of insMax (fun _ _ => rfl) (by decide) rfl (fun e fn => (formR_u fn _).trans (doMax_eq e bit1 gB)),
    computes_of insMaxI (fun _ _ => rfl) (by decide) rfl ?maxI, computes_of insSat (fun _ _ => rfl) (by decide) rfl ?sat,
    computes_of insSatI (fun _ _ => rfl) (by decide) rfl ?satI,
    faultsAs_of insMin (fun _ _ => rfl) (by decide) (fun _ fn => formR_u_illegal fn _),
    faultsAs_of insMax (fun _ _ => rfl) (by decide) (fun _ fn => formR_u_illegal fn _),
    faultsAs_of insSat (fun _ _ => rfl) (by decide) (fun _ fn => formR_u_illegal fn _),
    faultsAs_of insSatI (fun _ _ => rfl) (by decide) (fun _ bad => insSatI_illegal bad),
    faultsAs_of insSat (fun _ _ => rfl) (by decide) ?negative⟩
  case minI => exact fun e _ => by rw [insMinI, sImm_eq]; exact doMin_eq e never' immS
  case maxI => exact fun e _ => by rw [insMaxI, sImm_eq]; exact doMax_eq e never' immS
  case sat =>
    rintro e ⟨high, first, sign⟩
    exact insSat_of ⟨high, first⟩ sign
  case satI =>
    rintro e ⟨zero, one, most⟩
    exact insSatI_of zero one most
  case negative =>
    rintro e ⟨fn, sign⟩
    exact insSat_negative fn sign

end Machine

end Sys2Proof

namespace Sys2Proof

namespace Machine

/-! ## Fields and registers -/

/-- A field inside one that is 0 is 0. -/
theorem fld_inside {n : Nat} {w : BitVec n} {hi lo hi' lo' : Nat} (zero : fld w hi lo = 0) (above : lo ≤ lo')
    (below : hi' ≤ hi) : fld w hi' lo' = 0 := by
  refine Nat.eq_of_testBit_eq (fun i => ?_)
  have bit := testBit_fld w hi lo (lo' - lo + i)
  rw [zero, Nat.zero_testBit, show lo + (lo' - lo + i) = lo' + i by omega] at bit
  rw [testBit_fld, Nat.zero_testBit]
  by_cases inside : i < hi' + 1 - lo'
  · rw [decide_eq_true (by omega), Bool.true_and] at bit
    rw [← bit, Bool.and_false]
  · simp [inside]

/-- A bit inside a field that is 0 is clear. -/
theorem bitOf_inside {n : Nat} {w : BitVec n} {hi lo i : Nat} (zero : fld w hi lo = 0) (above : lo ≤ i) (below : i ≤ hi) :
    bitOf w i = false := by
  have bit := testBit_fld w hi lo (i - lo)
  rw [zero, Nat.zero_testBit, decide_eq_true (by omega), Nat.add_sub_cancel' above, Bool.true_and] at bit
  exact bit.symm

theorem regOk_of_aOk {w : Word} (h : aOk w) : regOk (fA w) = true := by
  unfold aOk at h
  simp [regOk, fA, h]

/-! ## R194: released contexts -/

/-- R171, R194: the context that LDC of register class `cls` leaves. -/
def ldcWrites (cls : Nat) (e : Env) : Context :=
  let v := (releasedOf e).classReg cls (fld e.word 3 0)
  match cls with
  | 1 => e.ctx.setT (fD e.word) (BitVec.ofNat 64 v)
  | 2 => e.ctx.setP (fD e.word) (BitVec.ofNat 48 v)
  | _ => e.ctx.setG (fD e.word) (w32 v)

/-- R194: LDC with fields and registers that exist. -/
theorem insLdc_of {e : Env} {cls : Nat} (fields : ldcFields cls e) (dest : cls = 0 ∨ cls = 3 ∨ dOk e.word)
    (source : ldcReg cls (fld e.word 3 0) = true) : insLdc e = e.go (ldcWrites cls e) := by
  obtain ⟨rfl, b, zero, inside⟩ := fields
  have legal : (fB e.word == 0 && fld e.word 9 4 == 0 &&
      (fld e.word 11 10 == 0 || fld e.word 11 10 == 3 || regOk (fD e.word))) = true := by
    have dest : fld e.word 11 10 = 0 ∨ fld e.word 11 10 = 3 ∨ regOk (fD e.word) = true :=
      dest.imp_right (fun k => k.imp_right regOk_of_dOk)
    simpa [fB, b, zero, or_assoc] using dest
  have known : (decide ((e.ctx.gr (fA e.word)).toNat < 512) && ldcReg (fld e.word 11 10) (fld e.word 3 0)) = true := by
    rw [source, Bool.and_true]
    exact decide_eq_true inside
  rw [insLdc, Env.legal_of legal, Env.need_of known]
  rfl

/-- A register read as a number is that register again. -/
theorem ofNat_toNat_same {n : Nat} (x : BitVec n) : BitVec.ofNat n x.toNat = x := by rw [BitVec.ofNat_toNat, BitVec.setWidth_eq]

/-! ## R196, R205, R206: tables -/

theorem tabOk_of_tableUp {e : Env} (h : tableUp e) : e.tabOk (tableSeen e) = true := by
  obtain ⟨defd, on⟩ := h
  rw [Env.tabOk, defd, on]
  rfl

/-- R196: LDA of a field that exists. -/
theorem insLda_of {e : Env} {f : Nat} (field : fld e.word 11 8 = f) (known : f ≤ 4 ∨ 8 ≤ f ∧ f ≤ 11)
    (zero : fld e.word 7 6 = 0) (b : fld e.word 15 12 = 0) (dest : f ≠ 0 ∨ dOk e.word) (up : tableUp e)
    (inside : (e.ctx.g.at (aField e)).toNat < (tableSeen e).len) :
    insLda e = e.go (e.ldaField (tableSeen e) f (entrySeen e)) := by
  subst field
  have legal : (fld e.word 7 6 == 0 && fB e.word == 0 &&
      (decide (fld e.word 11 8 ≤ 4) || (decide (8 ≤ fld e.word 11 8) && decide (fld e.word 11 8 ≤ 11))) &&
      (fld e.word 11 8 ≠ 0 || regOk (fD e.word))) = true := by
    have dest : fld e.word 11 8 ≠ 0 ∨ regOk (fD e.word) = true := dest.imp_right regOk_of_dOk
    simp only [fB, zero, b, Bool.and_eq_true, Bool.or_eq_true, decide_eq_true_eq]
    exact ⟨⟨⟨rfl, rfl⟩, known⟩, dest⟩
  have listed : (e.tabOk (tableSeen e) && decide ((e.ctx.gr (fA e.word)).toNat < (tableSeen e).len)) = true := by
    rw [tabOk_of_tableUp up]
    exact decide_eq_true inside
  exact (Env.legal_of legal _).trans (Env.need_of listed _ _)

/-- R205: a search leaves its index, Z and C. -/
theorem found_eq (e : Env) (r : Option (Nat × Bool)) : e.ctx.found (fD e.word) r = searched e r := by
  cases r <;> rfl

/-- R205: ALM of a time-keyed table. -/
theorem insAlm_of_time {e : Env} (zero : fld e.word 11 6 = 0) (b : fld e.word 15 12 = 0) (a : aOk e.word) (up : tableUp e)
    (time : (tableSeen e).time = true) (key : (e.ctx.t.at (aField4 e)).toNat < 281474976710656) :
    insAlm e = e.go (searched e (almSearch e.ram (tableSeen e) (e.ctx.t.at (aField4 e)).toNat)) := by
  have legal : (fld e.word 11 6 == 0 && fB e.word == 0 && regOk (fA e.word)) = true := by
    simp [fB, zero, b, regOk_of_aOk a]
  have listed : e.almOk (tableSeen e) (e.ctx.tr (fA e.word)) = true := by
    rw [Env.almOk, tabOk_of_tableUp up, time]
    exact decide_eq_true key
  have sought : e.searchKey (tableSeen e) (e.ctx.pr (fA e.word)) (e.ctx.tr (fA e.word)) =
      ((e.ctx.t.at (aField4 e)).toNat : Int) := by
    rw [Env.searchKey, if_pos time]
    rfl
  refine (Env.legal_of legal _).trans ((Env.need_of listed _ _).trans ?_)
  rw [← found_eq, ← sought]
  rfl

/-- R206: the field checks of ALMN. -/
theorem almn_legal {w : Word} (zero : fld w 11 6 = 0) (b : fld w 15 12 = 0) : (fld w 11 6 == 0 && fB w == 0) = true := by
  simp [fB, zero, b]

/-- R206: ALMN from an entry of its table. -/
theorem insAlmn_of {e : Env} (zero : fld e.word 11 6 = 0) (b : fld e.word 15 12 = 0) (up : tableUp e)
    (inside : (e.ctx.g.at (aField e)).toNat < (tableSeen e).len) :
    insAlmn e = e.go (searched e (almNext (tableSeen e) (e.ctx.g.at (aField e)).toNat)) := by
  have listed : (e.tabOk (tableSeen e) && decide ((e.ctx.gr (fA e.word)).toNat < (tableSeen e).len)) = true := by
    rw [tabOk_of_tableUp up]
    exact decide_eq_true inside
  rw [← found_eq]
  exact (Env.legal_of (almn_legal zero b) _).trans (Env.need_of listed _ _)

/-- R224: ALMN of a table that is not defined. -/
theorem insAlmn_undefined {e : Env} (zero : fld e.word 11 6 = 0) (b : fld e.word 15 12 = 0)
    (undefined : (tableSeen e).defd = false) : insAlmn e = e.fault fAlmrange := by
  have unlisted : (e.tabOk (tableSeen e) && decide ((e.ctx.gr (fA e.word)).toNat < (tableSeen e).len)) = false := by
    rw [Env.tabOk, undefined]
    rfl
  exact (Env.legal_of (almn_legal zero b) _).trans (Env.need_false unlisted _ _)

/-- Settles O16: each routine passes its checks and then reads the register, the field or the search result, or ends in the
check that fails. -/
theorem contextAndAlmanacReads : Obligations.ContextAndAlmanacReads := by
  unfold Obligations.ContextAndAlmanacReads
  refine ⟨runs_of_rom insLdc (fun _ _ => rfl) (by decide) ?g (fun _ => rfl),
    runs_of_rom insLdc (fun _ _ => rfl) (by decide) ?t (fun _ => rfl),
    runs_of_rom insLdc (fun _ _ => rfl) (by decide) ?p (fun _ => rfl),
    runs_of_rom insLdc (fun _ _ => rfl) (by decide) ?state (fun _ => rfl),
    runs_of_rom insLda (fun _ _ => rfl) (by decide) ?key (fun _ => rfl),
    runs_of_rom insLda (fun _ _ => rfl) (by decide) ?raw (fun _ => rfl),
    runs_of_rom insAlm (fun _ _ => rfl) (by decide) ?alm (fun _ => rfl),
    runs_of_rom insAlmn (fun _ _ => rfl) (by decide) ?almn (fun _ => rfl),
    faultsOn_of _ (fun _ _ => rfl) (by decide) ?undefined⟩
  case g =>
    intro e fields
    rw [insLdc_of fields (.inl rfl) rfl]
    exact congrArg (fun x => e.go (e.ctx.setG (fD e.word) x)) (ofNat_toNat_same _)
  case t =>
    rintro e ⟨fields, d, source⟩
    rw [insLdc_of fields (.inr (.inr d)) (by simp [ldcReg, source])]
    exact congrArg (fun x => e.go (e.ctx.setT (fD e.word) x)) (ofNat_toNat_same _)
  case p =>
    rintro e ⟨fields, d, source⟩
    rw [insLdc_of fields (.inr (.inr d)) (by simp [ldcReg, source])]
    exact congrArg (fun x => e.go (e.ctx.setP (fD e.word) x)) (ofNat_toNat_same _)
  case state =>
    rintro e ⟨fields, source⟩
    rw [insLdc_of fields (.inr (.inl rfl)) (by rw [source]; rfl)]
    exact congrArg (fun x => e.go (e.ctx.setG (fD e.word) x)) (ofNat_toNat_same _)
  case key =>
    rintro e ⟨zero, b, d, up, time, inside⟩
    rw [insLda_of (fld_inside zero (by decide) (by decide)) (.inl (Nat.zero_le 4)) (fld_inside zero (by decide) (by decide)) b
      (.inr d) up inside, Env.ldaField, time]
    rfl
  case raw =>
    rintro e ⟨first, last, zero, b, up, inside⟩
    rw [insLda_of rfl (.inr ⟨first, last⟩) zero b (.inl (by omega)) up inside]
    obtain field | field | field | field :
      fld e.word 11 8 = 8 ∨ fld e.word 11 8 = 9 ∨ fld e.word 11 8 = 10 ∨ fld e.word 11 8 = 11 := by omega
    all_goals
      rw [field]
      rfl
  case alm =>
    rintro e ⟨zero, b, a, up, time, key⟩
    exact insAlm_of_time zero b a up time key
  case almn =>
    rintro e ⟨zero, b, up, inside⟩
    exact insAlmn_of zero b up inside
  case undefined =>
    rintro e ⟨zero, b, undefined⟩
    rw [insAlmn_undefined zero b undefined]
    rfl

end Machine

end Sys2Proof

namespace Sys2Proof

namespace Machine

/-! ## R164 to R166, R207: WAIT -/

section Waits
variable {e : Env}

/-- R207: the field checks of WAIT of kind TIME. -/
theorem waitLegal_time (kind : fld e.word 23 20 = 0) (a : aOk e.word) (zero : fld e.word 12 0 = 0)
    (timeout : e.word.getLsbD 15 = true ∨ fld e.word 14 13 = 0) : waitLegal e.word = true := by
  have fields : (fld e.word 12 8 == 0 && (bitOf e.word 15 || fld e.word 14 13 == 0)) = true := by
    simpa [fld_inside zero, bitOf] using timeout
  have arg : (regOk (fA e.word) && fld e.word 7 0 == 0) = true := by simp [fld_inside zero, regOk_of_aOk a]
  unfold waitLegal
  dsimp only
  rw [fields, show fD e.word = 0 from kind]
  exact arg

/-- R207: WAIT of kind TIME compares with t[a]. -/
theorem insWait_time (kind : fld e.word 23 20 = 0) (legal : waitLegal e.word = true) : insWait e = e.doWait e.home := by
  have inRange : waitInRange e.word = true := by rw [waitInRange, show fD e.word = 0 from kind]; rfl
  have member : waitMember (fD e.word) = false := by rw [show fD e.word = 0 from kind]; rfl
  rw [insWait, Env.legal_of legal, Env.need_of inRange, member, if_neg Bool.false_ne_true]

/-- R207: a reserved kind of WAIT. -/
theorem insWait_reserved (kind : 6 ≤ fld e.word 23 20) (zero : fld e.word 15 0 = 0) : insWait e = e.fault fWaitbad := by
  obtain ⟨k, reserved⟩ : ∃ k, fD e.word = k + 6 := ⟨fld e.word 23 20 - 6, by rw [fD]; omega⟩
  have legal : waitLegal e.word = true := by
    unfold waitLegal
    dsimp only
    rw [reserved]
    simp [fld_inside zero]
  have outside : waitInRange e.word = false := by rw [waitInRange, reserved]; rfl
  rw [insWait, Env.legal_of legal, Env.need_false outside]

/-- R165: WAIT of kind TIME once its time has come. -/
theorem doWait_time_come (kind : fld e.word 23 20 = 0) (come : (e.ctx.t.at (aField4 e)).toNat ≤ e.svc.view.at') :
    e.doWait e.home = e.go { e.ctx with z := false } := by
  have holds : e.waitHolds 0 (fld e.word 7 0) e.home (e.ctx.tr (fA e.word)) = true := decide_eq_true come
  rw [Env.doWait, show fD e.word = 0 from kind]
  simp [holds, Env.waitLoad]

/-- R166: WAIT of kind TIME before its time, once its timeout has come. -/
theorem doWait_time_late (kind : fld e.word 23 20 = 0) (early : e.svc.view.at' < (e.ctx.t.at (aField4 e)).toNat)
    (set : e.word.getLsbD 15 = true) (late : (e.ctx.t.at (Fin.ofNat 4 (fld e.word 14 13))).toNat ≤ e.svc.view.at') :
    e.doWait e.home = e.go { e.ctx with z := true } := by
  have fails : e.waitHolds 0 (fld e.word 7 0) e.home (e.ctx.tr (fA e.word)) = false :=
    decide_eq_false (Nat.not_le.mpr early)
  have expired : (bitOf e.word 15 && decide ((e.ctx.tr (fld e.word 14 13)).toNat ≤ e.svc.view.at')) = true :=
    Bool.and_eq_true_iff.mpr ⟨set, decide_eq_true late⟩
  rw [Env.doWait, show fD e.word = 0 from kind]
  dsimp only
  rw [if_pos rfl, fails, if_neg Bool.false_ne_true, if_pos expired]

/-- R165: WAIT of kind TIME before its time, without a timeout. -/
theorem doWait_time_blocks (kind : fld e.word 23 20 = 0) (early : e.svc.view.at' < (e.ctx.t.at (aField4 e)).toNat)
    (clear : bitOf e.word 15 = false) (arg : fld e.word 7 0 = 0) :
    e.doWait e.home = e.block (.wait 0 (aField e) 0 e.home none) := by
  have fails : e.waitHolds 0 0 e.home (e.ctx.tr (fA e.word)) = false := decide_eq_false (Nat.not_le.mpr early)
  rw [Env.doWait, show fD e.word = 0 from kind, arg, clear]
  dsimp only
  rw [if_pos rfl, fails]
  rfl

end Waits

/-- Settles O19: WAIT of kind TIME is one comparison with the view boundary, and then one of its timeout. -/
theorem waitInstruction : Obligations.WaitInstruction := by
  unfold Obligations.WaitInstruction
  refine ⟨runs_of_rom insWait (fun _ _ => rfl) (by decide) ?come (fun _ => rfl),
    runs_of_rom insWait (fun _ _ => rfl) (by decide) ?timeout (fun _ => rfl),
    runs_of_rom insWait (fun _ _ => rfl) (by decide) ?waits (fun _ => rfl),
    faultsOn_of _ (fun _ _ => rfl) (by decide) ?reserved⟩
  case come =>
    rintro e ⟨kind, a, zero, come⟩
    have legal := waitLegal_time kind a (fld_inside zero (by decide) (by decide))
      (.inr (fld_inside zero (by decide) (by decide)))
    rw [insWait_time kind legal, doWait_time_come kind come]
  case timeout =>
    rintro e ⟨kind, a, set, zero, early, late⟩
    rw [insWait_time kind (waitLegal_time kind a zero (.inl set)), doWait_time_late kind early set late]
  case waits =>
    rintro e ⟨kind, a, zero, early⟩
    have low : fld e.word 12 0 = 0 := fld_inside zero (by decide) (by decide)
    have clear : bitOf e.word 15 = false := bitOf_inside zero (by decide) (by decide)
    rw [insWait_time kind (waitLegal_time kind a low (.inr (fld_inside zero (by decide) (by decide)))),
      doWait_time_blocks kind early clear (fld_inside zero (by decide) (by decide))]
    rfl
  case reserved =>
    rintro e ⟨kind, zero⟩
    rw [insWait_reserved kind zero]
    rfl

end Machine

end Sys2Proof

namespace Sys2Proof

namespace Machine

/-! ## R156: fetches beyond program memory -/

/-- R182: the word tells whether a second one belongs to it. -/
theorem seenBy_x_of_word {s : State} {h : Chan} {v : Service} {op : Nat} (word : fld (insWord s v) 31 24 = op)
    (low : op < 0xE0) : (seenBy s h v).x = romX op := by
  have x : (seenBy s h v).x = s.core.dev.hlm.extends (fld (insWord s v) 31 24) := rfl
  rw [x, word, Helm.extends, if_pos low]

/-- R156: a two-word instruction of the ROM that begins in the last word of program memory. -/
theorem fallsOff_of {i : Chan → Instr} {op : Nat} (f : Env → Staged)
    (he : ∀ h s, exec (i h) s = s.run (runOp op f h)) (low : op < 0xE0) (two : romX op = true) : FallsOff i op := by
  intro s h v svc count inside going word last
  have extended : (seenBy s h v).x = true := (seenBy_x_of_word word low).trans two
  have mine : opOf (envOf h v s.mt s.core).word = op := word
  have beyond : (envOf h v s.mt s.core).execute (fun e => Env.rom (f e)) = ⟨(seenBy s h v).fault fPcrange, [], none, 0⟩ :=
    Env.execute_beyond extended last
  rw [he, State.run_next, runOp, runInstr_runs svc (canRun_of count inside going) (by rw [mine]; exact beq_self_eq_true op),
    beyond]
  exact congrArg _ (stage_afterRoutine svc rfl)

/-! ## R160, R179: the ILLEGAL_OPCODE command -/

section IllegalOpcodes
variable {s : State} {h : Chan} {v : Service}

theorem exec_illegalOpcode (h : Chan) (s : State) : exec (.illegalOpcode h) s = s.run (illegalOpcode h) := rfl

/-- R156: the fetch of a service whose context lies beyond program memory. -/
theorem run_illegalOpcode_past (svc : (s.core.dev.chn.at h).prog.svc = some v) (count : v.count < 1024)
    (past : v.ctx.past = true) (going : ∀ r, v.staged.getLast? = some r → r.fin = .go) :
    s.run (illegalOpcode h) = .next (afterRoutine s h v (faultsWith s v 2)) := by
  have may : canRun { v with ctx := { v.ctx with past := false } } = true := canRun_of count rfl going
  have fetched : illegalOpcode h s.mt s.core = stage h s.mt ⟨(seenBy s h v).fault fPcrange, [], none, 0⟩ s.core := by
    simp only [illegalOpcode, svc, may, past, if_true]
    rfl
  rw [State.run_next, fetched]
  exact congrArg _ (stage_afterRoutine svc rfl)

/-- R160: an opcode of one word without a ROM routine and without a record of the image. -/
theorem run_illegalOpcode_reserved {op : Nat} (r : Ready s h v op) (low : op < 0xE0) (one : romX op = false)
    (reserved : ∀ e, romRoutine op e = e.fault fIllegal) :
    s.run (illegalOpcode h) = .next (afterRoutine s h v (faultsWith s v 1)) := by
  have x : (envOf h v s.mt s.core).x = false := (seenBy_x r low).trans one
  obtain ⟨svc, count, inside, going, word, record, _⟩ := r
  have may : canRun { v with ctx := { v.ctx with past := false } } = true := canRun_of count rfl going
  have opcode : opOf (envOf h v s.mt s.core).word = op := word
  have unpatched : (envOf h v s.mt s.core).d.hlm.openRec op = none := record
  have found : ((envOf h v s.mt s.core).fault fIllegal).illegal = true := rfl
  have faulted : illegalOpcode h s.mt s.core =
      stage h s.mt ⟨(envOf h v s.mt s.core).fault fIllegal, [], none, 0⟩ s.core := by
    simp [illegalOpcode, svc, may, inside, opcode, unpatched, reserved, x, low, found]
  rw [State.run_next, faulted]
  exact congrArg _ (stage_afterRoutine svc rfl)

/-- R253: an opcode without a ROM routine for which the image holds a record. -/
theorem run_illegalOpcode_open {op : Nat} {k : DispRec} (svc : (s.core.dev.chn.at h).prog.svc = some v)
    (count : v.count < 1024) (inside : v.ctx.past = false) (going : ∀ r, v.staged.getLast? = some r → r.fin = .go)
    (word : fld (insWord s v) 31 24 = op) (low : op < 0xE0) (one : romX op = false) (unassigned : romValid op = false)
    (record : s.core.dev.hlm.openRec op = some k) :
    s.run (illegalOpcode h) =
      .next { s with core := stage h s.mt ((seenBy s h v).routine k.uaddr.toNat) s.core } := by
  have may : canRun { v with ctx := { v.ctx with past := false } } = true := canRun_of count rfl going
  have opcode : opOf (envOf h v s.mt s.core).word = op := word
  have patched : (envOf h v s.mt s.core).d.hlm.openRec op = some k := record
  have x : (envOf h v s.mt s.core).x = false := (seenBy_x_of_word word low).trans one
  have runs : illegalOpcode h s.mt s.core = stage h s.mt ((seenBy s h v).routine k.uaddr.toNat) s.core := by
    simp only [illegalOpcode, svc, may, inside, opcode, patched, unassigned, low, Env.execute, x]
    rfl
  rw [State.run_next, runs]

end IllegalOpcodes

/-- R160, R182: the reserved opcodes at the ends of the ROM's runs of opcodes: none has a routine. -/
theorem reserved_romRoutine {op : Nat}
    (mem : op ∈ [0x00, 0x10, 0x1F, 0x27, 0x38, 0x46, 0x59, 0x65, 0x72, 0x7A, 0x81, 0x8B, 0x94, 0xDF]) :
    op < 0xE0 ∧ romX op = false ∧ ∀ e, romRoutine op e = e.fault fIllegal := by
  fin_cases mem <;> exact ⟨by decide, rfl, fun _ => rfl⟩

/-- R182, R253: those of them that an image may give a routine. -/
theorem unassigned_romX {op : Nat} (mem : op ∈ [0x10, 0x1F, 0x27, 0x38, 0x46, 0x59, 0x65, 0x72, 0x7A, 0x81]) :
    op < 0xE0 ∧ romX op = false ∧ romValid op = false := by
  fin_cases mem <;> decide

/-! ## R215, R246: customer opcodes -/

section Customers
variable {s : State} {h : Chan} {v : Service}

/-- R215: a customer opcode of one word runs what its record names. -/
theorem run_uop (svc : (s.core.dev.chn.at h).prog.svc = some v) (may : canRun v = true)
    (customer : 0xE0 ≤ fld (insWord s v) 31 24) (one : (seenBy s h v).x = false) :
    exec (.uop h) s = .next { s with core := stage h s.mt (insUop (seenBy s h v)) s.core } := by
  have mine : decide (0xE0 ≤ opOf (envOf h v s.mt s.core).word) = true := decide_eq_true customer
  have runs : (envOf h v s.mt s.core).execute insUop = insUop (seenBy s h v) := by
    refine Env.execute_rom (fun x => ?_) (fun low => absurd low (Nat.not_lt.mpr customer))
    rw [show (envOf h v s.mt s.core).x = false from one] at x
    exact absurd x Bool.false_ne_true
  rw [show exec (.uop h) s = s.run (runInstr (fun o => decide (0xE0 ≤ o)) insUop h) from rfl, State.run_next,
    runInstr_runs svc may mine, runs]

/-- R252: a customer opcode is of two words only if its record says so. -/
theorem seenBy_x_customer {o : Option DispRec} (customer : 0xE0 ≤ fld (insWord s v) 31 24)
    (record : s.core.dev.hlm.openRec (fld (insWord s v) 31 24) = o) (one : ∀ k, o = some k → k.x = false) :
    (seenBy s h v).x = false := by
  have x : (seenBy s h v).x = s.core.dev.hlm.extends (fld (insWord s v) 31 24) := rfl
  rw [x, Helm.extends, if_neg (Nat.not_lt.mpr customer), record]
  cases o with
  | none => rfl
  | some k => exact one k rfl

/-- R249: a routine whose first microword is END makes no write and goes on. -/
theorem routine_end {e : Env} {u : Nat} (word : e.microword u = some 0xFC00_0000) :
    e.routine u = ⟨e.go e.ctx, [], none, 32⟩ := by
  have ends : ∀ (k : Nat) (m : Mst), e.uRun (k + 1) u m = ⟨m.out, m.reads, none, 32⟩ := by
    intro k m
    rw [Env.uRun, word]
    rfl
  exact ends 4095 _

/-- R250: free values that a routine took change nothing but their count. -/
theorem stage_frees (now : Nat) (r : Staged) (n : Nat) (c : Core) : stage h now ⟨r, [], none, n⟩ c =
    { stage h now ⟨r, [], none, 0⟩ c with
      dev := { (stage h now ⟨r, [], none, 0⟩ c).dev with free := c.dev.free + n } } := rfl

/-- R250: such a routine is staged. -/
theorem stage_end (svc : (s.core.dev.chn.at h).prog.svc = some v) (one : (seenBy s h v).x = false) {u : Nat}
    (word : (seenBy s h v).microword u = some 0xFC00_0000) :
    ({ s with core := stage h s.mt ((seenBy s h v).routine u) s.core } : State) =
      (afterRoutine s h v (goesOnTo s v 1 v.ctx)).withDev
        { (afterRoutine s h v (goesOnTo s v 1 v.ctx)).core.dev with free := s.core.dev.free + 32 } := by
  have next : (seenBy s h v).go (seenBy s h v).ctx = goesOnTo s v 1 v.ctx := by
    rw [Env.go, Env.next, one]
    rfl
  rw [routine_end word, next, stage_frees, ← stage_afterRoutine svc (r := goesOnTo s v 1 v.ctx) rfl]
  rfl

end Customers

/-- Settles O20: the two ends of a service are ROM routines; the faults and the routine of an image record come from the
branch of the fetch that finds them. -/
theorem controlInstructions : Obligations.ControlInstructions := by
  unfold Obligations.ControlInstructions
  have ended : ∀ {w : Word}, fld w 23 0 = 0 → (fld w 23 0 == 0) = true := beq_iff_eq.mpr
  refine ⟨runs_of_rom insYield (fun _ _ => rfl) (by decide) (fun e zero => Env.legal_of (ended zero) _) (fun _ => rfl),
    runs_of_rom insHalt (fun _ _ => rfl) (by decide) (fun e zero => Env.legal_of (ended zero) _) (fun _ => rfl),
    ?reserved, ?customer, fallsOff_of insLdi (fun _ _ => rfl) (by decide) rfl,
    fallsOff_of insTaddI (fun _ _ => rfl) (by decide) rfl, fallsOff_of insPaddI (fun _ _ => rfl) (by decide) rfl,
    fallsOff_of insCfg (fun _ _ => rfl) (by decide) rfl,
    fun s h v svc count past going => run_illegalOpcode_past svc count past going, ?record⟩
  case reserved =>
    intro op mem s h v r _
    obtain ⟨low, one, routine⟩ := reserved_romRoutine mem
    exact run_illegalOpcode_reserved r low one routine
  case customer =>
    intro op customer s h v r _
    have may := canRun_of_ready r
    obtain ⟨svc, _, _, _, word, record, _⟩ := r
    subst word
    have faulted : insUop (seenBy s h v) = ⟨(seenBy s h v).fault fUop, [], none, 0⟩ := by
      have unknown : (seenBy s h v).d.hlm.openRec (opOf (seenBy s h v).word) = none := record
      rw [insUop, unknown]
    rw [run_uop svc may customer (seenBy_x_customer customer record (by simp)), faulted]
    exact congrArg _ (stage_afterRoutine svc rfl)
  case record =>
    intro s h v k svc count inside going opcode record short word
    refine ⟨s.core.dev.free + 32, ?_⟩
    rcases opcode with customer | unassigned
    · have one : (seenBy s h v).x = false := seenBy_x_customer customer record (by rintro _ ⟨⟩; exact short)
      have routine : insUop (seenBy s h v) = (seenBy s h v).routine k.uaddr.toNat := by
        have known : (seenBy s h v).d.hlm.openRec (opOf (seenBy s h v).word) = some k := record
        rw [insUop, known]
      rw [if_pos customer, run_uop svc (canRun_of count inside going) customer one, routine, stage_end svc one word]
    · obtain ⟨low, one, invalid⟩ := unassigned_romX unassigned
      have x : (seenBy s h v).x = false := (seenBy_x_of_word rfl low).trans one
      rw [if_neg (Nat.not_le.mpr low), exec_illegalOpcode,
        run_illegalOpcode_open svc count inside going rfl low one invalid record, stage_end svc x word]

end Machine

end Sys2Proof

namespace Sys2Proof

namespace Machine

/-! ## R164 to R168: waits -/

theorem exec_waitSatisfied (h : Chan) (s : State) :
    exec (.waitSatisfied h) s = s.runDev (wakeIf WaitState.isWait waitMet h) := rfl
theorem exec_implicitWaitSatisfied (h : Chan) (s : State) :
    exec (.implicitWaitSatisfied h) s = s.runDev (wakeIf WaitState.isImplicit waitMet h) := rfl
theorem exec_waitTimeout (h : Chan) (s : State) :
    exec (.waitTimeout h) s = s.runDev (wakeIf WaitState.isWait timeoutMet h) := rfl

@[simp] theorem request_evc (h : Chan) (deadline : Nat) (rev : Bool) (d : Device) :
    (request h deadline rev d).evc = d.evc := by
  unfold request
  split <;> rfl

section Waits
variable {s : State} {h : Chan} {w : WaitState} {mine : WaitState → Bool} {met : Chan → Nat → Device → Bool}

/-- R165 to R167: a wait of the kind that is tested, whose test draws no free value. -/
theorem wakeIf_of_waiting (waiting : Waiting s h w) (kind : mine w = true) (fixed : testTakesFree w = false) :
    wakeIf mine met h s.mt s.core.dev =
      if met h s.mt s.core.dev then wakeProgram h s.mt s.core.dev else s.core.dev := by
  obtain ⟨_, running, free, wait⟩ := waiting
  simp only [wakeIf, wait, free, running, kind, fixed, Option.isNone_none, Bool.and_self, Bool.false_eq_true, if_true, if_false]

/-- R165, R168: a program that leaves its wait, queue space apart, asks for a service. -/
theorem wakes_wakeProgram (waiting : Waiting s h w) (queue : w.isQueue = false) :
    wakes s h (wakeProgram h s.mt s.core.dev) := by
  obtain ⟨on, _, _, wait⟩ := waiting
  refine ⟨exists_mem_request (by rw [Device.progUpd_chn, Tab.at_upd_same]; exact on) _ _, ?_, fun c other => ?_, ?_⟩
  · rw [wakeProgram, request_chn, Device.progUpd_chn, Tab.at_upd_same, wait, queue]
  · rw [wakeProgram, request_chn]
    exact progUpd_others h _ _ c other
  · rw [wakeProgram, request_evc]
    rfl

/-- R165 to R168: a wait ends when its test holds. -/
theorem brings_wakes {i : Instr} (he : exec i s = s.runDev (wakeIf mine met h)) (waiting : Waiting s h w)
    (kind : mine w = true) (fixed : testTakesFree w = false) (queue : w.isQueue = false)
    (holds : met h s.mt s.core.dev = true) : Brings i s (wakes s h) :=
  brings_of_runDev _ he (by rw [wakeIf_of_waiting waiting kind fixed, if_pos holds]; exact wakes_wakeProgram waiting queue)

/-- R165 to R167: while its test does not hold, a wait stays. -/
theorem idles_of_waiting {i : Instr} (he : exec i s = s.runDev (wakeIf mine met h)) (waiting : Waiting s h w)
    (kind : mine w = true) (fixed : testTakesFree w = false) (fails : met h s.mt s.core.dev = false) : Idles i s :=
  idles_of_runDev _ he (by rw [wakeIf_of_waiting waiting kind fixed, fails]; rfl)

/-- R164: a WAIT of kind TIME compares machine time with its register. -/
theorem waitMet_time {reg : Fin 16} {arg : Byte} {c : Chan} {tmo : Option (Fin 4)}
    (waiting : Waiting s h (.wait 0 reg arg c tmo)) : waitMet h s.mt s.core.dev =
      decide (((s.core.dev.chn.at h).prog.ctx.t.at (Fin.ofNat 4 reg.val)).toNat ≤ s.mt) := by
  obtain ⟨_, _, _, wait⟩ := waiting
  simp only [waitMet, wait]
  rfl

/-- R167: a hold on an axis under policy HOLD ends in the state STEADY. -/
theorem waitMet_hold {a : Axis} (waiting : Waiting s h (.hold a false)) :
    waitMet h s.mt s.core.dev = ((s.core.dev.axs.at a).est.st == .steady) := by
  obtain ⟨_, _, _, wait⟩ := waiting
  simp [waitMet, wait, mustHold, bne]

/-- R166: the timeout of a WAIT. -/
theorem timeoutMet_wait {k : Fin 6} {reg : Fin 16} {arg : Byte} {c : Chan} {tmo : Option (Fin 4)}
    (waiting : Waiting s h (.wait k reg arg c tmo)) : timeoutMet h s.mt s.core.dev =
      tmo.any (fun r => decide (((s.core.dev.chn.at h).prog.ctx.t.at r).toNat ≤ s.mt)) := by
  obtain ⟨_, _, _, wait⟩ := waiting
  cases tmo with
  | none => simp only [timeoutMet, wait]; rfl
  | some r =>
    have own : Fin.ofNat 4 r.val = r := Fin.ext (Nat.mod_eq_of_lt r.isLt)
    simp only [timeoutMet, wait, Context.tr, own]
    rfl

end Waits

/-! ## R163, R242 to R244: services that end -/

section Ends
variable {d : Device} {h : Chan} {v : Service} {g : Segment} {now : Nat}

theorem exec_serviceLimit (h : Chan) (s : State) : exec (.serviceLimit h) s = s.runDev (serviceLimit h) := rfl
theorem exec_preemption (s : State) : exec .preemption s = s.runDev preemptStep := rfl

theorem goesOn_of_empty (staged : v.staged = []) : goesOn v = true := by rw [goesOn, staged]; rfl

/-- R163: a service with nothing staged ends at once by YIELD, or by preemption. -/
theorem endAfter_yield (svc : (d.chn.at h).prog.svc = some v) (staged : v.staged = []) :
    endAfter h .yield now d = yieldService h now d := by
  simp only [endAfter, svc, staged, List.reverse_nil]

theorem endAfter_preempt (svc : (d.chn.at h).prog.svc = some v) (staged : v.staged = []) :
    endAfter h .preempt now d = preemptedEnd h d := by
  simp only [endAfter, svc, staged, List.reverse_nil]

/-- R234: a request changes the helm's queue alone. -/
theorem request_hlm (h : Chan) (deadline : Nat) (rev : Bool) (d : Device) :
    (request h deadline rev d).hlm = { d.hlm with q := (request h deadline rev d).hlm.q } := by
  unfold request
  split <;> rfl

/-- R163, R236, R260: the service in the only segment of its program ends, and the program asks for another one. -/
theorem request_endService (svc : (d.chn.at h).prog.svc = some v) (segs : (d.chn.at h).prog.segs = [g])
    (first : g.rerun = false) (on : (d.chn.at h).cfg.en = true) (deadline : Nat) (rev : Bool) :
    let d' := request h deadline rev (endService h .runnable d)
    (d'.chn.at h).prog = { (d.chn.at h).prog with svc := none, wait := .runnable, segs := [{ g with ended := true }] } ∧
      asksFor d' h ∧ (d'.hlm.eng.at v.eng).slots.at v.slot = none ∧ d'.hlm.svccnt = (d.hlm.svccnt + 1) % 4294967296 ∧
      d'.hlm.precnt = d.hlm.precnt ∧ d'.hlm.abncnt = d.hlm.abncnt := by
  dsimp only
  have ends := endService_single (w := .runnable) svc segs first
  have chn : (endService h .runnable d).chn.at h = { d.chn.at h with
      prog := { (d.chn.at h).prog with segs := [{ g with ended := true }], svc := none, wait := .runnable } } := by
    rw [ends]
    exact Device.chnUpd_at_same h _ _
  have hlm : (endService h .runnable d).hlm =
      { (freeSlot v d).hlm with svccnt := (d.hlm.svccnt + 1) % 4294967296 } := by rw [ends]
  rw [request_chn, chn, request_hlm, hlm]
  exact ⟨rfl, exists_mem_request (by rw [chn]; exact on) deadline rev, by simp [freeSlot], rfl, rfl, rfl⟩

/-- R163: at its limit of instructions a service is marked LONG and ends as by YIELD. -/
theorem serviceLimit_at_limit (svc : (d.chn.at h).prog.svc = some v) (staged : v.staged = []) (limit : 1024 ≤ v.count) :
    serviceLimit h now d = yieldService h now (d.progUpd h (fun p => { p with long := true })) := by
  have marked : ((d.progUpd h (fun p => { p with long := true })).chn.at h).prog.svc = some v := by
    rw [progUpd_at_same]
    exact svc
  simp only [serviceLimit, svc, limit, goesOn_of_empty staged, decide_true, Bool.and_self, if_true]
  exact endAfter_yield marked staged

theorem serviceLimit_below (svc : (d.chn.at h).prog.svc = some v) (below : v.count < 1024) : serviceLimit h now d = d := by
  simp [serviceLimit, svc, Nat.not_le.mpr below]

/-- R243: a service with nothing staged has a routine in flight to abandon. -/
theorem countAbandoned_of_empty (svc : (d.chn.at h).prog.svc = some v) (staged : v.staged = []) :
    countAbandoned h d = { d with hlm := { d.hlm with abncnt := satInc 32 d.hlm.abncnt } } := by
  have flight : v.inFlight = true := by rw [Service.inFlight, staged]; rfl
  simp only [countAbandoned, svc, Option.map_some, Option.getD_some, flight, if_true]

/-- R242: a preemption is counted, and is the one of its boundary. -/
def preempts (d : Device) : Device :=
  { d with hlm := { d.hlm with precnt := satInc 32 d.hlm.precnt }, turn := { d.turn with pre := true } }

/-- R242, R243: a request that comes soon enough before the latest service, which has nothing staged, ends it. -/
theorem preemptStep_latest {r : Req} (queue : d.hlm.q = [r]) (once : d.turn.pre = false) (full : bestEngine d = none)
    (latest : latestService d = some (h, v.deadline)) (enabled : d.hlm.preemptEn = true)
    (margin : r.deadline + 32 * fld d.hlm.preempt 15 0 ≤ v.deadline)
    (slack : r.deadline ≤ now + 32 * fld d.hlm.preempt 31 16)
    (svc : (d.chn.at h).prog.svc = some v) (staged : v.staged = []) :
    preemptStep now d = request h v.deadline false (endService h .runnable (countAbandoned h (preempts d))) := by
  have svc' : ((countAbandoned h (preempts d)).chn.at h).prog.svc = some v := by
    rw [countAbandoned_of_empty (show ((preempts d).chn.at h).prog.svc = some v from svc) staged]
    exact svc
  have steps : preemptStep now d = endAfter h .preempt now (countAbandoned h (preempts d)) := by
    have sorted : sortReqs d.hlm.q = [r] := by rw [queue]; rfl
    have soon : (!d.turn.pre && d.hlm.preemptEn && decide (r.deadline + 32 * fld d.hlm.preempt 15 0 ≤ v.deadline) &&
        decide (r.deadline ≤ now + 32 * fld d.hlm.preempt 31 16)) = true := by simp [once, enabled, margin, slack]
    rw [preemptStep, sorted, full, latest]
    exact if_pos soon
  rw [steps, endAfter_preempt svc' staged, preemptedEnd, svc']

/-- R242: without a request, or after a preemption at the boundary, nothing is preempted. -/
theorem preemptStep_none (idle : d.hlm.q = [] ∨ d.turn.pre = true) : preemptStep now d = d := by
  unfold preemptStep
  rcases idle with empty | again
  · rw [empty]
    rfl
  · split
    · simp [again]
    · rfl

/-- R244: a routine at its limit of microwords leaves the fault MICRO, subcode 0x3F, with its micro-address. -/
theorem microLimit_faults {c : Core} {u : BitVec 16} (svc : (c.dev.chn.at h).prog.svc = some v) (staged : v.staged = [])
    (count : v.count < 1024) (inside : v.ctx.past = false) : microLimit h u now c =
      { c with dev := c.dev.progUpd h (fun p => { p with
        svc := some { v with
          count := v.count + 1, retried := false
          staged := [{ ctx := v.ctx, newSeg := none, emit := false, act := none, held := [], convs := [], stop := false
                       zmark := false, tail := none, late := false
                       fin := .fault ⟨14, 0x3F, v.ctx.pc, some u.toNat⟩, at' := now }] } }) } := by
  have may : canRun v = true := canRun_of count inside (by simp [staged])
  simp only [microLimit, svc, may, if_true]
  refine congrArg (fun d => { c with dev := d }) (progUpd_congr (d := c.dev) ?_)
  simp only [svc, Option.map_some, staged, List.nil_append]
  rfl

end Ends

/-- Settles O39: a wait ends with its one test; the two ends of a service are the end of its only segment with the request
that follows, and the limit of microwords is the staging of its fault. -/
theorem waitsAndServicesEnd : Obligations.WaitsAndServicesEnd := by
  unfold Obligations.WaitsAndServicesEnd
  refine ⟨fun s h c reg arg tmo a => ?waits, fun s h v g => ?ends⟩
  case waits =>
    intro p
    refine ⟨fun waiting come => ?_, fun waiting early => ?_, fun waiting steady => ?_, fun waiting moving => ?_,
      fun r waiting late => ?_, fun waiting => ?_⟩
    · exact brings_wakes (exec_waitSatisfied h s) waiting rfl rfl rfl (by rw [waitMet_time waiting]; exact decide_eq_true come)
    · exact idles_of_waiting (exec_waitSatisfied h s) waiting rfl rfl
        (by rw [waitMet_time waiting]; exact decide_eq_false (Nat.not_le.mpr early))
    · exact brings_wakes (exec_implicitWaitSatisfied h s) waiting rfl rfl rfl
        (by rw [waitMet_hold waiting]; exact beq_iff_eq.mpr steady)
    · exact idles_of_waiting (exec_implicitWaitSatisfied h s) waiting rfl rfl
        (by rw [waitMet_hold waiting]; exact beq_eq_false_iff_ne.mpr moving)
    · exact brings_wakes (exec_waitTimeout h s) waiting rfl rfl rfl
        (by rw [timeoutMet_wait waiting]; exact decide_eq_true late)
    · exact idles_of_waiting (exec_waitTimeout h s) waiting rfl rfl (by rw [timeoutMet_wait waiting]; rfl)
  case ends =>
    intro d p svc staged segs first on
    refine ⟨fun limit => ?limit,
      fun below => idles_of_runDev _ (exec_serviceLimit h s) (serviceLimit_below svc below), ?preempted,
      fun idle => idles_of_runDev _ (exec_preemption s) (preemptStep_none idle), fun u count inside => ?micro⟩
    case limit =>
      apply brings_of_runDev _ (exec_serviceLimit h s)
      rw [serviceLimit_at_limit svc staged limit]
      let marked := d.progUpd h (fun p => { p with long := true })
      have prog : (marked.chn.at h).prog = { p with long := true } := progUpd_at_same h _ d
      obtain ⟨ended, asks, slot, counted, _, _⟩ := request_endService (d := marked) (h := h) (v := v) (g := g)
        (by rw [prog]; exact svc) (by rw [prog]; exact segs) first
        (by rw [Device.progUpd_chn, Tab.at_upd_same]; exact on) ((endService h .runnable marked).waitDeadline s.mt h) false
      rw [prog] at ended
      exact ⟨ended, asks, slot, counted⟩
    case preempted =>
      intro r queue once full latest enabled margin slack
      apply brings_of_runDev _ (exec_preemption s)
      rw [preemptStep_latest queue once full latest enabled margin slack svc staged,
        countAbandoned_of_empty (show ((preempts d).chn.at h).prog.svc = some v from svc) staged]
      obtain ⟨ended, asks, slot, _, preempted, abandoned⟩ := request_endService (h := h) (v := v) (g := g)
        (d := { preempts d with hlm := { (preempts d).hlm with abncnt := satInc 32 (preempts d).hlm.abncnt } })
        svc segs first on v.deadline false
      exact ⟨ended, asks, slot, preempted.trans (satInc_eq_min 32 _), abandoned.trans (satInc_eq_min 32 _)⟩
    case micro =>
      have run : exec (.microwordLimit h u) s = s.run (microLimit h u) := rfl
      rw [Changes, run, State.run_next, microLimit_faults svc staged count inside]
      rfl

end Machine

end Sys2Proof

namespace Sys2Proof

namespace Machine

/-! ## Fields and numbers of time and position instructions -/

/-- A field inside one whose value is known is read off that value. -/
theorem fld_of_fld {n k : Nat} {w : BitVec n} {hi lo hi' lo' : Nat} (value : fld w hi lo = k) (above : lo ≤ lo')
    (below : hi' ≤ hi) : fld w hi' lo' = k / 2 ^ (lo' - lo) % 2 ^ (hi' + 1 - lo') := by
  subst value
  refine Nat.eq_of_testBit_eq (fun i => ?_)
  rw [Nat.testBit_mod_two_pow, Nat.testBit_div_two_pow, testBit_fld, testBit_fld, show lo + (i + (lo' - lo)) = lo' + i by omega]
  by_cases inside : i < hi' + 1 - lo'
  · rw [decide_eq_true (show i + (lo' - lo) < hi + 1 - lo by omega), Bool.true_and]
  · simp [inside]

/-- A bit inside a field whose value is known is read off that value. -/
theorem bitOf_of_fld {n k : Nat} {w : BitVec n} {hi lo i : Nat} (value : fld w hi lo = k) (above : lo ≤ i) (below : i ≤ hi) :
    bitOf w i = k.testBit (i - lo) := by
  rw [← value, testBit_fld, decide_eq_true (by omega), Bool.true_and, Nat.add_sub_cancel' above]
  rfl

/-- The bit at the foot of a field that is 1 is set. -/
theorem bitOf_of_fld_one {n : Nat} {w : BitVec n} {hi lo : Nat} (one : fld w hi lo = 1) (above : lo ≤ hi) :
    bitOf w lo = true := (bitOf_of_fld one le_rfl above).trans (by rw [Nat.sub_self]; rfl)

theorem regOk_of_bOk {w : Word} (h : bOk w) : regOk (fB w) = true := by
  unfold bOk at h
  simp [regOk, fB, h]

/-- R491: saturation into 32 bits is a clamp. -/
theorem satS_eq_clamp (i : Int) : satS 32 i = max (-2147483648) (min 2147483647 i) := by
  have bound : ((2 ^ (32 - 1) : Nat) : Int) = 2147483648 := by decide
  rw [satS, bound]
  split
  · omega
  · split <;> omega

/-- What does not lie in 32 bits is what the clamp moves. -/
theorem outS_eq_clamp (i : Int) : outS 32 i = decide (max (-2147483648) (min 2147483647 i) ≠ i) := by
  have bound : ((2 ^ (32 - 1) : Nat) : Int) = 2147483648 := by decide
  rw [outS, bound]
  exact decide_eq_decide.mpr (by omega)

/-! ## R187, R188: time instructions -/

section Times
variable {e : Env}

/-- R187: TADD of registers that are present. -/
theorem insTadd_of (fn : fld e.word 11 0 ≤ 1) (d : dOk e.word) (a : aOk e.word)
    (b : bitOf e.word 0 = true → bOk e.word) :
    insTadd e = e.go (taddTo (if bitOf e.word 0 then tB e.word e.ctx else (gB e.word e.ctx).signExtend 64) e.word e.ctx) := by
  have source : (!bitOf e.word 0 || regOk (fB e.word)) = true := by
    cases set : bitOf e.word 0 with
    | false => rfl
    | true => exact regOk_of_bOk (b set)
  exact Env.legal_of (by simp only [fFn, fn, regOk_of_dOk d, regOk_of_aOk a, source]; rfl) _

theorem insTadd_g (fn : fld e.word 11 0 = 0) (d : dOk e.word) (a : aOk e.word) :
    insTadd e = e.go (taddTo ((gB e.word e.ctx).signExtend 64) e.word e.ctx) := by
  have clear : bitOf e.word 0 = false := bitOf_inside fn (by decide) (by decide)
  rw [insTadd_of (by omega) d a (by simp [clear]), clear, if_neg Bool.false_ne_true]

theorem insTadd_t (fn : fld e.word 11 0 = 1) (d : dOk e.word) (a : aOk e.word) (b : bOk e.word) :
    insTadd e = e.go (taddTo (tB e.word e.ctx) e.word e.ctx) := by
  rw [insTadd_of (by omega) d a (fun _ => b), bitOf_of_fld_one fn (by decide), if_pos rfl]

theorem insTadd_illegal (fn : 2 ≤ fld e.word 11 0) : insTadd e = e.fault fIllegal :=
  Env.legal_false (by simp [fFn, Nat.not_le.mpr fn]) _

/-- R183: the field checks of the forms with a second word. -/
theorem extended_legal (imm : fld e.word 15 0 = 0) (d : dOk e.word) (a : aOk e.word) :
    (fImm e.word == 0 && regOk (fD e.word) && regOk (fA e.word)) = true := by
  simp [fImm, imm, regOk_of_dOk d, regOk_of_aOk a]

theorem insTaddI_of (imm : fld e.word 15 0 = 0) (d : dOk e.word) (a : aOk e.word) :
    insTaddI e = e.go (taddTo (e.ext.signExtend 64) e.word e.ctx) := Env.legal_of (extended_legal imm d a) _

/-- R187: the field checks of TSUB. -/
theorem tsub_legal (fn : fld e.word 11 0 ≤ 1) (a : aOk e.word) (b : bOk e.word)
    (d : bitOf e.word 0 = true → dOk e.word) :
    (decide (fFn e.word ≤ 1) && regOk (fA e.word) && regOk (fB e.word) &&
      (!bitOf e.word 0 || regOk (fD e.word))) = true := by
  have dest : (!bitOf e.word 0 || regOk (fD e.word)) = true := by
    cases set : bitOf e.word 0 with
    | false => rfl
    | true => exact regOk_of_dOk (d set)
  simp only [fFn, fn, regOk_of_aOk a, regOk_of_bOk b, dest]
  rfl

/-- R187: TSUB into a g register saturates the true difference. -/
theorem insTsub_g (fn : fld e.word 11 0 = 0) (a : aOk e.word) (b : bOk e.word) :
    insTsub e = e.go (tsubG e.word e.ctx) := by
  have clear : bitOf e.word 0 = false := bitOf_inside fn (by decide) (by decide)
  refine (Env.legal_of (tsub_legal (by omega) a b (by simp [clear])) _).trans ?_
  rw [clear, if_neg Bool.false_ne_true]
  simp only [satS_eq_clamp, outS_eq_clamp, w32i_eq]
  rfl

theorem insTsub_t (fn : fld e.word 11 0 = 1) (d : dOk e.word) (a : aOk e.word) (b : bOk e.word) :
    insTsub e = e.go (tsubFlags (tA e.word e.ctx) (tB e.word e.ctx)
      (intoT e.word (tA e.word e.ctx - tB e.word e.ctx) e.ctx)) := by
  refine (Env.legal_of (tsub_legal (by omega) a b (fun _ => d)) _).trans ?_
  rw [bitOf_of_fld_one fn (by decide), if_pos rfl]
  rfl

theorem insTsub_illegal (fn : 2 ≤ fld e.word 11 0) : insTsub e = e.fault fIllegal :=
  Env.legal_false (by simp [fFn, Nat.not_le.mpr fn]) _

/-- R187: two words side by side. -/
theorem join64_eq (lo hi : Word) : BitVec.ofNat 64 (join64 lo hi) = hi ++ lo := by
  have below : lo.toNat < 2 ^ 32 := lo.isLt
  apply BitVec.eq_of_toNat_eq
  rw [BitVec.toNat_append, ← Nat.shiftLeft_add_eq_or_of_lt below, BitVec.toNat_ofNat, join64, Nat.shiftLeft_eq]
  omega

/-- R187: the halves of a time register. -/
theorem hi32_toNat (t : DWord) : hi32 t.toNat = t.extractLsb' 32 32 := by
  apply BitVec.eq_of_toNat_eq
  rw [BitVec.extractLsb'_toNat, hi32, BitVec.toNat_ofNat, Nat.shiftRight_eq_div_pow]

theorem lo32_toNat (t : DWord) : lo32 t.toNat = t.extractLsb' 0 32 := by
  apply BitVec.eq_of_toNat_eq
  rw [BitVec.extractLsb'_toNat, lo32, BitVec.toNat_ofNat, Nat.shiftRight_zero]

/-- R187: TPART of a register that is present. -/
theorem insTpart_of (fn : fld e.word 11 0 < 2) (b : fld e.word 15 12 = 0) (a : aOk e.word) :
    insTpart e = e.go (e.ctx.setG (fD e.word)
      (if bitOf e.word 0 then (tA e.word e.ctx).extractLsb' 32 32 else (tA e.word e.ctx).extractLsb' 0 32)) := by
  rw [← hi32_toNat, ← lo32_toNat]
  exact Env.legal_of (by simp [fFn, fB, Nat.le_of_lt_succ fn, b, regOk_of_aOk a]) _

end Times

/-- An instruction whose ROM routine `g` goes on with the context `f`, which rests on what its service sees. -/
theorem computesIn_of {i : Chan → Instr} {op len : Nat} {ok : Service → Word → Prop} {f : Service → Word → Context}
    (g : Env → Staged) (he : ∀ h s, exec (i h) s = s.run (runOp op g h)) (rom : op < 0xE0)
    (words : len = if romX op then 2 else 1) (hg : ∀ e, ok e.svc e.word → g e = e.go (f e.svc e.word)) :
    ComputesIn i op len ok f := by
  intro s h v r admitted
  have routine := hg (seenBy s h v) admitted
  rw [words, he, run_runOp r rom (by rw [routine]; rfl), routine, go_words r rom]
  rfl

/-- Settles O10: each routine passes its field checks and is then the operation on its operands, or ends in the check that
fails. -/
theorem timeInstructions : Obligations.TimeInstructions := by
  unfold Obligations.TimeInstructions
  refine ⟨computes_of insTadd (fun _ _ => rfl) (by decide) rfl ?taddG, computes_of insTadd (fun _ _ => rfl) (by decide) rfl ?taddT,
    computes_of insTaddI (fun _ _ => rfl) (by decide) rfl ?taddI, computes_of insTsub (fun _ _ => rfl) (by decide) rfl ?tsubG,
    computes_of insTsub (fun _ _ => rfl) (by decide) rfl ?tsubT, computes_of insTcmp (fun _ _ => rfl) (by decide) rfl ?tcmp,
    computesIn_of insTnow (fun _ _ => rfl) (by decide) rfl ?tnow, computes_of insTpack (fun _ _ => rfl) (by decide) rfl ?tpack,
    computes_of insTpart (fun _ _ => rfl) (by decide) rfl ?tpart,
    faultsAs_of insTadd (fun _ _ => rfl) (by decide) (fun _ fn => insTadd_illegal fn),
    faultsAs_of insTaddI (fun _ _ => rfl) (by decide) ?noTaddI,
    faultsAs_of insTsub (fun _ _ => rfl) (by decide) (fun _ fn => insTsub_illegal fn),
    faultsAs_of insTcmp (fun _ _ => rfl) (by decide) ?noTcmp, faultsAs_of insTnow (fun _ _ => rfl) (by decide) ?noTnow,
    faultsAs_of insTpack (fun _ _ => rfl) (by decide) ?noTpack, faultsAs_of insTpart (fun _ _ => rfl) (by decide) ?noTpart⟩
  case taddG =>
    rintro e ⟨fn, d, a⟩
    exact insTadd_g fn d a
  case taddT =>
    rintro e ⟨fn, d, a, b⟩
    exact insTadd_t fn d a b
  case taddI =>
    rintro e ⟨imm, d, a⟩
    exact insTaddI_of imm d a
  case tsubG =>
    rintro e ⟨fn, a, b⟩
    exact insTsub_g fn a b
  case tsubT =>
    rintro e ⟨fn, d, a, b⟩
    exact insTsub_t fn d a b
  case tcmp =>
    rintro e ⟨fn, d, a, b⟩
    exact Env.legal_of (by simp [fFn, fD, fn, d, regOk_of_aOk a, regOk_of_bOk b]) _
  case tnow =>
    rintro e ⟨a, imm, d⟩
    exact Env.legal_of (by simp [fA, fImm, a, imm, regOk_of_dOk d]) _
  case tpack =>
    rintro e ⟨fn, d⟩
    rw [← join64_eq]
    exact Env.legal_of (by simp [fFn, fn, regOk_of_dOk d]) _
  case tpart =>
    rintro e ⟨fn, b, a⟩
    exact insTpart_of fn b a
  case noTaddI => exact fun e imm => Env.legal_false (by simp [fImm, imm]) _
  case noTcmp => exact fun e bad => Env.legal_false (by rcases bad with fn | d <;> simp [fFn, fD, *]) _
  case noTnow => exact fun e bad => Env.legal_false (by rcases bad with a | imm <;> simp [fA, fImm, *]) _
  case noTpack => exact fun e fn => Env.legal_false (by simp [fFn, fn]) _
  case noTpart => exact fun e fn => Env.legal_false (by simp [fFn, Nat.not_le.mpr fn]) _

end Machine

end Sys2Proof

namespace Sys2Proof

namespace Machine

/-! ## R189: position instructions -/

/-- R189: the difference that PSUB with WRAP leaves on a modulo axis. -/
def wrappedTo (i : Int) (w : Word) (c : Context) : Context :=
  let r := BitVec.ofInt 48 i
  { intoP w r c with z := r == 0, n := r.msb, v := false }

/-- R189: the position that PMOD leaves; C tells that it moved. -/
def reducedTo (r : BitVec 48) (w : Word) (c : Context) : Context :=
  { intoP w r c with z := r == 0, n := r.msb, c := r != pA w c }

section Positions
variable {e : Env}

theorem axisSeen_eq (e : Env) : e.viewAx (fld e.word 5 0) = axisSeen e.svc e.word := rfl

theorem insPadd_of (fn : fld e.word 11 0 = 0) (d : dOk e.word) (a : aOk e.word) (b : bOk e.word) :
    insPadd e = e.go (paddTo (pB e.word e.ctx) e.word e.ctx) :=
  Env.legal_of (by simp [fFn, fn, regOk_of_dOk d, regOk_of_aOk a, regOk_of_bOk b]) _

theorem insPaddI_of (imm : fld e.word 15 0 = 0) (d : dOk e.word) (a : aOk e.word) :
    insPaddI e = e.go (paddTo (e.ext.signExtend 48) e.word e.ctx) := Env.legal_of (extended_legal imm d a) _

/-- R189: the field checks of PSUB. -/
theorem psub_legal (zero : fld e.word 11 7 = 0) (axis : bitOf e.word 6 = true ∨ fld e.word 5 0 = 0) (d : dOk e.word)
    (a : aOk e.word) (b : bOk e.word) :
    (fld e.word 11 7 == 0 && (bitOf e.word 6 || fld e.word 5 0 == 0) && regOk (fD e.word) && regOk (fA e.word) &&
      regOk (fB e.word)) = true := by
  simpa [zero, regOk_of_dOk d, regOk_of_aOk a, regOk_of_bOk b] using axis

/-- R189: PSUB without WRAP, or with WRAP on a linear axis. -/
theorem insPsub_linear (zero : fld e.word 11 7 = 0) (axis : bitOf e.word 6 = true ∨ fld e.word 5 0 = 0) (d : dOk e.word)
    (a : aOk e.word) (b : bOk e.word) (linear : (bitOf e.word 6 && (axisSeen e.svc e.word).modulo) = false) :
    insPsub e = e.go (psubTo e.word e.ctx) := by
  refine (Env.legal_of (psub_legal zero axis d a b) _).trans ?_
  rw [axisSeen_eq, linear, if_neg Bool.false_ne_true]
  rfl

/-- R189: PSUB with WRAP on a modulo axis needs a modulus. -/
theorem insPsub_modulo (zero : fld e.word 11 7 = 0) (wrap : fld e.word 6 6 = 1) (d : dOk e.word) (a : aOk e.word)
    (b : bOk e.word) (modulo : (axisSeen e.svc e.word).modulo = true) :
    insPsub e = e.need ((axisSeen e.svc e.word).m != 0) fArith
      (e.go (wrappedTo (wrapM (axisSeen e.svc e.word).m (pA e.word e.ctx - pB e.word e.ctx).toInt) e.word e.ctx)) := by
  have wrap : bitOf e.word 6 = true := bitOf_of_fld_one wrap (by decide)
  exact (Env.legal_of (psub_legal zero (.inl wrap) d a b) _).trans (if_pos (Bool.and_eq_true_iff.mpr ⟨wrap, modulo⟩))

theorem wrapM_of_pos {m : Nat} (positive : 0 < m) (d : Int) :
    wrapM m d = if (m : Int) ≤ 2 * (d % m) then d % m - m else d % m := if_neg (by omega)

theorem reduceM_of_pos {m : Nat} (positive : 0 < m) (z : Int) : reduceM m z = z % m := if_neg (by omega)

/-- R189: PMOD on a modulo axis needs a modulus. -/
theorem insPmod_of (zero : fld e.word 15 6 = 0) (d : dOk e.word) (a : aOk e.word) :
    insPmod e = e.need (!(axisSeen e.svc e.word).modulo || (axisSeen e.svc e.word).m != 0) fArith
      (e.go (reducedTo
        (if (axisSeen e.svc e.word).modulo then
          BitVec.ofInt 48 (reduceM (axisSeen e.svc e.word).m (pA e.word e.ctx).toInt) else pA e.word e.ctx)
        e.word e.ctx)) :=
  Env.legal_of (by simp [zero, regOk_of_dOk d, regOk_of_aOk a]) _

theorem insPset_of (shift : fld e.word 15 0 ≤ 16) (d : dOk e.word) :
    insPset e =
      (let i : Int := (gA e.word e.ctx).toInt * 2 ^ fld e.word 15 0
       e.go { intoP e.word (BitVec.ofInt 48 i) e.ctx with
         v := decide (i < -140737488355328 ∨ 140737488355328 ≤ i) }) := by
  have scale : ((2 ^ fImm e.word : Nat) : Int) = 2 ^ fld e.word 15 0 := Nat.cast_pow 2 _
  rw [← scale]
  exact Env.legal_of (by simp [fImm, shift, regOk_of_dOk d]) _

theorem insPget_of (shift : fld e.word 15 0 ≤ 16) (a : aOk e.word) :
    insPget e =
      (let i : Int := (pA e.word e.ctx).toInt / 2 ^ fld e.word 15 0
       let r : Int := max (-2147483648) (min 2147483647 i)
       e.go { intoG e.word (BitVec.ofInt 32 r) e.ctx with v := decide (r ≠ i) }) := by
  have scale : ((2 ^ fImm e.word : Nat) : Int) = 2 ^ fld e.word 15 0 := Nat.cast_pow 2 _
  refine (Env.legal_of (by simp [fImm, shift, regOk_of_aOk a]) _).trans ?_
  simp only [satS_eq_clamp, outS_eq_clamp, w32i_eq, scale]
  rfl

end Positions

/-- Settles O11: each routine passes its field checks and is then the operation on its operands; on a modulo axis the modulus
tells between the wrapped result and the fault. -/
theorem positionInstructions : Obligations.PositionInstructions := by
  unfold Obligations.PositionInstructions
  refine ⟨computes_of insPadd (fun _ _ => rfl) (by decide) rfl ?padd, computes_of insPaddI (fun _ _ => rfl) (by decide) rfl ?paddI,
    computes_of insPsub (fun _ _ => rfl) (by decide) rfl ?psub, computesIn_of insPsub (fun _ _ => rfl) (by decide) rfl ?linear,
    computesIn_of insPsub (fun _ _ => rfl) (by decide) rfl ?wrapped, computesIn_of insPmod (fun _ _ => rfl) (by decide) rfl ?pmod,
    computes_of insPset (fun _ _ => rfl) (by decide) rfl ?pset, computes_of insPget (fun _ _ => rfl) (by decide) rfl ?pget,
    faultsAs_of insPsub (fun _ _ => rfl) (by decide) ?noPsub, faultsAs_of insPmod (fun _ _ => rfl) (by decide) ?noPmod⟩
  case padd =>
    rintro e ⟨fn, d, a, b⟩
    exact insPadd_of fn d a b
  case paddI =>
    rintro e ⟨imm, d, a⟩
    exact insPaddI_of imm d a
  case psub =>
    rintro e ⟨fn, d, a, b⟩
    have clear : bitOf e.word 6 = false := bitOf_inside fn (by decide) (by decide)
    exact insPsub_linear (fld_inside fn (by decide) (by decide)) (.inr (fld_inside fn (by decide) (by decide))) d a b
      (by rw [clear]; rfl)
  case linear =>
    rintro e ⟨zero, wrap, d, a, b, linear⟩
    exact insPsub_linear zero (.inl (bitOf_of_fld_one wrap (by decide))) d a b (by rw [linear, Bool.and_false])
  case wrapped =>
    rintro e ⟨zero, wrap, d, a, b, modulo, positive⟩
    rw [insPsub_modulo zero wrap d a b modulo, Env.need_of (by simpa using positive.ne'), wrapM_of_pos positive]
    rfl
  case pmod =>
    rintro e ⟨zero, d, a, modulus⟩
    rw [insPmod_of zero d a]
    cases modulo : (axisSeen e.svc e.word).modulo with
    | false => exact Env.need_of rfl _ _
    | true =>
      rw [Env.need_of (by simpa using (modulus modulo).ne'), reduceM_of_pos (modulus modulo)]
      rfl
  case pset =>
    rintro e ⟨shift, d⟩
    exact insPset_of shift d
  case pget =>
    rintro e ⟨shift, a⟩
    exact insPget_of shift a
  case noPsub =>
    rintro e ⟨zero, wrap, d, a, b, modulo, lacking⟩
    exact (insPsub_modulo zero wrap d a b modulo).trans (Env.need_false (by rw [lacking]; rfl) _ _)
  case noPmod =>
    rintro e ⟨zero, d, a, modulo, lacking⟩
    exact (insPmod_of zero d a).trans (Env.need_false (by rw [modulo, lacking]; rfl) _ _)

end Machine

end Sys2Proof

namespace Sys2Proof

namespace Machine

/-! ## R162, R191, R192: flow instructions -/

/-- R162: the model's branch conditions are those of the statements. -/
theorem condHolds_eq (k : Nat) (c : Context) (l : Bool) : condHolds k c.z c.n c.c c.v l = condTrue k c l := by
  unfold condHolds condTrue
  split <;> simp [bne]

theorem seenBy_cond (s : State) (h : Chan) (v : Service) (k : Nat) :
    (seenBy s h v).cond k = condTrue k v.ctx (flagLNow s h v) := condHolds_eq k v.ctx _

/-- R191: going to a word forgets the word that follows. -/
theorem go_to (s : State) (h : Chan) (v : Service) (n : Nat) (c : Context) :
    ((seenBy s h v).go c).to n = jumpsTo s v n c := rfl

theorem seenBy_branch (s : State) (h : Chan) (v : Service) (n : Int) (c : Context) :
    (seenBy s h v).branch n c = branchesTo s v n c := rfl

theorem branchesTo_tail (s : State) (v : Service) (n : Int) (c : Context) : (branchesTo s v n c).tail = none := by
  unfold branchesTo
  split <;> rfl

/-- R191: a one-word instruction whose ROM routine `g` gives the routine `f`. -/
theorem flows_of {i : Chan → Instr} {op : Nat} {ok : Word → Prop} {f : State → Chan → Service → Word → Staged}
    (g : Env → Staged) (he : ∀ h s, exec (i h) s = s.run (runOp op g h)) (rom : op < 0xE0) (one : romX op = false)
    (hg : ∀ s h v, (∀ c, (seenBy s h v).go c = goesOnTo s v 1 c) → ok (insWord s v) →
      g (seenBy s h v) = f s h v (insWord s v))
    (tail : ∀ s h v w, (f s h v w).tail = none) : Flows i op ok f := by
  intro s h v r admitted
  have routine := hg s h v (go_oneWord r rom one) admitted
  rw [he, run_runOp r rom (by rw [routine, tail]), routine]

/-- R162, R192: an instruction that leaves for `taken` on the condition in its d field, and goes on without it. -/
theorem flows_onCondition {i : Chan → Instr} {op : Nat} {ok : Word → Prop} {taken : State → Service → Word → Staged}
    (g leave : Env → Staged) (he : ∀ h s, exec (i h) s = s.run (runOp op g h)) (rom : op < 0xE0) (one : romX op = false)
    (hg : ∀ e, ok e.word → g e = if e.cond (fD e.word) then leave e else e.go e.ctx)
    (leaves : ∀ s h v, leave (seenBy s h v) = taken s v (insWord s v)) (tail : ∀ s v w, (taken s v w).tail = none) :
    Flows i op ok (fun s h v w =>
      if condTrue (fld w 23 20) v.ctx (flagLNow s h v) then taken s v w else goesOnTo s v 1 v.ctx) := by
  refine flows_of g he rom one (fun s h v next admitted => ?_) (fun s h v w => ?_)
  · rw [hg _ admitted, seenBy_cond, leaves, next]
    rfl
  · split
    · exact tail s v w
    · rfl

/-- Settles O12: each routine passes its field checks and then branches, jumps or goes on; what a branch does is
`branchesTo`. -/
theorem flowInstructions : Obligations.FlowInstructions := by
  unfold Obligations.FlowInstructions
  refine ⟨flows_onCondition insB (fun e => e.branch (e.dest (fOff20 e.word)) e.ctx) (fun _ _ => rfl) (by decide) rfl
      (fun _ _ => rfl) (fun _ _ _ => rfl) (fun _ _ _ => branchesTo_tail _ _ _ _),
    flows_onCondition insCall
      (fun e => e.branch (e.dest (fOff20 e.word)) (e.ctx.setG 15 (w32 (e.ctx.pc.toNat + 1)))) (fun _ _ => rfl)
      (by decide) rfl (fun _ _ => rfl) (fun _ _ _ => rfl) (fun _ _ _ => branchesTo_tail _ _ _ _),
    flows_onCondition insRet (fun e => (e.go e.ctx).to (fld (e.ctx.gr 15) 14 0)) (fun _ _ => rfl) (by decide) rfl ?ret
      (fun s h v => go_to s h v _ _) (fun _ _ _ => rfl),
    flows_onCondition insBr (fun e => (e.go e.ctx).to (fld (e.ctx.gr (fA e.word)) 14 0)) (fun _ _ => rfl) (by decide) rfl ?br
      (fun s h v => go_to s h v _ _) (fun _ _ _ => rfl),
    flows_of insLoop (fun _ _ => rfl) (by decide) rfl ?loop ?loopTail, computes_of insNop (fun _ _ => rfl) (by decide) rfl ?nop,
    faultsAs_of insRet (fun _ _ => rfl) (by decide) ?noRet, faultsAs_of insBr (fun _ _ => rfl) (by decide) ?noBr,
    faultsAs_of insLoop (fun _ _ => rfl) (by decide) ?noLoop, faultsAs_of insNop (fun _ _ => rfl) (by decide) ?noNop⟩
  case ret => exact fun e zero => Env.legal_of (beq_iff_eq.mpr zero) _
  case br => exact fun e zero => Env.legal_of (beq_iff_eq.mpr zero) _
  case loop =>
    intro s h v next zero
    refine (Env.legal_of (beq_iff_eq.mpr zero) _).trans ?_
    rw [next, seenBy_branch]
    rfl
  case loopTail =>
    intro s h v w
    dsimp only
    split
    · rfl
    · exact branchesTo_tail s v _ _
  case nop => exact fun e zero => Env.legal_of (beq_iff_eq.mpr zero) _
  case noRet => exact fun e rest => Env.legal_false (beq_eq_false_iff_ne.mpr rest) _
  case noBr => exact fun e rest => Env.legal_false (beq_eq_false_iff_ne.mpr rest) _
  case noLoop => exact fun e rest => Env.legal_false (beq_eq_false_iff_ne.mpr rest) _
  case noNop => exact fun e rest => Env.legal_false (beq_eq_false_iff_ne.mpr rest) _

end Machine

end Sys2Proof

namespace Sys2Proof

namespace Machine

/-! ## R201 to R204, R211 to R213: instructions on a member channel -/

section Members
variable {e : Env} {c : Chan}

/-- R151: an enabled member is the target of the instruction. -/
theorem target_of_member {m : Nat} (member : e.svc.view.memberOf e.home m = some c) (k : Chan → Staged) :
    e.target m k = k c := by rw [Env.target, member]

theorem target_absent {m : Nat} (absent : e.svc.view.memberOf e.home m = none) (k : Chan → Staged) :
    e.target m k = e.fault fTarget := by rw [Env.target, absent]

/-- R201: with room CANCEL holds its request, whether or not there is an action to mark now. -/
theorem cancelIn_of_room (room : e.held.length < 16) (thr : Option DWord) (r : Staged) :
    e.cancelIn c thr r = { r with held := r.held ++ [.cancel c e.cancelId thr] } := by
  rw [Env.cancelIn, Env.hold, Env.effRoom, if_pos (decide_eq_true room), ite_self]

/-- R201: CANCEL whose fields are legal, with ALL or with the threshold t[a]. -/
theorem insCancel_of (level : e.word.getLsbD 20 = false) (b : fld e.word 15 12 = 0) (high : fld e.word 11 7 = 0)
    (low : fld e.word 5 0 = 0) (source : (if bitOf e.word 6 then fA e.word == 0 else regOk (fA e.word)) = true)
    (member : e.svc.view.memberOf e.home (fld e.word 23 21) = some c) (room : e.held.length < 16) :
    insCancel e =
      (let thr := if bitOf e.word 6 then none else some (e.ctx.t.at (aField4 e))
       { e.go { e.ctx with z := !e.cancelsAny c thr } with held := [.cancel c e.cancelId thr], zmark := true }) := by
  have legal : (!bitOf e.word 20 && fB e.word == 0 && fld e.word 11 7 == 0 && fld e.word 5 0 == 0 &&
      (if bitOf e.word 6 then fA e.word == 0 else regOk (fA e.word))) = true := by
    have level : bitOf e.word 20 = false := level
    rw [source]
    simp [fB, level, b, high, low]
  exact (Env.legal_of legal _).trans ((target_of_member member _).trans (cancelIn_of_room room _ _))

/-- R202, R203: the field checks of CAPT and CAPTN. -/
theorem capt_legal {w : Word} (zero : fld w 11 3 = 0) (d : dOk w) : (fld w 11 3 == 0 && regOk (fD w)) = true := by
  simp [zero, regOk_of_dOk d]

/-- R202, R203: the entry `x` that CAPT or CAPTN returns, with the count `left` and V. -/
def captured (e : Env) (x : CapEntry) (left : Nat) (lost : Bool) : Context :=
  { e.ctx with
    t := e.ctx.t.put (dField4 e) (BitVec.ofNat 64 x.stamp)
    g := (e.ctx.g.put (aField e) (BitVec.ofNat 32 x.val)).put (bField e) (x.attrBits left)
    z := false, c := x.edge, n := x.miss, v := lost }

/-- R202, R203: CAPT and CAPTN hold the consumption of the entries that they take. -/
theorem doCapt_takes {all : Bool} {k left : Nat} {x : CapEntry} {lost : Bool} (zero : fld e.word 11 3 = 0) (d : dOk e.word)
    (member : e.svc.view.memberOf e.home (fld e.word 2 0) = some c) (room : e.held.length < 16)
    (takes : captTake all (e.capEntries c) = some (k, x, left, lost)) :
    e.doCapt all = { e.go (captured e x left lost) with held := [.capt c k] } := by
  refine (Env.legal_of (capt_legal zero d) _).trans ((target_of_member member _).trans ?_)
  rw [takes]
  exact hold_of_room room _ _

theorem doCapt_empty {all : Bool} (zero : fld e.word 11 3 = 0) (d : dOk e.word)
    (member : e.svc.view.memberOf e.home (fld e.word 2 0) = some c) (empty : e.capEntries c = []) :
    e.doCapt all = e.go { e.ctx with z := true, c := false, n := false, v := false } := by
  refine (Env.legal_of (capt_legal zero d) _).trans ((target_of_member member _).trans ?_)
  rw [empty]
  rfl

theorem doCapt_absent {all : Bool} (zero : fld e.word 11 3 = 0) (d : dOk e.word)
    (absent : e.svc.view.memberOf e.home (fld e.word 2 0) = none) : e.doCapt all = e.fault fTarget :=
  (Env.legal_of (capt_legal zero d) _).trans (target_absent absent _)

/-- R203: CAPTN takes all entries, returns the newest and tells whether one was lost or passed over. -/
theorem captTake_all (x : CapEntry) (l : List CapEntry) :
    captTake true (x :: l) = some (l.length + 1, (x :: l).getLast (List.cons_ne_nil x l), l.length + 1,
      decide ((∃ k ∈ x :: l, k.lost = true) ∨ 2 ≤ l.length + 1)) := by
  rw [List.getLast_eq_getLastD, Bool.decide_or, ← List.any_eq]
  rfl

/-- R211: a CHN offset that CFG may write, MODE's apart. -/
theorem cfgOk_of_mem {off : Nat} (listed : off ∈ [0x10, 0x14, 0x18, 0x1C, 0x20, 0x24]) (mask : Word) :
    cfgOk off mask = true := by
  simp only [List.mem_cons, List.not_mem_nil, or_false] at listed
  rcases listed with rfl | rfl | rfl | rfl | rfl | rfl <;> rfl

/-- R211: with no apply pending CFG holds its write. -/
theorem cfgTo_of_mem {off : Nat} (listed : off ∈ [0x10, 0x14, 0x18, 0x1C, 0x20, 0x24]) (own : (e.d.chn.at c).cfg.pend = none)
    (group : (e.d.chn.at c).cfg.gpend = false) (room : e.held.length < 16) (mask v : Word) :
    e.cfgTo c off mask v (e.go e.ctx) = { e.go e.ctx with held := [.cfg c (BitVec.ofNat 8 off) mask v] } := by
  rw [Env.cfgTo, Env.need_of (cfgOk_of_mem listed mask), own, group]
  exact hold_of_room room _ _

/-- R212: APPLY with mode TIME. -/
theorem insApply_time (level : e.word.getLsbD 23 = false) (mode : fld e.word 15 0 = 1) (a : aOk e.word) :
    insApply e = e.target (fld e.word 22 20) (fun c =>
      e.hold (.apply c 1 (e.ctx.t.at (aField4 e)) 0) (e.go e.ctx)) := by
  have level : bitOf e.word 23 = false := level
  have b : fB e.word = 0 := fld_of_fld mode (by decide) (by decide)
  have axis : fld e.word 11 6 = 0 := fld_of_fld mode (by decide) (by decide)
  have zero : fld e.word 5 2 = 0 := fld_of_fld mode (by decide) (by decide)
  have time : fld e.word 1 0 = 1 := fld_of_fld mode (by decide) (by decide)
  refine (Env.legal_of (by simp [level, b, axis, zero, time, regOk_of_aOk a]) _).trans ?_
  rw [time, axis]
  rfl

end Members

/-- Settles O18: each routine passes its field checks, finds its member and holds its effect; CAPT and CAPTN return what
`captTake` takes of the member's entries. -/
theorem memberInstructions : Obligations.MemberInstructions := by
  unfold Obligations.MemberInstructions
  refine ⟨fun c => runs_of_rom insCancel (fun _ _ => rfl) (by decide) ?cancelAll (fun _ => rfl),
    fun c => runs_of_rom insCancel (fun _ _ => rfl) (by decide) ?cancelFrom (fun _ => rfl),
    fun c x l => runs_of_rom insCapt (fun _ _ => rfl) (by decide) ?capt (fun _ => rfl),
    fun c x l => runs_of_rom insCaptn (fun _ _ => rfl) (by decide) ?captn (fun _ => rfl),
    fun c => runs_of_rom insCapt (fun _ _ => rfl) (by decide) ?empty (fun _ => rfl),
    fun c => runs_of_rom insCfg (fun _ _ => rfl) (by decide) ?cfg (fun _ => rfl),
    fun c => runs_of_rom insApply (fun _ _ => rfl) (by decide) ?apply (fun _ => rfl),
    faultsOn_of _ (fun _ _ => rfl) (by decide) ?absent⟩
  case cancelAll =>
    rintro e ⟨level, b, fn, a, member, room⟩
    have set : bitOf e.word 6 = true := bitOf_of_fld fn (by decide) (by decide)
    have high : fld e.word 11 7 = 0 := fld_of_fld fn (by decide) (by decide)
    have low : fld e.word 5 0 = 0 := fld_of_fld fn (by decide) (by decide)
    rw [insCancel_of level b high low (by rw [set]; exact beq_iff_eq.mpr a) member room, set]
    rfl
  case cancelFrom =>
    rintro e ⟨level, b, fn, a, member, room⟩
    have clear : bitOf e.word 6 = false := bitOf_inside fn (by decide) (by decide)
    rw [insCancel_of level b (fld_inside fn (by decide) (by decide)) (fld_inside fn (by decide) (by decide))
      (by rw [clear]; exact regOk_of_aOk a) member room, clear]
    rfl
  case capt =>
    rintro e ⟨zero, d, member, entries, room⟩
    exact doCapt_takes zero d member room (by rw [entries]; rfl)
  case captn =>
    rintro e ⟨zero, d, member, entries, room⟩
    exact doCapt_takes zero d member room (by rw [entries]; exact captTake_all x l)
  case empty =>
    rintro e ⟨zero, d, member, empty⟩
    exact doCapt_empty zero d member empty
  case cfg =>
    rintro e ⟨level, zero, member, listed, own, group, room⟩
    have level : bitOf e.word 23 = false := level
    have legal : (!bitOf e.word 23 && fld e.word 15 8 == 0) = true := by simp [level, zero]
    exact (Env.legal_of legal _).trans ((target_of_member member _).trans (cfgTo_of_mem listed own group room _ _))
  case apply =>
    rintro e ⟨level, mode, a, member, room⟩
    rw [insApply_time level mode a, target_of_member member]
    exact hold_of_room room _ _
  case absent =>
    rintro e ⟨zero, d, absent⟩
    rw [insCapt, doCapt_absent zero d absent]
    rfl

end Machine

end Sys2Proof

namespace Sys2Proof

namespace Machine

/-! ## The first index that meets a test -/

theorem findIdx_of_first {p : Nat → Bool} {i : Nat} (hit : p i = true) :
    ∀ {k j : Nat}, j ≤ i → i < j + k → (∀ m, j ≤ m → m < i → p m = false) → findIdx p j k = some i
  | 0, j, low, high, _ => by omega
  | k + 1, j, low, high, before => by
    rcases Nat.eq_or_lt_of_le low with rfl | less
    · rw [findIdx, if_pos hit]
    · have miss : ¬ p j = true := by simp [before j (Nat.le_refl j) less]
      rw [findIdx, if_neg miss]
      exact findIdx_of_first hit less (by omega) (fun m from' => before m (by omega))

theorem findIdx_of_all_false {p : Nat → Bool} :
    ∀ {k j : Nat}, (∀ m, j ≤ m → m < j + k → p m = false) → findIdx p j k = none
  | 0, _, _ => rfl
  | k + 1, j, all => by
    have miss : ¬ p j = true := by simp [all j (Nat.le_refl j) (by omega)]
    rw [findIdx, if_neg miss]
    exact findIdx_of_all_false (fun m from' upTo => all m (by omega) (by omega))

/-! ## R226: the checks of a switch -/

/-- R226: the checks of an entry carry the codes 4 to 6. -/
theorem four_le_entryCheck {n : TableNo} {j : Nat} {c : Core} (fails : entryCheck n j c ≠ 0) : 4 ≤ entryCheck n j c := by
  have codes : entryCheck n j c = 4 ∨ entryCheck n j c = 5 ∨ entryCheck n j c = 6 ∨ entryCheck n j c = 0 := by
    unfold entryCheck
    dsimp only
    split_ifs <;> decide
  omega

section Checks
variable {n : TableNo} {c : Core}

theorem checkSwitch_undefined (undefined : (c.dev.alm.at n).defd = false) : checkSwitch n c = (1, 0) := by
  simp [checkSwitch, undefined]

theorem checkSwitch_reservedMode (defined : (c.dev.alm.at n).defd = true) (mode : (c.dev.alm.at n).atmode = 3) :
    checkSwitch n c = (2, 0) := by
  simp [checkSwitch, defined, mode]

/-- R226: ATMODE NEXT and TIME are neither reserved nor POS. -/
theorem mode_ne_of_lt {mode : BitVec 2} (low : mode < 2) : mode ≠ 3#2 ∧ mode ≠ 2#2 := by
  revert mode
  decide

theorem checkSwitch_extent (defined : (c.dev.alm.at n).defd = true) (mode : (c.dev.alm.at n).atmode < 2)
    (extent : extentFails n c.dev = true) : checkSwitch n c = (3, 0) := by
  simp [checkSwitch, defined, mode_ne_of_lt mode, extent]

section Entries
variable (defined : (c.dev.alm.at n).defd = true) (mode : (c.dev.alm.at n).atmode < 2)
  (extent : extentFails n c.dev = false)
include defined mode extent

/-- R226: the first entry that fails names the code and the index. -/
theorem checkSwitch_entry {j : Nat} (inside : j < (c.dev.alm.at n).slen) (fails : entryCheck n j c ≠ 0)
    (first : ∀ i, i < j → entryCheck n i c = 0) : checkSwitch n c = (entryCheck n j c, j) := by
  have found : findIdx (fun j => entryCheck n j c != 0) 0 (c.dev.alm.at n).slen = some j :=
    findIdx_of_first (p := fun j => entryCheck n j c != 0) (bne_iff_ne.mpr fails) (Nat.zero_le j)
      (by omega) (fun m _ less => by simp [first m less])
  simp [checkSwitch, defined, mode_ne_of_lt mode, extent, found]

theorem checkSwitch_holds (all : ∀ j, j < (c.dev.alm.at n).slen → entryCheck n j c = 0) : checkSwitch n c = (0, 0) := by
  have found : findIdx (fun j => entryCheck n j c != 0) 0 (c.dev.alm.at n).slen = none :=
    findIdx_of_all_false (fun m _ less => by simp [all m (by omega)])
  simp [checkSwitch, defined, mode_ne_of_lt mode, extent, found]

end Entries

/-! ## R226, R227: the end of CHECK -/

theorem checkComplete_idle (now : Nat) (other : (c.dev.alm.at n).st ≠ .check) : checkComplete n now c = c :=
  if_pos other

theorem checkComplete_refused {code idx : Nat} (now : Nat) (check : (c.dev.alm.at n).st = .check)
    (result : checkSwitch n c = (code, idx)) (fails : code ≠ 0) :
    checkComplete n now c = c.mapDev (refuseSwitch n code idx now) := by
  simp [checkComplete, check, result, fails]

/-- R227: the switch is pending, and its CHECK passed at `now`. -/
def passSwitch (n : TableNo) (now : Nat) (d : Device) : Device :=
  d.tabUpd n (fun t => { t with st := .pend, passAt := now })

theorem checkComplete_passed {idx : Nat} (now : Nat) (check : (c.dev.alm.at n).st = .check)
    (result : checkSwitch n c = (0, idx)) : checkComplete n now c = c.mapDev (passSwitch n now) := by
  rw [checkComplete, if_neg (not_not_intro check), result]
  rfl

end Checks

section Tables
variable {n : TableNo} {d : Device}

theorem passSwitch_table (now : Nat) :
    (passSwitch n now d).alm.at n = { d.alm.at n with st := .pend, passAt := now } := Tab.at_upd_same _ _ _

/-- R227: ATMODE NEXT switches at the first boundary after the one at which CHECK passed. -/
theorem switchShown_passSwitch (now : Nat) (next : (d.alm.at n).atmode = 0) :
    switchShown n (passSwitch n now d) = now + 32 := by
  simp [switchShown, switchAt, passSwitch_table, next]

theorem refuseSwitch_table (code idx now : Nat) :
    (refuseSwitch n code idx now d).alm.at n = { d.alm.at n with
      st := .idle, err := true, ecode := code, eidx := if 4 ≤ code then idx else (d.alm.at n).eidx } := by
  rw [refuseSwitch, raise_alm]
  exact Tab.at_upd_same _ _ _

/-- R231: a refused switch raises one cause at source 250. -/
theorem causes_refuseSwitch (code idx now : Nat) : causes 250 (refuseSwitch n code idx now d) = causes 250 d + 1 :=
  causes_raise (by decide) _ _ _ _ _ _

/-! ## R226, R229, R230: GO, the switch, the end of the drain, CANCEL and DEF, case by case -/

theorem switchGo_idle (idle : (d.alm.at n).st = .idle) {atmode : BitVec 2} (notPos : atmode ≠ 2) (sw : Axis)
    (lead : BitVec 11) : switchGo n atmode sw lead d = d.tabUpd n (fun t => { t with
      atmode := atmode, swax := sw, lead := lead, st := .check, q := none }) := by
  unfold switchGo
  dsimp only
  rw [if_neg (not_not_intro idle), if_neg notPos]

theorem switchGo_busy (busy : (d.alm.at n).st ≠ .idle) (atmode : BitVec 2) (sw : Axis) (lead : BitVec 11) :
    switchGo n atmode sw lead d = d.tabUpd n (fun t => { t with ref := true }) := if_pos busy

theorem tableSwitch_other (now : Nat) (other : (d.alm.at n).st ≠ .pend) : tableSwitch n now d = d := if_pos other

theorem tableSwitch_due {now : Nat} (pend : (d.alm.at n).st = .pend) (due : switchAt n d ≤ now) :
    tableSwitch n now d = d.tabUpd n (fun t => { t with
      lbase := t.sbase, llen := t.slen, sbase := t.lbase, slen := t.llen, gen := t.gen + 1, swt := now
      st := .drain, drain := some (t.lbase, t.llen, now) }) := by
  rw [tableSwitch, if_neg (not_not_intro pend), if_pos due]

theorem tableSwitch_early {now : Nat} (pend : (d.alm.at n).st = .pend) (early : now < switchAt n d) :
    tableSwitch n now d = d := by
  rw [tableSwitch, if_neg (not_not_intro pend), if_neg (by omega)]

/-- R229: a service keeps the old extent as long as its view boundary lies before the switch. -/
theorem oldService_iff {u : Nat} :
    oldService u d = true ↔ ∃ c v, (d.chn.at c).prog.svc = some v ∧ v.view.at' < u := by
  rw [oldService, List.any_eq_true]
  constructor
  · rintro ⟨c, -, old⟩
    split at old
    case h_1 v svc => exact ⟨c, v, svc, of_decide_eq_true old⟩
    case h_2 => cases old
  · rintro ⟨c, v, svc, old⟩
    exact ⟨c, mem_fins c, by simp [svc, old]⟩

theorem drainEnd_none (none : (d.alm.at n).drain = none) : drainEnd n d = d := by
  simp [drainEnd, none]

theorem drainEnd_waits {b l u : Nat} (drain : (d.alm.at n).drain = some (b, l, u)) {c : Chan} {v : Service}
    (svc : (d.chn.at c).prog.svc = some v) (old : v.view.at' < u) : drainEnd n d = d := by
  have waits : oldService u d = true := oldService_iff.mpr ⟨c, v, svc, old⟩
  simp [drainEnd, drain, waits]

theorem drainEnd_done {b l u : Nat} (drain : (d.alm.at n).drain = some (b, l, u))
    (young : ∀ c v, (d.chn.at c).prog.svc = some v → u ≤ v.view.at') :
    drainEnd n d = d.tabUpd n (fun t => { t with st := .idle, drain := none }) := by
  have done : ¬ oldService u d = true := by
    rw [oldService_iff]
    rintro ⟨c, v, svc, old⟩
    exact absurd (young c v svc) (Nat.not_le.mpr old)
  simp [drainEnd, drain, done]

/-- R220: the shadow extent is locked from GO to the switch. -/
theorem ATable.shadowLocked_iff {t : ATable} : t.shadowLocked = true ↔ t.st = .check ∨ t.st = .pend := by
  simp [ATable.shadowLocked]

theorem switchCancel_locked (locked : (d.alm.at n).st = .check ∨ (d.alm.at n).st = .pend) :
    switchCancel n d = d.tabUpd n (fun t => { t with st := .idle }) :=
  if_pos (ATable.shadowLocked_iff.mpr locked)

theorem switchCancel_unlocked (unlocked : (d.alm.at n).st = .idle ∨ (d.alm.at n).st = .drain) : switchCancel n d = d := by
  refine if_neg (ATable.shadowLocked_iff.not.mpr ?_)
  rcases unlocked with idle | drain
  · simp [idle]
  · simp [drain]

theorem tableUndefine_busy (busy : (d.alm.at n).st ≠ .idle) :
    tableUndefine n d = d.tabUpd n (fun t => { t with ref := true }) := if_pos busy

theorem tableUndefine_defined (idle : (d.alm.at n).st = .idle) (defined : (d.alm.at n).defd = true) :
    tableUndefine n d = d.tabUpd n (fun t => { t with undef := true }) := by
  simp [tableUndefine, idle, defined]

theorem tableUndefine_undefined (idle : (d.alm.at n).st = .idle) (undefined : (d.alm.at n).defd = false) :
    tableUndefine n d = d := by
  simp [tableUndefine, idle, undefined]

theorem tableDefine_busy (busy : (d.alm.at n).st ≠ .idle) :
    tableDefine n d = d.tabUpd n (fun t => { t with ref := true }) := if_pos busy

theorem tableDefine_defined (idle : (d.alm.at n).st = .idle) (defined : (d.alm.at n).defd = true) :
    tableDefine n d = d := by
  simp [tableDefine, idle, defined]

theorem tableDefine_undefined (idle : (d.alm.at n).st = .idle) (undefined : (d.alm.at n).defd = false) :
    tableDefine n d = d.tabUpd n (fun t => { t with defd := true, llen := 0 }) := by
  simp [tableDefine, idle, undefined]

end Tables

/-! ## The commands of the almanac -/

section Commands
variable (n : TableNo) (s : State)

theorem exec_switchGo (atmode : BitVec 2) (sw : Axis) (lead : BitVec 11) :
    exec (.switchGo n atmode sw lead) s = s.runDev (fun _ => switchGo n atmode sw lead) := rfl
theorem exec_checkComplete : exec (.checkComplete n) s = s.run (checkComplete n) := rfl
theorem exec_tableSwitch : exec (.tableSwitch n) s = s.runDev (tableSwitch n) := rfl
theorem exec_drainEnd : exec (.drainEnd n) s = s.runDev (fun _ => drainEnd n) := rfl
theorem exec_switchCancel : exec (.switchCancel n) s = s.runDev (fun _ => switchCancel n) := rfl
theorem exec_tableUndefine : exec (.tableUndefine n) s = s.runDev (fun _ => tableUndefine n) := rfl
theorem exec_tableDefine : exec (.tableDefine n) s = s.runDev (fun _ => tableDefine n) := rfl

end Commands

/-- R226, R231: when a check of CHECK fails, the switch is refused with its code, and the live extent stays. -/
theorem brings_refused {n : TableNo} {s : State} {code idx : Nat} (check : (s.core.dev.alm.at n).st = .check)
    (result : checkSwitch n s.core = (code, idx)) (fails : code ≠ 0) :
    Brings (.checkComplete n) s (fun d =>
      (d.alm.at n) = { s.core.dev.alm.at n with
        st := .idle, err := true, ecode := code, eidx := if 4 ≤ code then idx else (s.core.dev.alm.at n).eidx } ∧
      causes 250 d = causes 250 s.core.dev + 1) :=
  brings_of_run _ (exec_checkComplete n s) _ (checkComplete_refused _ check result fails)
    ⟨refuseSwitch_table code idx s.mt, causes_refuseSwitch code idx s.mt⟩

theorem Brings.imp {i : Instr} {s : State} {p q : Device → Prop} (brings : Brings i s p) (weaker : ∀ d, p d → q d) :
    Brings i s q := by
  obtain ⟨d, runs, holds⟩ := brings
  exact ⟨d, runs, weaker d holds⟩

/-- Settles O51: each command of a switch acts by the case of its table's state; the end of CHECK by the first check that
fails, or by all of them holding. -/
theorem almanacSwitches : Obligations.AlmanacSwitches := by
  unfold Obligations.AlmanacSwitches
  intro s n atmode sw lead t d
  have go := exec_switchGo n s atmode sw lead
  have ends := exec_checkComplete n s
  have switches := exec_tableSwitch n s
  have drains := exec_drainEnd n s
  have cancels := exec_switchCancel n s
  have undefines := exec_tableUndefine n s
  have defines := exec_tableDefine n s
  refine ⟨fun idle notPos => changes_of_runDev _ go (switchGo_idle idle notPos sw lead),
    fun busy => changes_of_runDev _ go (switchGo_busy busy atmode sw lead),
    fun other => idles_of_run _ ends (checkComplete_idle s.mt other), ?early, ?entry, ?pass,
    fun other => idles_of_runDev _ switches (tableSwitch_other s.mt other),
    fun pend due => changes_of_runDev _ switches (tableSwitch_due pend due),
    fun pend early => idles_of_runDev _ switches (tableSwitch_early pend early),
    fun b l u drain young => changes_of_runDev _ drains (drainEnd_done drain young),
    fun b l u c v drain svc old => idles_of_runDev _ drains (drainEnd_waits drain svc old),
    fun none => idles_of_runDev _ drains (drainEnd_none none),
    fun locked => changes_of_runDev _ cancels (switchCancel_locked locked),
    fun unlocked => idles_of_runDev _ cancels (switchCancel_unlocked unlocked),
    fun busy => ⟨changes_of_runDev _ undefines (tableUndefine_busy busy),
      changes_of_runDev _ defines (tableDefine_busy busy)⟩,
    fun idle defined => ⟨changes_of_runDev _ undefines (tableUndefine_defined idle defined),
      idles_of_runDev _ defines (tableDefine_defined idle defined)⟩,
    fun idle undefined => ⟨idles_of_runDev _ undefines (tableUndefine_undefined idle undefined),
      changes_of_runDev _ defines (tableDefine_undefined idle undefined)⟩⟩
  case early =>
    intro code check cause
    have result : checkSwitch n s.core = (code, 0) ∧ code ≠ 0 ∧ ¬ 4 ≤ code := by
      rcases cause with ⟨rfl, undefined⟩ | ⟨rfl, defined, mode⟩ | ⟨rfl, defined, mode, extent⟩
      · exact ⟨checkSwitch_undefined undefined, by decide, by decide⟩
      · exact ⟨checkSwitch_reservedMode defined mode, by decide, by decide⟩
      · exact ⟨checkSwitch_extent defined mode extent, by decide, by decide⟩
    obtain ⟨result, fails, noEntry⟩ := result
    refine (brings_refused check result fails).imp (fun d' ⟨table, raised⟩ => ?_)
    dsimp only
    rw [table, if_neg noEntry]
    exact ⟨rfl, rfl, rfl, rfl, rfl, rfl, raised⟩
  case entry =>
    intro j check defined mode extent inside fails first
    refine (brings_refused check (checkSwitch_entry defined mode extent inside fails first) fails).imp
      (fun d' ⟨table, _⟩ => ?_)
    dsimp only
    rw [table, if_pos (four_le_entryCheck fails)]
    exact ⟨rfl, rfl, rfl, rfl, rfl, rfl⟩
  case pass =>
    intro check defined mode extent all
    refine brings_of_run _ ends _ (checkComplete_passed s.mt check (checkSwitch_holds defined mode extent all)) ?_
    dsimp only
    rw [passSwitch_table]
    exact ⟨rfl, rfl, switchShown_passSwitch s.mt, rfl, rfl, rfl⟩

end Machine

end Sys2Proof

namespace Sys2Proof

namespace Machine

/-! ## Engine errors, failure, pace and leaving service -/

theorem exec_eccUncorr (h : Chan) (s : State) : exec (.eccUncorr h) s = s.run (eccUncorr h) := rfl
theorem exec_engineFail (n : EngineNo) (s : State) : exec (.engineFail n) s = s.runDev (engineFail n) := rfl
theorem exec_paceWindow (n : EngineNo) (k : BitVec 16) (s : State) :
    exec (.paceWindow n k) s = s.runDev (paceWindow n k.toNat) := rfl
theorem exec_engineLeaveService (n : EngineNo) (s : State) :
    exec (.engineLeaveService n) s = s.runDev (fun _ => engineLeave n) := rfl

/-- An update of an engine that keeps its slots keeps the services of every engine. -/
theorem engineChans_upd {f : Engine → Engine} (keeps : ∀ e, (f e).slots = e.slots) (n m : EngineNo) (d : Device) :
    engineChans m { d with hlm := { d.hlm with eng := d.hlm.eng.upd n f } } = engineChans m d := by
  have slots : ((d.hlm.eng.upd n f).at m).slots = (d.hlm.eng.at m).slots := by
    by_cases same : m = n
    · rw [same, Tab.at_upd_same, keeps]
    · rw [Tab.at_upd_ne _ _ same]
  simp only [engineChans, slots]

section Errors
variable {h : Chan} {v : Service} {now : Nat}

/-- R243, R245, R259: an uncorrectable error of engine `n` at `now` is counted, recorded and kept for 1 ms. -/
def recordError (n : EngineNo) (now : Nat) (d : Device) : Device :=
  let d := raise 5 249 0x04 0x11 n.val now { d with hlm := { d.hlm with eccUnc := satInc 16 d.hlm.eccUnc } }
  { d with hlm := { d.hlm with eng := d.hlm.eng.upd n (fun e => { e with
      errs := now :: e.errs.filter (fun t => decide (now < t + oneMs)) }) } }

theorem recordError_chn (n : EngineNo) (now : Nat) (d : Device) : (recordError n now d).chn = d.chn := rfl

theorem recordError_hlm (n : EngineNo) (now : Nat) (d : Device) : (recordError n now d).hlm = { d.hlm with
    eccUnc := satInc 16 d.hlm.eccUnc
    eng := d.hlm.eng.upd n (fun e => { e with errs := now :: e.errs.filter (fun t => decide (now < t + oneMs)) }) } := rfl

theorem recordError_rcnt (n : EngineNo) (now : Nat) (d : Device) :
    ((recordError n now d).evc.src.at 249).rcnt = (d.evc.src.at 249).rcnt + 1 :=
  raise_rcnt_same 5 249 0x04 0x11 n.val now _

/-- R245: after an error without an earlier one the engine keeps that error alone. -/
theorem recordError_errs_of_empty {n : EngineNo} {d : Device} (first : (d.hlm.eng.at n).errs = []) :
    ((recordError n now d).hlm.eng.at n).errs = [now] := by
  rw [recordError_hlm, Tab.at_upd_same, first]
  rfl

/-- R243: the instruction of a service restarts, its routine in flight being abandoned. -/
def restart (h : Chan) (d : Device) : Device :=
  (countAbandoned h d).progUpd h (fun p => { p with svc := p.svc.map (fun s => { s with retried := true }) })

/-- R243, R245: an error below the fourth within 1 ms restarts an instruction that was not restarted before. -/
theorem eccUncorr_restarts {c : Core} (svc : (c.dev.chn.at h).prog.svc = some v) (runs : canRun v = true)
    (fresh : v.retried = false) (few : ((recordError v.eng now c.dev).hlm.eng.at v.eng).errs.length < 4) :
    eccUncorr h now c = c.mapDev (fun d => restart h (recordError v.eng now d)) := by
  have below : ¬ 4 ≤ ((recordError v.eng now c.dev).hlm.eng.at v.eng).errs.length := Nat.not_le.mpr few
  unfold eccUncorr
  simp only [svc]
  refine (if_neg below).trans ?_
  simp only [runs, fresh, Bool.not_true, Bool.not_false, Bool.false_eq_true, if_false, if_true]
  rfl

/-- R243, R250: a routine that has neither a tail nor writes after COMMIT is in flight. -/
theorem Service.inFlight_of (before : ∀ r ∈ v.staged, r.late = false ∧ r.tail = none) : v.inFlight = true := by
  have noTail : v.staged.any (fun r => r.late || r.tail.isSome) = false := by
    rw [List.any_eq_false]
    intro r mem
    obtain ⟨late, tail⟩ := before r mem
    simp [late, tail]
  rw [Service.inFlight, noTail, Bool.not_false]

theorem countAbandoned_of_inFlight {d : Device} (svc : (d.chn.at h).prog.svc = some v) (flight : v.inFlight = true) :
    countAbandoned h d = { d with hlm := { d.hlm with abncnt := satInc 32 d.hlm.abncnt } } := by
  simp only [countAbandoned, svc, Option.map_some, Option.getD_some, flight, if_true]

/-- R243: a restart with a routine in flight counts it and marks the service. -/
theorem restart_eq {d : Device} (svc : (d.chn.at h).prog.svc = some v) (flight : v.inFlight = true) :
    restart h d = ({ d with hlm := { d.hlm with abncnt := satInc 32 d.hlm.abncnt } } : Device).progUpd h
      (fun p => { p with svc := some { v with retried := true } }) := by
  rw [restart, countAbandoned_of_inFlight svc flight]
  exact progUpd_congr (by simp only [svc, Option.map_some])

end Errors

section EngineState
variable {n : EngineNo} {now : Nat} {d : Device}

theorem engineFail_again (failed : (d.hlm.eng.at n).fail = true) : engineFail n now d = d := if_pos failed

/-- R245, R259: an engine with empty slots fails with its record alone. -/
theorem engineFail_empty (sound : (d.hlm.eng.at n).fail = false) (empty : engineChans n d = []) :
    engineFail n now d = raise 5 249 0x04 0x10 n.val now { d with
      hlm := { d.hlm with eng := d.hlm.eng.upd n (fun e => { e with fail := true, insvc := false }) } } := by
  have still := (engineChans_upd (f := fun e => { e with fail := true, insvc := false }) (fun _ => rfl) n n d).trans empty
  rw [engineFail, sound, if_neg Bool.false_ne_true]
  simp only [still, List.foldl_nil]

/-- R245, R445: without thermal pacing a window is too slow above 10,400 ps alone. -/
theorem tooSlow_unpaced {step : Nat} (cool : d.thm.stage ≠ 4) : tooSlow step d = decide (10400 < step) := by
  rw [tooSlow, if_neg cool]
  exact decide_eq_decide.mpr (by omega)

/-- R240: a window that is not too slow is measured, and the engine stays in service. -/
theorem paceWindow_within {step : Nat} (within : step ≤ 10400) (cool : d.thm.stage ≠ 4) :
    paceWindow n step now d = { d with hlm := { d.hlm with eng := d.hlm.eng.upd n (fun e => { e with
      epace := step, emax := max e.emax step, wins := (step :: e.wins).take 16, meas := e.meas + 1 }) } } := by
  have inTime : ¬ tooSlow step d = true := by
    rw [tooSlow_unpaced cool, decide_eq_true_iff]
    exact Nat.not_lt.mpr within
  exact if_neg inTime

theorem engineLeave_idle (masked : d.hlm.emask.getLsbD n.val = false) (empty : engineChans n d = []) :
    engineLeave n d = { d with hlm := { d.hlm with eng := d.hlm.eng.upd n (fun e => { e with insvc := false }) } } := by
  rw [engineLeave, masked, empty]
  rfl

theorem engineLeave_stays (stays : d.hlm.emask.getLsbD n.val = true ∨ engineChans n d ≠ []) : engineLeave n d = d := by
  refine if_pos ?_
  rw [Bool.or_eq_true, Bool.not_eq_true', List.isEmpty_eq_false_iff]
  exact stays

end EngineState

/-- Settles O40: an error is recorded and then restarts its instruction; failure, pace and leaving service go by the case
of their engine. -/
theorem engines : Obligations.Engines := by
  unfold Obligations.Engines
  intro s d
  refine ⟨?error,
    fun n sound empty => changes_of_runDev _ (exec_engineFail n s) (engineFail_empty sound empty),
    fun n failed => idles_of_runDev _ (exec_engineFail n s) (engineFail_again failed),
    fun n k within cool => changes_of_runDev _ (exec_paceWindow n k s) (paceWindow_within within cool),
    fun n masked empty => changes_of_runDev _ (exec_engineLeaveService n s) (engineLeave_idle masked empty),
    fun n stays => idles_of_runDev _ (exec_engineLeaveService n s) (engineLeave_stays stays)⟩
  case error =>
    intro ch v svc runs fresh before first
    have errs : ((recordError v.eng s.mt d).hlm.eng.at v.eng).errs = [s.mt] := recordError_errs_of_empty first
    have few : ((recordError v.eng s.mt d).hlm.eng.at v.eng).errs.length < 4 := by simp [errs]
    refine brings_of_run _ (exec_eccUncorr ch s) _ (eccUncorr_restarts svc runs fresh few) ?_
    rw [restart_eq (d := recordError v.eng s.mt d) svc (Service.inFlight_of before)]
    exact ⟨satInc_eq_min 16 _, satInc_eq_min 32 _, errs, recordError_rcnt v.eng s.mt d, Tab.at_upd_same _ _ _,
      progUpd_others ch _ _⟩

end Machine

end Sys2Proof

namespace Sys2Proof

namespace Machine

/-! ## Clove engines: rows and updates -/

theorem exec_cloveStep (n : CloveNo) (s : State) :
    exec (.cloveStep n) s = s.run (fun now c => { c with dev := cloveStep n c.ram now c.dev }) := rfl
theorem exec_cloveTimer (n : CloveNo) (k : Fin 2) (s : State) : exec (.cloveTimer n k) s = s.runDev (fun _ d => d) := rfl
theorem exec_cloveEnable (n : CloveNo) (s : State) : exec (.cloveEnable n) s = s.runDev (cloveEnable n) := rfl
theorem exec_cloveDisable (n : CloveNo) (s : State) : exec (.cloveDisable n) s = s.runDev (fun _ => cloveDisable n) := rfl
theorem exec_swap (n : CloveNo) (s : State) :
    exec (.swap n) s = s.runDev (fun _ d => d.clvUpd n (fun c => { c with pend := true })) := rfl
theorem exec_forceSwap (n : CloveNo) (s : State) : exec (.forceSwap n) s = s.runDev (forceSwap n) := rfl
theorem exec_cloveCancel (n : CloveNo) (s : State) :
    exec (.cloveCancel n) s = s.runDev (fun _ d => d.clvUpd n (fun c => { c with pend := false })) := rfl
theorem exec_rxdRead (n : CloveNo) (s : State) : exec (.rxdRead n) s = s.runDev (fun _ => rxdRead n) := rfl
theorem exec_txdWrite (n : CloveNo) (v : Word) (s : State) :
    exec (.txdWrite n v) s = s.runDev (fun _ => txdWrite n v) := rfl
theorem exec_flagSet (n : CloveNo) (m : Byte) (s : State) : exec (.flagSet n m) s = s.runDev (fun _ => flagsSet n m) := rfl
theorem exec_flagClear (n : CloveNo) (m : Byte) (s : State) :
    exec (.flagClear n m) s = s.runDev (fun _ => flagsClear n m) := rfl

section Control
variable {n : CloveNo} {now : Nat} {d : Device}

/-- Two updates of one clove engine are one. -/
theorem Device.clvUpd_clvUpd (n : CloveNo) (f g : Clove → Clove) (d : Device) :
    (d.clvUpd n f).clvUpd n g = d.clvUpd n (fun c => g (f c)) := by
  simp only [Device.clvUpd, Tab.upd_upd]

/-- Two updates of a clove engine that agree on it as it is are the same. -/
theorem Device.clvUpd_congr {f g : Clove → Clove} (agree : f (d.clv.at n) = g (d.clv.at n)) :
    d.clvUpd n f = d.clvUpd n g := by
  simp only [Device.clvUpd, Tab.upd, agree]

theorem Device.clvUpd_at_same (n : CloveNo) (f : Clove → Clove) (d : Device) :
    (d.clvUpd n f).clv.at n = f (d.clv.at n) := Tab.at_upd_same _ _ _

/-! ## Lines and outputs -/

/-- R261: a TIMER line is 1 from 32 × TIM after the entry of the state on. -/
theorem lineValue_timer {k : Fin 8} (timer : fld ((d.clv.at n).line.at k) 2 0 = 4) :
    lineValue n k.val now d = decide ((d.clv.at n).ent +
      32 * fld ((d.clv.at n).timE.at (Fin.ofNat 2 (fld ((d.clv.at n).line.at k) 15 8))) 23 0 ≤ now) := by
  simp only [lineValue, Fin.ofNat_val_eq_self, timer]

/-- R263: outputs of which none drives a channel take their new values without an action, also right after an update
that keeps the output map. -/
theorem setOutputs_unmapped {f : Clove → Clove} (unmapped : ∀ k, (d.clv.at n).mapped k = none)
    (keeps : (f (d.clv.at n)).omap = (d.clv.at n).omap) (old new : Byte) (t : Nat) :
    setOutputs n old new t now (d.clvUpd n f) = d.clvUpd n (fun c => { f c with out := new }) := by
  have still : ∀ k, (({ f (d.clv.at n) with out := new } : Clove)).mapped k = none := fun k => by
    rw [← unmapped k]
    simp only [Clove.mapped, keeps]
  rw [setOutputs, Device.clvUpd_clvUpd]
  refine foldl_keeps (· = d.clvUpd n (fun c => { f c with out := new })) _ (fun e k same => ?_) _ _ rfl
  rw [same, Device.clvUpd_at_same, still k]
  exact ite_self _

/-! ## Enable and swaps -/

theorem cloveEnable_again (enabled : (d.clv.at n).en = true) : cloveEnable n now d = d := if_pos enabled

/-- R266, R273: an enable without mapped outputs starts the engine in state 0 with the initial byte of its bank. -/
theorem cloveEnable_unmapped (unmapped : ∀ k, (d.clv.at n).mapped k = none) (stopped : (d.clv.at n).en = false) :
    cloveEnable n now d = d.clvUpd n (fun c => { c with
      en := true, run := true, fault := false, st := 0, ent := now, sr := 0, scnt := 0, stmpV := false, tx := [], rx := []
      forced := false, out := c.initOf c.bank }) := by
  rw [cloveEnable, if_neg (Bool.eq_false_iff.mp stopped)]
  exact (setOutputs_unmapped unmapped rfl _ _ _).trans (Device.clvUpd_congr rfl)

/-- R266: the initial byte of the bank that is not active. -/
theorem Clove.initOf_not (c : Clove) (b : Bool) :
    c.initOf (!b) = BitVec.ofNat 8 (if b then fld c.init 7 0 else fld c.init 15 8) := by
  cases b <;> rfl

/-- R272: FORCE_SWAP on a running engine without mapped outputs and without the SWAPPED record. -/
theorem forceSwap_unmapped (unmapped : ∀ k, (d.clv.at n).mapped k = none) (runs : (d.clv.at n).run = true)
    (silent : (d.clv.at n).evSwap = false) :
    forceSwap n now d = d.clvUpd n (fun c => { c with
      shifted := c.scnt, sr := 0, scnt := 0, forced := true, bank := !c.bank, pend := false, st := 0, ent := now
      out := c.initOf (!c.bank) }) := by
  rw [forceSwap, if_pos runs, cloveSwap]
  simp only [Device.clvUpd_clvUpd, Device.clvUpd_at_same]
  refine (if_neg (Bool.eq_false_iff.mp silent)).trans ?_
  exact (setOutputs_unmapped unmapped rfl _ _ _).trans (Device.clvUpd_congr rfl)

/-- R277: FORCE_SWAP on a stopped engine is an ignored write. -/
theorem forceSwap_stopped (stopped : (d.clv.at n).run = false) :
    forceSwap n now d = d.clvUpd n (fun c => { c with flagsW := c.flagsW ||| 1 }) :=
  if_neg (Bool.eq_false_iff.mp stopped)

/-! ## Data ports -/

/-- R274: a read of CLV_RXD shows the head of the RX FIFO, and pops it unless the FIFO is read by request. -/
theorem rxdRead_head {w : Word} {t : Nat} {l : List (Word × Nat)} (head : (d.clv.at n).rx = (w, t) :: l)
    (shown : d.turn.post.getLsbD n.val = false) :
    rxdRead n d = { d.clvUpd n (fun c => { c with rxd := w, rxt := t, rx := if c.rxreq then (w, t) :: l else l }) with
      hps := { d.hps with dout := w } } := by
  simp only [rxdRead, bitOf, shown, Bool.false_eq_true, if_false, head, Device.clvUpd_at_same, Device.clvUpd_hps]

theorem txPush_room {v : Word} (room : (d.clv.at n).tx.length < 4) :
    txPush n v d = d.clvUpd n (fun c => { c with tx := c.tx ++ [v] }) := if_neg (Nat.not_le.mpr room)

theorem txPush_full {v : Word} (full : 4 ≤ (d.clv.at n).tx.length) : txPush n v d = cloveFlag n 2 d := if_pos full

theorem txdWrite_room {v : Word} (room : (d.clv.at n).tx.length < 4) :
    txdWrite n v d = d.clvUpd n (fun c => { c with tx := c.tx ++ [v] }) :=
  (if_neg (Nat.not_le.mpr room)).trans (txPush_room room)

/-- R274, R277: a word that the TX FIFO has no room for sets TXOVF and WREF. -/
theorem txdWrite_full {v : Word} (full : 4 ≤ (d.clv.at n).tx.length) :
    txdWrite n v d = d.clvUpd n (fun c => { c with flagsW := c.flagsW ||| 5 }) := by
  rw [txdWrite, if_pos full, txPush_full full, cloveFlag, cloveFlag, Device.clvUpd_clvUpd]
  exact Device.clvUpd_congr (by rw [BitVec.or_assoc]; rfl)

end Control

/-- Settles O43: each row is one update of its engine; an enable and a forced swap set the outputs last, which makes no
action when none is mapped. -/
theorem cloveControl : Obligations.CloveControl := by
  unfold Obligations.CloveControl
  intro s n c
  have forces := exec_forceSwap n s
  refine ⟨fun unmapped stopped => changes_of_runDev _ (exec_cloveEnable n s) (cloveEnable_unmapped unmapped stopped),
    fun enabled => idles_of_runDev _ (exec_cloveEnable n s) (cloveEnable_again enabled),
    fun stopped => changes_of_runDev _ forces (forceSwap_stopped stopped),
    changes_of_runDev _ (exec_cloveDisable n s) rfl,
    changes_of_runDev _ (exec_swap n s) rfl,
    changes_of_runDev _ (exec_cloveCancel n s) rfl,
    fun unmapped runs silent => changes_of_runDev _ forces ((forceSwap_unmapped unmapped runs silent).trans
      (Device.clvUpd_congr (by rw [Clove.initOf_not]))),
    fun w t l head shown => changes_of_runDev _ (exec_rxdRead n s) (rxdRead_head head shown),
    fun v room => changes_of_runDev _ (exec_txdWrite n v s) (txdWrite_room room),
    fun v full => changes_of_runDev _ (exec_txdWrite n v s) (txdWrite_full full),
    fun m => ⟨changes_of_runDev _ (exec_flagSet n m s) rfl, changes_of_runDev _ (exec_flagClear n m s) rfl⟩,
    fun k => idles_of_runDev _ (exec_cloveTimer n k s) rfl,
    fun k timer _ => ?_⟩
  rw [lineValue_timer timer, decide_eq_true_iff]

/-! ## The word that a state selects -/

section Stepping
variable {n : CloveNo} {now : Nat} {r : Ram} {d : Device}

/-- R267: the lead word of the state of engine `n`. -/
def cloveLead (n : CloveNo) (r : Ram) (d : Device) : Word :=
  r.clvWord n (d.clv.at n).bank (4 * (d.clv.at n).st.toNat)

/-- R268: the transition word that the lines of engine `n` select. -/
def cloveWord (n : CloveNo) (r : Ram) (now : Nat) (d : Device) : Word :=
  let lead := cloveLead n r d
  r.clvWord n (d.clv.at n).bank
    (4 * (d.clv.at n).st.toNat + transIndex (leadNsel lead) (leadSel lead) (fun k => lineValue n k now d))

/-- R275: the selected word of engine `n` faults. -/
def cloveWordFaults (n : CloveNo) (r : Ram) (now : Nat) (d : Device) : Bool :=
  let w := cloveWord n r now d
  wordFaults (d.clv.at n).st.toNat (cloveLead n r d) w (r.clvWord n (d.clv.at n).bank (4 * (fld w 5 0 - 1)))

/-- R270: what a running engine that has not acted at this boundary does. -/
theorem cloveStep_acts (runs : (d.clv.at n).run = true) (fresh : d.turn.clv.getLsbD n.val = false) :
    cloveStep n r now d =
      if (d.clv.at n).forced then (acted n d).clvUpd n (fun c => { c with forced := false })
      else if cloveWordFaults n r now d then badWord n now (acted n d)
      else swapTest n r now (cloveTransition n (cloveWord n r now d) now (acted n d)) := by
  have free : ¬ (!(d.clv.at n).run || bitOf d.turn.clv n.val) = true := by
    rw [runs, bitOf, fresh]
    decide
  exact if_neg free

theorem cloveStep_idle (idle : (d.clv.at n).run = false ∨ d.turn.clv.getLsbD n.val = true) : cloveStep n r now d = d := by
  refine if_pos ?_
  rw [Bool.or_eq_true, Bool.not_eq_true']
  exact idle

/-- R272: the boundary of a forced swap takes no transition. -/
theorem cloveStep_forced (runs : (d.clv.at n).run = true) (fresh : d.turn.clv.getLsbD n.val = false)
    (forced : (d.clv.at n).forced = true) :
    cloveStep n r now d = (acted n d).clvUpd n (fun c => { c with forced := false }) := by
  rw [cloveStep_acts runs fresh, if_pos forced]

/-! ## A word that faults -/

/-- R275, R276: the record of a faulting word carries the state and the engine's half of its source. -/
theorem badWord_eq : badWord n now d =
    raise 4 (224 + n.val / 2) 0x04 0x10 ((d.clv.at n).st.toNat * 2 + n.val % 2) now
      (d.clvUpd n (fun c => { c with run := false, fault := true })) := by
  have fits : (d.clv.at n).st.toNat % 128 = (d.clv.at n).st.toNat := Nat.mod_eq_of_lt (by omega)
  rw [badWord, raiseClv, fits]

theorem cloveStep_faults (runs : (d.clv.at n).run = true) (fresh : d.turn.clv.getLsbD n.val = false)
    (plain : (d.clv.at n).forced = false) (faults : cloveWordFaults n r now d = true) :
    cloveStep n r now d =
      raise 4 (224 + n.val / 2) 0x04 0x10 ((d.clv.at n).st.toNat * 2 + n.val % 2) now
        ((acted n d).clvUpd n (fun c => { c with run := false, fault := true })) := by
  rw [cloveStep_acts runs fresh, if_neg (Bool.eq_false_iff.mp plain), if_pos faults]
  exact badWord_eq

/-! ## A transition -/

/-- R265: a shift field that is 0 shifts nothing, and 1 shifts the input into SR. -/
theorem cloveShift_of_le_one {sh : Nat} (small : sh ≤ 1) (inp : Bool) (c : Clove) :
    cloveShift sh inp c = { c with
      sr := if sh = 1 then (c.sr <<< 1) ||| (if inp then 1 else 0) else c.sr
      scnt := if sh = 1 then min 63 (c.scnt + 1) else c.scnt } := by
  have zeroOrOne : sh = 0 ∨ sh = 1 := by omega
  rcases zeroOrOne with rfl | rfl
  · rfl
  · simp [cloveShift]

/-- R263, R265, R270: a transition without mapped outputs, without ACT and without a shift out of SR is one update. -/
theorem cloveTransition_unmapped {w : Word} (unmapped : ∀ k, (d.clv.at n).mapped k = none) (noAct : fld w 18 16 = 0)
    (shift : fld w 15 14 ≤ 1) :
    cloveTransition n w now d = d.clvUpd n (fun c => { c with
      out := BitVec.ofNat 8 (fld w 13 6)
      sr := if fld w 15 14 = 1 then (c.sr <<< 1) ||| (if lineValue n (d.clv.at n).sin now d then 1 else 0) else c.sr
      scnt := if fld w 15 14 = 1 then min 63 (c.scnt + 1) else c.scnt
      st := BitVec.ofNat 6 (fld w 5 0), ent := if BitVec.ofNat 6 (fld w 5 0) = c.st then c.ent else now }) := by
  have noOut : fld w 15 14 ≠ 2 := by omega
  have keeps (inp : Bool) : (cloveShift (fld w 15 14) inp (d.clv.at n)).omap = (d.clv.at n).omap := by
    rw [cloveShift_of_le_one shift]
  rw [cloveTransition]
  simp only [noAct, if_neg noOut, setOutputs_unmapped unmapped (keeps _), cloveAct, Device.clvUpd_clvUpd]
  exact Device.clvUpd_congr (by rw [cloveShift_of_le_one shift])

theorem swapTest_of_not_pend (noSwap : (d.clv.at n).pend = false) : swapTest n r now d = d := by
  simp only [swapTest, noSwap, Bool.false_and, Bool.false_eq_true, if_false]

/-- R270: a word that does not fault is performed, and without a pending swap nothing follows. -/
theorem cloveStep_performs (runs : (d.clv.at n).run = true) (fresh : d.turn.clv.getLsbD n.val = false)
    (plain : (d.clv.at n).forced = false) (noSwap : (d.clv.at n).pend = false)
    (unmapped : ∀ k, (d.clv.at n).mapped k = none) (noAct : fld (cloveWord n r now d) 18 16 = 0)
    (shift : fld (cloveWord n r now d) 15 14 ≤ 1) (sound : cloveWordFaults n r now d = false) :
    cloveStep n r now d = cloveTransition n (cloveWord n r now d) now (acted n d) := by
  rw [cloveStep_acts runs fresh, if_neg (Bool.eq_false_iff.mp plain), if_neg (Bool.eq_false_iff.mp sound)]
  apply swapTest_of_not_pend
  rw [cloveTransition_unmapped (d := acted n d) unmapped noAct shift, Device.clvUpd_at_same]
  exact noSwap

end Stepping

/-- Settles O44: an engine that acts is in one of three cases: a forced swap, a word that faults, or a transition. -/
theorem cloveSteps : Obligations.CloveSteps := by
  unfold Obligations.CloveSteps
  intro s n c st lead j w partner
  have changes {g : Device → Device} (steps : cloveStep n s.core.ram s.mt s.core.dev = g s.core.dev) :
      Changes (.cloveStep n) s g :=
    changes_of_run _ (exec_cloveStep n s) (congrArg (fun d => { s.core with dev := d }) steps)
  refine ⟨fun idle => idles_of_run _ (exec_cloveStep n s)
      (congrArg (fun d => { s.core with dev := d }) (cloveStep_idle idle)),
    fun runs fresh plain noSwap unmapped noAct shift sound =>
      changes ((cloveStep_performs runs fresh plain noSwap unmapped noAct shift sound).trans
        (cloveTransition_unmapped (d := acted n s.core.dev) unmapped noAct shift)),
    fun runs fresh plain faults => changes (cloveStep_faults runs fresh plain faults),
    fun runs fresh forced => changes (cloveStep_forced runs fresh forced)⟩

end Machine

end Sys2Proof

namespace Sys2Proof

namespace Machine

/-! ## What the meanings leave of the memories: their canonical form

A meaning on the blocks and memories reaches the memories through the writes and losses of `Ram` alone, each of which keeps
the form (`Ram.bankWrite_wf`, `Ram.loseBank_wf` and the others). The lemmas follow the model, function by function; where a
case leaves the memories untouched, the hypothesis itself closes it. -/

/-- Command `i` takes effect in `s` and leaves the memories in canonical form. -/
inductive KeepsForm (i : Instr) (s : State) : Prop
  | intro (t : State) (next : exec i s = .next t) (form : t.core.ram.wf) : KeepsForm i s

/-! ### Banks and the mace -/

theorem loseIfOff_wf (bk : BankNo) (st : BankSt) {r : Ram} (h : r.wf) : (loseIfOff bk st r).wf := by
  unfold loseIfOff
  split
  · exact Ram.loseBank_wf h bk
  · exact h

theorem bankPowered_wf (bk : BankNo) (now : Nat) {c : Core} (h : c.ram.wf) : (bankPowered bk now c).ram.wf := by
  unfold bankPowered
  dsimp only
  split
  · exact loseIfOff_wf _ _ h
  · exact Ram.loseBank_wf h bk
  · exact h

theorem bankChange_wf (bk : BankNo) (now : Nat) {c : Core} (h : c.ram.wf) : (bankChange bk now c).ram.wf := by
  unfold bankChange
  dsimp only
  have lost (st : BankSt) : (loseIfOff bk st c.ram).wf := loseIfOff_wf bk st h
  split
  · exact h
  · split
    · exact h
    · exact h
    · split
      · exact lost _
      · exact h
    · split
      · exact h
      · exact lost _
    · split
      · exact h
      · exact lost _
    · split
      · exact h
      · exact lost _

theorem maceGo_wf (now : Nat) {c : Core} (h : c.ram.wf) : (maceGo now c).ram.wf := by
  unfold maceGo
  dsimp only
  split
  · exact h
  · split
    · exact foldl_keeps Ram.wf _ (fun _ b hr => Ram.loseBank_wf hr b) _ _ h
    · exact h

theorem mctlWrite_wf (v : Word) (now : Nat) {c : Core} (h : c.ram.wf) : (mctlWrite v now c).ram.wf := by
  have aborted : ((if bitOf v 1 then (c.mapDev (fun d => { d with mem := { d.mem with mctl := v &&& 0xFFFF_007C } })).mapDev
      (maceAbort now) else c.mapDev (fun d => { d with mem := { d.mem with mctl := v &&& 0xFFFF_007C } }))).ram.wf := by
    split <;> exact h
  unfold mctlWrite
  dsimp only
  split
  · exact maceGo_wf now aborted
  · exact aborted

theorem loseWords_wf (b : BankNo) (r : Nat) (l : List (Fin 64)) {c : Core} (h : c.ram.wf) :
    (l.foldl (fun c k => loseWord b r k c) c).ram.wf :=
  foldl_keeps (fun c : Core => c.ram.wf) _ (fun _ _ hc => Ram.bankWrite_wf hc _ _ _) l c h

theorem windowFinish_wf (row spare : List CellFault) (now : Nat) {c : Core} (h : c.ram.wf) :
    (windowFinish row spare now c).ram.wf := by
  unfold windowFinish
  dsimp only
  split
  · exact h
  · generalize badWords _ _ = lost
    exact loseWords_wf _ _ lost h

theorem maceWindow_wf (p : WindowPart) (now : Nat) {c : Core} (h : c.ram.wf) : (maceWindow p now c).ram.wf := by
  cases p with
  | borrow =>
    unfold maceWindow windowBorrow
    dsimp only
    split <;> exact h
  | finish row spare => exact windowFinish_wf row spare now h

theorem startUpRepair_wf (faults : List RowFault) (bad : List SpareFault) (now : Nat) {c : Core} (h : c.ram.wf) :
    (startUpRepair faults bad now c).ram.wf := by
  unfold startUpRepair
  exact Ram.loseBanks_wf h

/-! ### The almanac's check and the instructions of programs -/

theorem checkComplete_wf (n : TableNo) (now : Nat) {c : Core} (h : c.ram.wf) : (checkComplete n now c).ram.wf := by
  unfold checkComplete
  split
  · exact h
  · dsimp only
    split <;> exact h

/-- R250: staging the writes of a routine touches no memory. -/
theorem stage_ram (h : Chan) (now : Nat) (r : Run) (c : Core) : (stage h now r c).ram = c.ram := rfl

/-- R250: an instruction touches no memory; what it stores is held until its segment is released. -/
theorem runInstr_wf {mine : Nat → Bool} {rom : Env → Run} {h : Chan} {now : Nat} {c : Core} (hc : c.ram.wf) :
    (runInstr mine rom h now c).ram.wf := by
  unfold runInstr
  split
  · exact hc
  · dsimp only
    split <;> exact hc

theorem illegalOpcode_wf (h : Chan) (now : Nat) {c : Core} (hc : c.ram.wf) : (illegalOpcode h now c).ram.wf := by
  unfold illegalOpcode
  split
  · exact hc
  · dsimp only
    split
    · split
      · exact hc
      · split
        · exact hc
        · split
          · split <;> exact hc
          · exact hc
    · exact hc

theorem microLimit_wf (h : Chan) (ua : BitVec 16) (now : Nat) {c : Core} (hc : c.ram.wf) :
    (microLimit h ua now c).ram.wf := by
  unfold microLimit
  split
  · exact hc
  · split <;> exact hc

theorem eccUncorr_wf (h : Chan) (now : Nat) {c : Core} (hc : c.ram.wf) : (eccUncorr h now c).ram.wf := by
  unfold eccUncorr
  split
  · exact hc
  · dsimp only
    split
    · exact hc
    · split
      · exact hc
      · split <;> exact hc

/-! ### Links -/

theorem txTake_wf (l : LinkNo) (now : Nat) : ∀ (k : Nat) {c : Core}, c.ram.wf → (txTake l now k c).2.ram.wf
  | 0, _, h => h
  | k + 1, c, h => by
    unfold txTake
    dsimp only
    split
    · split
      · split
        · exact txTake_wf l now k (Ram.lbufWrite_wf h _ _ _)
        · exact Ram.lbufWrite_wf h _ _ _
      · exact h
    · exact h

theorem upFrame_wf (l : LinkNo) (f now : Nat) {c : Core} (h : c.ram.wf) : (upFrame l f now c).ram.wf := by
  unfold upFrame
  split
  · exact h
  · dsimp only
    split
    · exact h
    · split
      · exact h
      · split
        · exact h
        · have taken := txTake_wf l now 64 (c := c.mapDev (holdCount l (planFrame l f now c.dev).held)) h
          split <;> simp_all

theorem linkFrame_wf (l : LinkNo) (f now : Nat) {c : Core} (h : c.ram.wf) : (linkFrame l f now c).ram.wf := by
  unfold linkFrame
  dsimp only
  split
  · exact h
  · exact h
  · exact h
  · exact h
  · exact upFrame_wf l f now h

theorem frameTransmit_wf (l : LinkNo) (now : Nat) {c : Core} (h : c.ram.wf) : (frameTransmit l now c).ram.wf := by
  unfold frameTransmit
  split
  · exact linkFrame_wf l _ now h
  · exact h

theorem linkStep_wf (l : LinkNo) (now : Nat) {c : Core} (h : c.ram.wf) : (linkStep l now c).ram.wf :=
  frameTransmit_wf l now h

/-- R284: an upstream frame leaves the memories to what a good frame does. -/
theorem goodFrame_wf (l : LinkNo) (kind : Nat) (hdr : Byte) (a now : Nat) {k : Option Nat → Core → Core} {c : Core}
    (hk : ∀ g (c : Core), c.ram.wf → (k g c).ram.wf) (h : c.ram.wf) : (goodFrame l kind hdr a now k c).ram.wf := by
  unfold goodFrame
  dsimp only
  split
  · exact h
  · split
    · exact h
    · exact h
    · split
      · exact hk _ _ h
      · exact h
    · split
      · exact h
      · split
        · exact hk _ _ h
        · exact h

theorem upUser_wf (l : LinkNo) (p : Tab Byte 12) (a : Nat) {c : Core} (h : c.ram.wf) : (upUser l p a c).ram.wf :=
  Ram.lbufWrite_wf (foldl_keeps Ram.wf _ (fun _ _ hr => Ram.lbufWrite_wf hr _ _ _) _ _ h) _ _ _

/-- A choice between two meanings keeps the form when both do. -/
theorem Core.wf_ite {p : Prop} [Decidable p] {a b : Core} (ha : a.ram.wf) (hb : b.ram.wf) :
    (if p then a else b).ram.wf := by
  split
  · exact ha
  · exact hb

/-! ### The transfer engine -/

theorem writeByte_wf (a : Nat) (b : Byte) {c : Core} (h : c.ram.wf) : (writeByte a b c).ram.wf := by
  unfold writeByte
  split
  · exact Ram.bankWrite_wf h _ _ _
  · exact Ram.almWrite_wf h _ _ _
  · exact Ram.progWrite_wf h _ _ _
  · exact Ram.lbufWrite_wf h _ _ _
  · exact h
  · exact h

theorem storeBytes_wf (n : XcNo) (l : List (Nat × Byte)) (now : Nat) {c : Core} (h : c.ram.wf) :
    (storeBytes n l now c).ram.wf := by
  unfold storeBytes
  dsimp only
  exact foldl_keeps (fun c : Core => c.ram.wf) _ (fun _ _ hc => writeByte_wf _ _ hc) _ _ h

theorem writeStatus_wf (n : XcNo) (res now : Nat) {c : Core} (h : c.ram.wf) : (writeStatus n res now c).ram.wf := by
  unfold writeStatus
  dsimp only
  split
  · exact h
  · split
    · exact storeBytes_wf n _ now h
    · exact h

theorem xStop_wf (n : XcNo) (cause now : Nat) {c : Core} (h : c.ram.wf) : (xStop n cause now c).ram.wf := by
  unfold xStop
  rw [Core.mapDev_ram]
  exact writeStatus_wf n 0 now h

theorem markBad_wf (n : XcNo) (w0 : DWord) (now : Nat) {c : Core} (h : c.ram.wf) : (markBad n w0 now c).ram.wf := by
  unfold markBad
  exact Core.wf_ite (storeBytes_wf n _ now h) h

theorem xBad_wf (n : XcNo) (w0 : DWord) (cause : Nat) (res : Option Nat) (now : Nat) {c : Core} (h : c.ram.wf) :
    (xBad n w0 cause res now c).ram.wf := by
  unfold xBad
  rw [Core.mapDev_ram]
  exact markBad_wf n w0 now h

theorem xDecode_wf (n : XcNo) (a : Nat) (w0 : DWord) (now : Nat) {c : Core} (h : c.ram.wf) :
    (xDecode n a w0 now c).ram.wf := by
  unfold xDecode
  dsimp only
  split
  · exact h
  · split
    · exact xBad_wf n w0 _ _ now h
    · split
      · exact h
      · exact h
      · split
        · exact xBad_wf n w0 _ _ now h
        · exact h

theorem xFetch_wf (n : XcNo) (now : Nat) {c : Core} (h : c.ram.wf) : (xFetch n now c).ram.wf := by
  unfold xFetch
  dsimp only
  split
  · exact xStop_wf n _ now h
  · split
    · exact h
    · exact h
    · split
      · exact xStop_wf n _ now h
      · exact xDecode_wf n _ _ now h

theorem descriptorFetch_wf (n : XcNo) (now : Nat) {c : Core} (h : c.ram.wf) : (descriptorFetch n now c).ram.wf := by
  unfold descriptorFetch
  dsimp only
  split
  · exact xFetch_wf n now h
  · exact h

theorem atendRefetch_wf (n : XcNo) (now : Nat) {c : Core} (h : c.ram.wf) : (atendRefetch n now c).ram.wf := by
  unfold atendRefetch
  dsimp only
  split
  · exact xFetch_wf n now h
  · exact h

theorem readBytes_ram (p : Bool) (l : List Nat) (now : Nat) (c : Core) : (readBytes p l now c).2.ram = c.ram := rfl

theorem moveBurst_wf (n : XcNo) (q : XferDesc) (now : Nat) {c : Core} (h : c.ram.wf) :
    (moveBurst n q now c).ram.wf := by
  unfold moveBurst
  dsimp only
  refine Core.wf_ite (xBad_wf n _ _ _ now h) (Core.wf_ite (xBad_wf n _ _ _ now h) ?_)
  generalize burstBlocked _ _ _ _ = blocked
  cases blocked with
  | some d => exact h
  | none =>
    dsimp only
    rw [Core.mapDev_ram]
    refine Core.wf_ite ?_ (storeBytes_wf n _ now ?_)
    · rw [Core.mapDev_ram]
      split <;> exact h
    · split <;> exact h

theorem movexBurst_wf (n : XcNo) (q : XferDesc) (now : Nat) {c : Core} (h : c.ram.wf) :
    (movexBurst n q now c).ram.wf := by
  unfold movexBurst
  dsimp only
  refine Core.wf_ite (xBad_wf n _ _ _ now h) ?_
  generalize burstBlocked _ _ _ c.dev = blocked
  cases blocked with
  | some d => exact h
  | none =>
    dsimp only
    have indexed : (if q.rd == 0 then (readBytes (xPriv n)
        ((nats 4).map (fun j => ((fld (q.w 3) 31 0 + 4 * q.moved) % 4294967296 + j) % 4294967296)) now c).2 else c).ram.wf := by
      split <;> exact h
    revert indexed
    generalize ite (α := Core) ((q.rd == 0) = true) _ c = c1
    intro indexed
    refine Core.wf_ite indexed (Core.wf_ite (xBad_wf n _ _ _ now indexed) (Core.wf_ite (xBad_wf n _ _ _ now indexed)
      (Core.wf_ite (xBad_wf n _ _ _ now indexed) ?_)))
    generalize burstBlocked _ _ _ c1.dev = blocked
    cases blocked with
    | some d => exact indexed
    | none =>
      dsimp only [Core.mapDev_ram]
      exact storeBytes_wf n _ now (by rw [readBytes_ram]; exact indexed)

theorem planeRead_wf (n : XcNo) (q : XferDesc) (now : Nat) {c : Core} (h : c.ram.wf) :
    (planeRead n q now c).ram.wf := by
  unfold planeRead
  dsimp only
  refine Core.wf_ite (xBad_wf n _ _ _ now h) ?_
  generalize burstBlocked _ _ _ _ = blocked
  cases blocked with
  | some d => exact h
  | none =>
    dsimp only [Core.mapDev_ram, readBytes_ram]
    exact h

theorem planeBurst_wf (n : XcNo) (q : XferDesc) (now : Nat) {c : Core} (h : c.ram.wf) :
    (planeBurst n q now c).ram.wf := by
  unfold planeBurst
  dsimp only
  refine Core.wf_ite (xBad_wf n _ _ _ now h) ?_
  generalize burstBlocked _ _ _ _ = blocked
  cases blocked with
  | some d => exact h
  | none =>
    dsimp only [Core.mapDev_ram]
    exact storeBytes_wf n _ now h

theorem burst_wf (n : XcNo) (now : Nat) {c : Core} (h : c.ram.wf) : (burst n now c).ram.wf := by
  unfold burst
  dsimp only
  split
  · exact h
  · split
    · exact h
    · split
      · exact h
      · split
        · exact movexBurst_wf n _ now h
        · split
          · exact moveBurst_wf n _ now h
          · split
            · exact planeRead_wf n _ now h
            · exact planeBurst_wf n _ now h

theorem signalEffect_wf (n : XcNo) (w : DWord) {c : Core} (h : c.ram.wf) : (signalEffect n w c).ram.wf := by
  unfold signalEffect
  split
  · dsimp only
    split <;> exact h
  · exact h
  · exact Ram.lbufWrite_wf h _ _ _

theorem signalDeliver_wf (n : XcNo) {c : Core} (h : c.ram.wf) : (signalDeliver n c).ram.wf := by
  unfold signalDeliver
  dsimp only
  split
  · split
    · rw [Core.mapDev_ram]
      exact signalEffect_wf n _ h
    · exact h
  · exact h

theorem xferSignals_wf {c : Core} (h : c.ram.wf) : (xferSignals c).ram.wf :=
  foldl_keeps (fun c : Core => c.ram.wf) (fun c n => signalDeliver n c) (fun _ n hc => signalDeliver_wf n hc) _ _ h

theorem abortComplete_wf (n : XcNo) (now : Nat) {c : Core} (h : c.ram.wf) : (abortComplete n now c).ram.wf := by
  unfold abortComplete
  dsimp only
  split
  · exact h
  · rw [Core.mapDev_ram]
    exact writeStatus_wf n _ now h

theorem xferNext_wf (now : Nat) {c : Core} (h : c.ram.wf) : (xferNext now c).ram.wf := by
  unfold xferNext
  rw [Core.mapDev_ram]
  exact forAll_keeps (fun c : Core => c.ram.wf) (fun n c => abortComplete n now c) (fun n _ hc => abortComplete_wf n now hc) _ h

/-! ### Releases, event records and the image -/

theorem releaseEffect_wf (h : Chan) (x : HeldEff) (now : Nat) {c : Core} (hc : c.ram.wf) :
    (releaseEffect h x now c).ram.wf := by
  cases x with
  | lsend o v => exact Ram.lbufWrite_wf hc _ _ _
  | _ => exact hc

theorem releaseEffects_wf (h : Chan) (now : Nat) : ∀ (l : List HeldEff) {r : Core × List Delivery},
    r.1.ram.wf → (releaseEffects h now l r).1.1.ram.wf
  | [], _, hr => hr
  | x :: l, (c, ds), hr => by
    unfold releaseEffects
    split
    · split
      · exact releaseEffects_wf h now l (storeA_wf _ _ _ now hr)
      · exact hr
    · exact releaseEffects_wf h now l hr
    · exact releaseEffects_wf h now l (releaseEffect_wf h _ now hr)

theorem releaseOldest_wf (h : Chan) (now : Nat) {c : Core} (hc : c.ram.wf) : (releaseOldest h now c).1.ram.wf := by
  unfold releaseOldest
  split
  · exact hc
  · rename_i g l _
    split
    · have released := releaseEffects_wf h now g.held
        (r := (c.mapDev (fun d => d.progUpd h (fun p => { p with segs := l })), [])) hc
      revert released
      dsimp only
      generalize releaseEffects _ _ _ _ = r
      intro released
      obtain ⟨⟨c', ds⟩, bad⟩ := r
      cases bad with
      | some pc =>
        dsimp only [Core.mapDev_ram] at released ⊢
        exact released
      | none =>
        dsimp only at released ⊢
        exact Core.wf_ite (by rw [Core.mapDev_ram]; exact released) released
    · exact hc

theorem releaseAll_wf (h : Chan) (now : Nat) {c : Core} (hc : c.ram.wf) : (releaseAll h now c).1.ram.wf := by
  unfold releaseAll
  refine foldl_keeps (fun r : Core × List Delivery => r.1.ram.wf) _ ?_ _ (c, []) hc
  intro r _ hr
  exact releaseOldest_wf h now hr

theorem releaseStep_wf (now : Nat) {c : Core} (hc : c.ram.wf) : (releaseStep now c).ram.wf := by
  unfold releaseStep
  rw [Core.mapDev_ram]
  refine foldl_keeps (fun r : Core × List Delivery => r.1.ram.wf) _ ?_ _ (c, []) hc
  intro r h hr
  dsimp only
  exact releaseAll_wf h now hr

theorem recordWrite_wf (now : Nat) {c : Core} (h : c.ram.wf) : (recordWrite now c).ram.wf := by
  unfold recordWrite
  split
  · exact h
  · dsimp only [Core.mapDev_ram]
    exact storeB_wf _ _ _ _ now (storeB_wf _ _ _ _ now h)

/-- R254: a cleared open store is in canonical form. -/
theorem Ram.clearStore_wf {r : Ram} (h : r.wf) : ({ r with store := [] } : Ram).wf :=
  let ⟨bank, alm, prog, _, rest⟩ := h
  ⟨bank, alm, prog, trivial, rest⟩

/-- R436: cleared link buffers are in canonical form. -/
theorem Ram.clearLbuf_wf {r : Ram} (h : r.wf) : ({ r with lbuf := [] } : Ram).wf :=
  let ⟨bank, alm, prog, store, lut, _⟩ := h
  ⟨bank, alm, prog, store, lut, trivial⟩

theorem storeLoad_wf (ws : List Word) {r : Ram} (h : r.wf) : (storeLoad ws r).wf :=
  foldl_keeps Ram.wf _ (fun _ _ hr => Ram.storeWrite_wf hr _ _ _) _ _ (Ram.clearStore_wf h)

theorem loadImage_wf (b : List Byte) (len : Nat) (storeOk : Bool) (now : Nat) {c : Core} (h : c.ram.wf) :
    (loadImage b len storeOk now c).ram.wf := by
  unfold loadImage
  dsimp only
  split
  · exact h
  · split
    · exact h
    · split <;> exact storeLoad_wf _ h

theorem loadFlash_wf (flash : List Byte) (storeOk : Bool) (now : Nat) {c : Core} (h : c.ram.wf) :
    (loadFlash flash storeOk now c).ram.wf := by
  unfold loadFlash
  dsimp only
  split
  · exact h
  · split
    · exact h
    · exact loadImage_wf _ _ storeOk now h

theorem hostGo_wf (storeOk : Bool) (now : Nat) {c : Core} (h : c.ram.wf) : (hostGo storeOk now c).ram.wf := by
  unfold hostGo loadHost
  dsimp only
  split
  · split
    · exact loadImage_wf _ _ storeOk now h
    · exact h
  · exact h

/-! ### Keyed commands, resets and the boot flow -/

theorem cmdAct_wf (b : Block) (now : Nat) {c : Core} (h : c.ram.wf) : (cmdAct b now c).ram.wf := by
  unfold cmdAct
  split
  case h_4 => exact Ram.clearStore_wf h
  all_goals exact h

theorem runBlock_wf (b : Block) (vaux : Bool) (now : Nat) {c : Core} (h : c.ram.wf) : (runBlock b vaux now c).ram.wf := by
  unfold runBlock
  dsimp only
  split
  · exact h
  · split
    · exact h
    · exact cmdAct_wf b now h

theorem keyedCommand_wf (b : Block) (vaux : Bool) (now : Nat) {c : Core} (h : c.ram.wf) :
    (keyedCommand b vaux now c).ram.wf := by
  unfold keyedCommand
  split
  · exact h
  · exact runBlock_wf b vaux now h

theorem jobStep_wf (now : Nat) {c : Core} (h : c.ram.wf) : (jobStep now c).ram.wf := by
  unfold jobStep
  split
  · exact h
  · split
    · exact h
    · exact runBlock_wf _ _ now h

theorem porst_wf (why : ColdCause) (low : Bool) {c : Core} (h : c.ram.wf) : (porst why low c).ram.wf := by
  unfold porst
  split
  · exact Ram.clearStore_wf h
  · exact h

theorem rstPin_wf (low : Bool) {c : Core} (h : c.ram.wf) : (rstPin low c).ram.wf := by
  unfold rstPin
  split
  · exact h
  · split
    · exact h
    · exact Ram.clearStore_wf h

theorem brownOut_wf (w : CoreSupply) {c : Core} (h : c.ram.wf) : (brownOut w c).ram.wf := Ram.clearStore_wf h

/-- R436: the memories that the CLEAR phase empties are in canonical form. -/
theorem Ram.bootCleared_wf {r : Ram} (h : r.wf) : ({ r.clearAlm with prog := [], lut := [], lbuf := [] } : Ram).wf :=
  let ⟨bank, _, _, store, _, _⟩ := h
  ⟨bank, trivial, trivial, store, trivial, trivial⟩

theorem bootFlow_wf (st : BootStage) (now : Nat) {c : Core} (h : c.ram.wf) : (bootFlow st now c).ram.wf := by
  unfold bootFlow
  split
  · exact h
  · cases st with
    | fuse par bad vio33 => exact h
    | test fails bad =>
      dsimp only [bootTest]
      split
      · rw [Core.mapDev_ram]
        exact startUpRepair_wf fails bad now h
      · exact h
    | clear =>
      dsimp only [bootClear]
      split
      · exact Ram.bootCleared_wf h
      · exact h
    | load flash storeOk =>
      dsimp only [bootLoad]
      split
      · exact loadFlash_wf _ storeOk now h
      · exact h
    | ready => exact h

theorem domainChange_wf (x : PowerDomain) (now : Nat) {c : Core} (h : c.ram.wf) : (domainChange x now c).ram.wf := by
  unfold domainChange
  dsimp only
  split
  · split <;> exact h
  · split <;> exact h

theorem domainOn_wf (x : PowerDomain) (now : Nat) {c : Core} (h : c.ram.wf) : (domainOn x now c).ram.wf := by
  unfold domainOn
  split
  · cases x with
    | alm =>
      dsimp only [Core.mapRam, Core.mapDev_ram]
      exact Ram.loseAlm_wf h
    | link =>
      dsimp only [Core.mapDev_ram]
      exact Ram.clearLbuf_wf h
    | ana =>
      dsimp only [Core.mapDev_ram]
      exact h
  · exact h

theorem pllLocks_wf {c : Nat × Core} (h : c.2.ram.wf) : (pllLocks c).2.ram.wf := by
  unfold pllLocks
  dsimp only
  split
  · exact h
  · split <;> exact h

/-! ### Registers, windows and the host port -/

theorem writeOsCtl_wf (v : Word) (now : Nat) {c : Core} (h : c.ram.wf) : (writeOsCtl v now c).ram.wf := by
  have went : (if bitOf v 0 then hostGo (Config.bit c.dev.free) now (c.mapDev Device.freeTaken) else c).ram.wf :=
    Core.wf_ite (hostGo_wf _ now h) h
  unfold writeOsCtl
  dsimp only
  exact Core.wf_ite (by rw [Core.mapDev_ram]; exact went) went

theorem regWrite_wf {a : Nat} {v : Word} {now : Nat} {c c' : Core} (h : c.ram.wf) (hw : regWrite a v now c = some c') :
    c'.ram.wf := by
  unfold regWrite at hw
  split at hw
  · cases hw
    exact writeOsCtl_wf v now h
  · split at hw
    · cases hw
      exact mctlWrite_wf v now h
    · obtain ⟨f, _, rfl⟩ := Option.map_eq_some_iff.mp hw
      exact h

theorem windowRead_ram (w : Window) (n o now : Nat) (c : Core) : (windowRead w n o now c).2.ram = c.ram := by
  cases w <;> rfl

theorem windowWrite_wf (w : Window) (n o v now : Nat) {c : Core} (h : c.ram.wf) : (windowWrite w n o v now c).ram.wf := by
  cases w with
  | bank => exact storeB_wf _ n o v now h
  | alm =>
    dsimp only [windowWrite, Core.mapDev_ram]
    exact Ram.almWrite_wf h n o v
  | prog => exact Ram.progWrite_wf h n o v
  | store => exact h
  | lut =>
    dsimp only [windowWrite]
    exact Core.wf_ite h (Ram.lutWrite_wf h n o v)
  | lbuf => exact Ram.lbufWrite_wf h n o v

/-- What a host access leaves behind, served or held, has its memories in canonical form. -/
def Reply.wf (r : Reply) : Prop :=
  match r with
  | .ok _ c => c.ram.wf
  | .err _ => True
  | .held c => c.ram.wf

theorem Reply.andThen_wf {r : Reply} {f : Nat → Core → Nat × Core} (h : r.wf)
    (hf : ∀ v (c : Core), c.ram.wf → (f v c).2.ram.wf) : (r.andThen f).wf := by
  cases r with
  | ok v c => exact hf v c h
  | err k => exact h
  | held c => exact h

theorem windowAccess_wf (w : Window) (n o : Nat) (wr : Option Nat) (now : Nat) {c : Core} (h : c.ram.wf) :
    (windowAccess w n o wr now c).wf := by
  unfold windowAccess
  split
  · trivial
  · exact h
  · cases wr with
    | some v => exact windowWrite_wf w n o v now h
    | none =>
      dsimp only [Reply.wf]
      rw [windowRead_ram]
      exact h

theorem unitAccess_wf (w : Window) (o : Nat) (wr : Option Nat) (now : Nat) {c : Core} (h : c.ram.wf) :
    (unitAccess w o wr now c).wf := by
  unfold unitAccess
  split
  · exact windowAccess_wf w 8 o wr now h
  · have low := windowAccess_wf w 4 o (wr.map (· % 4294967296)) now h
    cases hl : windowAccess w 4 o (wr.map (· % 4294967296)) now c with
    | ok l c' =>
      rw [hl] at low
      have high := windowAccess_wf w 4 (o + 4) (wr.map (· / 4294967296)) now low
      dsimp only
      cases hh : windowAccess w 4 (o + 4) (wr.map (· / 4294967296)) now c' with
      | ok v c'' =>
        rw [hh] at high
        exact high
      | err k => trivial
      | held c'' =>
        rw [hh] at high
        exact high
    | err k => trivial
    | held c' =>
      rw [hl] at low
      exact low

theorem dataAccess_wf (wr : Option Word) (now : Nat) {c : Core} (h : c.ram.wf) : (dataAccess wr now c).wf := by
  unfold dataAccess
  dsimp only
  split
  · trivial
  · split
    · exact Reply.andThen_wf (windowAccess_wf _ 4 _ _ now h) (fun _ _ hc => hc)
    · split
      · exact Reply.andThen_wf (unitAccess_wf _ _ _ now h) (fun _ _ hc => hc)
      · exact h
      · exact h
      · exact h
      · exact Reply.andThen_wf (unitAccess_wf _ _ _ now h) (fun _ _ hc => hc)
      · exact Reply.andThen_wf (unitAccess_wf _ _ _ now h) (fun _ _ hc => hc)

theorem hostAccess_wf (a : Nat) (wr : Option Word) (now : Nat) {c : Core} (h : c.ram.wf) : (hostAccess a wr now c).wf := by
  unfold hostAccess
  dsimp only
  split
  · exact dataAccess_wf wr now h
  · split
    · exact windowAccess_wf _ 4 _ _ now h
    · split
      · exact regWrite_wf h ‹_›
      · trivial
    · split
      · exact h
      · trivial

theorem serveHead_wf (now : Nat) {c : Core} (h : c.ram.wf) : (serveHead now c).ram.wf := by
  unfold serveHead
  split
  · exact h
  · rename_i x _ _
    split
    · exact h
    · have served := hostAccess_wf x.addr.toNat x.data now h
      cases ha : hostAccess x.addr.toNat x.data now c with
      | ok v c' =>
        rw [ha] at served
        exact Core.wf_ite served served
      | err k => exact h
      | held c' =>
        rw [ha] at served
        exact Core.wf_ite served served

theorem serveWrite_wf (now : Nat) {c : Core} (h : c.ram.wf) : (serveWrite now c).ram.wf := by
  unfold serveWrite
  split
  · exact serveHead_wf now h
  · exact h

theorem serveRead_wf (now : Nat) {c : Core} (h : c.ram.wf) : (serveRead now c).ram.wf := by
  unfold serveRead
  split
  · exact serveHead_wf now h
  · exact serveHead_wf now h
  · exact h

theorem drainReads_wf (now : Nat) : ∀ (n : Nat) {c : Core}, c.ram.wf → (drainReads now n c).ram.wf
  | 0, _, h => h
  | n + 1, c, h => by
    unfold drainReads
    split
    · dsimp only
      split
      · exact serveHead_wf now h
      · exact drainReads_wf now n (serveHead_wf now h)
    · exact h

theorem qspiRead_wf (a : Word) (n now : Nat) {c : Core} (h : c.ram.wf) : (qspiRead a n now c).ram.wf := by
  unfold qspiRead
  dsimp only
  refine Core.wf_ite h (Core.wf_ite h ?_)
  rw [Core.mapDev_ram]
  exact Core.wf_ite h (drainReads_wf now _ h)

theorem parallelComplete_wf (now : Nat) {c : Core} (h : c.ram.wf) : (parallelComplete now c).ram.wf := by
  unfold parallelComplete
  split
  · exact serveHead_wf now h
  · exact h

theorem serveNow_wf (a : Word) (wr : Option Word) (now : Nat) {c : Core} (h : c.ram.wf) :
    (serveNow a wr now c).ram.wf := by
  unfold serveNow
  dsimp only
  exact Core.wf_ite h (Core.wf_ite h (serveHead_wf now h))

theorem busServe_wf (x : BusJob) (now : Nat) {c : Core} (h : c.ram.wf) : (busServe x now c).ram.wf := by
  have served := hostAccess_wf x.addr.toNat x.data now h
  unfold busServe
  dsimp only
  cases ha : hostAccess x.addr.toNat x.data now c with
  | ok v c' =>
    rw [ha] at served
    dsimp only
    rw [Core.mapDev_ram]
    exact served
  | err k =>
    dsimp only
    rw [Core.mapDev_ram]
    exact h
  | held c' =>
    rw [ha] at served
    exact Core.wf_ite (by rw [Core.mapDev_ram]; exact served) (by rw [Core.mapDev_ram]; exact served)

theorem busRetry_wf (now : Nat) {c : Core} (h : c.ram.wf) : (busRetry now c).ram.wf := by
  unfold busRetry
  split
  · exact busServe_wf _ now h
  · exact h

theorem tapBusacc_wf (addr data : Word) (wr start : Bool) (now : Nat) {c : Core} (h : c.ram.wf) :
    (tapBusacc addr data wr start now c).ram.wf := by
  unfold tapBusacc
  dsimp only
  exact Core.wf_ite h (Core.wf_ite h (Core.wf_ite (busServe_wf _ now h) h))

/-! ### The boundary -/

theorem boundaryWrites_wf (now : Nat) {c : Core} (h : c.ram.wf) : (boundaryWrites now c).ram.wf := by
  unfold boundaryWrites
  rw [Core.mapDev_ram]
  exact jobStep_wf now (busRetry_wf now (xferSignals_wf (serveWrite_wf now h)))

theorem commitEarly_ram (now : Nat) (c : Core) : (commitEarly now c).ram = c.ram := by
  unfold commitEarly
  dsimp only
  split <;> rw [Core.mapDev_ram]

theorem boundaryLinks_wf (now : Nat) {c : Core} (h : c.ram.wf) : (boundaryLinks now c).ram.wf := by
  unfold boundaryLinks
  rw [Core.mapDev_ram]
  exact forAll_keeps (fun c : Core => c.ram.wf) (fun l c => linkStep l now c) (fun l _ hc => linkStep_wf l now hc) _ h

theorem boundaryAfter_wf (now : Nat) {c : Core} (h : c.ram.wf) : (boundaryAfter now c).ram.wf := by
  unfold boundaryAfter
  dsimp only
  rw [Core.mapDev_ram]
  refine serveRead_wf now ?_
  exact forAll_keeps (fun c : Core => c.ram.wf) (fun n c => atendRefetch n now c) (fun n _ hc => atendRefetch_wf n now hc) _ h

theorem boundary_wf (now : Nat) {c : Core} (h : c.ram.wf) : (boundary now c).ram.wf := by
  have written : (boundaryWrites now (c.mapDev (fun d => boundaryLand now (boundaryPins now d)))).ram.wf :=
    boundaryWrites_wf now (by rw [Core.mapDev_ram]; exact h)
  unfold boundary
  dsimp only
  refine xferNext_wf _ ?_
  rw [Core.mapDev_ram]
  refine boundaryAfter_wf now ?_
  rw [boundaryRelease_ram]
  refine releaseStep_wf now (boundaryLinks_wf now ?_)
  rw [commitEarly_ram, boundaryCloves, Core.mapDev_ram, Core.mapDev_ram]
  exact written

/-! ### Every command, and a step -/

theorem keepsForm_of_run {i : Instr} {s : State} {f : Nat → Core → Core} (hx : exec i s = s.run f)
    (hf : (f s.mt s.core).ram.wf) : KeepsForm i s := ⟨_, hx, hf⟩

theorem exec_busacc (addr data : Word) (wr start : Bool) (s : State) : exec (.busacc addr data wr start) s =
    s.run (fun now c => if bitOf c.dev.pwr.vioIn 6 then tapBusacc addr data wr start now c else c) := rfl

theorem passing_wf (l : LinkNo) (k : Option Nat → Device → Device) (g : Option Nat) (c : Core) (h : c.ram.wf) :
    (passing l k g c).ram.wf := h

theorem keepsForm_of_goodFrame {i : Instr} {s : State} {l : LinkNo} {kind : Nat} {hdr : Byte} {a : Nat}
    {k : Option Nat → Core → Core} (hk : ∀ g (c : Core), c.ram.wf → (k g c).ram.wf)
    (hx : exec i s = .next { s with core := goodFrame l kind hdr a s.mt k s.core }) (h : s.core.ram.wf) :
    KeepsForm i s := ⟨_, hx, goodFrame_wf l kind hdr a s.mt hk h⟩

/-- Every command keeps the form; one of the cases not named acts on the blocks alone. -/
theorem exec_wf (i : Instr) {s : State} (h : s.core.ram.wf) : KeepsForm i s := by
  cases i with
  | basePeriodBoundary => exact ⟨_, rfl, boundary_wf s.mt h⟩
  | pllLock => exact ⟨_, rfl, pllLocks_wf (c := (s.mt, s.core)) h⟩
  | porst why low => exact ⟨_, rfl, porst_wf why low h⟩
  | brown which => exact ⟨_, rfl, brownOut_wf which h⟩
  | warmReset low => exact keepsForm_of_run (f := fun _ => rstPin low) rfl (rstPin_wf low h)
  | bootFlow stage => exact keepsForm_of_run rfl (bootFlow_wf stage s.mt h)
  | domainStateChange dom => exact keepsForm_of_run rfl (domainChange_wf dom s.mt h)
  | domainPowerComplete dom => exact keepsForm_of_run rfl (domainOn_wf dom s.mt h)
  | bankStateChange bk => exact keepsForm_of_run rfl (bankChange_wf bk s.mt h)
  | bankPowerComplete bk => exact keepsForm_of_run rfl (bankPowered_wf bk s.mt h)
  | maceGo v => exact keepsForm_of_run rfl (mctlWrite_wf (v ||| 1) s.mt h)
  | maceWindow part => exact keepsForm_of_run rfl (maceWindow_wf part s.mt h)
  | checkComplete n => exact keepsForm_of_run rfl (checkComplete_wf n s.mt h)
  | add ch | sub ch | mul ch | mac ch | and ch | or ch | xor ch | shl ch | shr ch | asr ch | cmp ch | min ch | max ch
  | sat ch | ldi ch | addImmediate ch | subImmediate ch | mulImmediate ch | macImmediate ch | andImmediate ch
  | orImmediate ch | xorImmediate ch | shlImmediate ch | shrImmediate ch | asrImmediate ch | cmpImmediate ch
  | minImmediate ch | maxImmediate ch | satImmediate ch | tadd ch | taddImmediate ch | tsub ch | tcmp ch | tnow ch
  | tpack ch | tpart ch | padd ch | paddImmediate ch | psub ch | pmod ch | p2t ch | t2p ch | pset ch | pget ch | b ch
  | call ch | ret ch | br ch | loop ch | nop ch | ldmG ch | ldmT ch | ldmP ch | stmG ch | stmT ch | stmP ch | ldc ch
  | stc ch | lda ch | emit ch | emitp ch | armtrip ch | armtripPosition ch | cancel ch | capt ch | captn ch | alm ch
  | almn ch | wait ch | sig ch | xkick ch | lsend ch | cfg ch | apply ch | yield ch | halt ch | uop ch =>
    exact keepsForm_of_run rfl (runInstr_wf h)
  | illegalOpcode ch => exact keepsForm_of_run rfl (illegalOpcode_wf ch s.mt h)
  | microwordLimit ch uaddr => exact keepsForm_of_run rfl (microLimit_wf ch uaddr s.mt h)
  | eccUncorr ch => exact keepsForm_of_run rfl (eccUncorr_wf ch s.mt h)
  | segmentRelease ch => exact ⟨_, rfl, releaseOldest_wf ch s.mt h⟩
  | cloveStep n => exact keepsForm_of_run (exec_cloveStep n s) h
  | frameTransmit l => exact keepsForm_of_run rfl (frameTransmit_wf l s.mt h)
  | upstreamStatus l hdr pay stamp => exact keepsForm_of_goodFrame (passing_wf l _) rfl h
  | upstreamCapt l hdr pay stamp => exact keepsForm_of_goodFrame (passing_wf l _) rfl h
  | upstreamFix l hdr pay stamp => exact keepsForm_of_goodFrame (passing_wf l _) rfl h
  | upstreamEcho l hdr pay stamp => exact keepsForm_of_goodFrame (fun _ _ hc => by rw [Core.mapDev_ram]; exact hc) rfl h
  | upstreamUser l hdr pay stamp =>
    exact keepsForm_of_goodFrame (fun _ _ hc => upUser_wf l pay _ (by rw [Core.mapDev_ram]; exact hc)) rfl h
  | abortComplete n => exact keepsForm_of_run rfl (abortComplete_wf n s.mt h)
  | descriptorFetch n => exact keepsForm_of_run rfl (descriptorFetch_wf n s.mt h)
  | burst n => exact keepsForm_of_run rfl (burst_wf n s.mt h)
  | signalDelivery n => exact keepsForm_of_run (f := fun _ => signalDeliver n) rfl (signalDeliver_wf n h)
  | atendRefetch n => exact keepsForm_of_run rfl (atendRefetch_wf n s.mt h)
  | recordWrite => exact keepsForm_of_run rfl (recordWrite_wf s.mt h)
  | hostgo storeOk => exact keepsForm_of_run rfl (hostGo_wf storeOk s.mt h)
  | arm | disarm | safecfg | storeload | fuse | dbgopen | linkcfg | keyroll | ctrseed =>
    exact keepsForm_of_run rfl (keyedCommand_wf _ _ s.mt h)
  | read addr count => exact keepsForm_of_run rfl (qspiRead_wf addr count s.mt h)
  | parallelReadComplete => exact keepsForm_of_run rfl (parallelComplete_wf s.mt h)
  | registerWrite addr v => exact keepsForm_of_run rfl (serveNow_wf addr (some v) s.mt h)
  | dataPortAccess wr => exact keepsForm_of_run rfl (serveNow_wf (w32 hpsData) wr s.mt h)
  | busacc addr data wr start =>
    exact keepsForm_of_run (exec_busacc addr data wr start s) (Core.wf_ite (tapBusacc_wf addr data wr start s.mt h) h)
  | _ => exact ⟨_, rfl, h⟩

/-- Settles O4: a step is one command or none, and every command keeps the canonical form. -/
theorem memoriesStayCanonical : Obligations.MemoriesStayCanonical := by
  unfold Obligations.MemoriesStayCanonical
  intro s t canonical h
  unfold step at h
  split at h
  · cases h
    exact canonical
  · rename_i command rest _
    obtain ⟨u, landed, kept⟩ := exec_wf command (s := { s with pending := rest }) canonical
    rw [landed] at h
    cases h
    exact kept

end Machine

end Sys2Proof

namespace Sys2Proof

/-- A mapped table holds the mapped values. -/
@[simp] theorem Tab.at_map {α β : Type} {n : Nat} (f : α → β) (t : Tab α n) (i : Fin n) :
    Tab.at (t.map f) i = f (t.at i) := by
  simp [Tab.at]

namespace Machine

/-! ## Control of a transfer channel -/

theorem exec_xfrGo (n : XcNo) (s : State) : exec (.xfrGo n) s = s.runDev (fun _ => xGo n) := rfl
theorem exec_xfrAbort (n : XcNo) (s : State) : exec (.xfrAbort n) s = s.runDev (fun _ => xAbort n) := rfl
theorem exec_abortComplete (n : XcNo) (s : State) : exec (.abortComplete n) s = s.run (abortComplete n) := rfl
theorem exec_xfrResume (n : XcNo) (s : State) : exec (.xfrResume n) s = s.runDev (fun _ => xResume n) := rfl
theorem exec_xfrAutoresume (n : XcNo) (s : State) : exec (.xfrAutoresume n) s = s.runDev (fun _ => xAutoresume n) := rfl
theorem exec_bell (n : XcNo) (s : State) : exec (.bell n) s = s.runDev (fun _ => bell n) := rfl
theorem exec_kick (n : XcNo) (s : State) : exec (.kick n) s = s.runDev (fun _ => kick n) := rfl

section

variable {n : XcNo} {d : Device}

theorem xGo_idle (idle : (d.xfr.ch.at n).st = .idle) : xGo n d = d.xcUpd n (fun x =>
    { x with lc := Tab.all 0, kcnt := 0, bell := false, start := true, cur := none }) := if_pos idle

theorem xGo_busy (busy : (d.xfr.ch.at n).st ≠ .idle) : xGo n d = d.xcUpd n (fun x => { x with ref := true }) :=
  if_neg busy

theorem xResume_asleep (asleep : (d.xfr.ch.at n).st = .asleep) : xResume n d = d.xcUpd n (fun x => { x with st := .run }) :=
  if_pos asleep

theorem xAutoresume_asleep (asleep : (d.xfr.ch.at n).st = .asleep) (auto : (d.xfr.ch.at n).autoresume = true)
    (on : (d.mem.bank.at (Fin.ofNat 16 (d.xfr.ch.at n).abank)).st = .on) :
    xAutoresume n d = d.xcUpd n (fun x => { x with st := .run }) := by
  rw [← xResume_asleep asleep]
  exact if_pos (by simp only [asleep, auto, on]; rfl)

theorem xAutoresume_stays (stays : (d.xfr.ch.at n).autoresume = false ∨
    (d.mem.bank.at (Fin.ofNat 16 (d.xfr.ch.at n).abank)).st ≠ .on) : xAutoresume n d = d := by
  refine if_neg fun go => ?_
  simp only [Bool.and_eq_true, beq_iff_eq] at go
  obtain ⟨⟨_, auto⟩, on⟩ := go
  rcases stays with manual | off
  · exact Bool.false_ne_true (manual.symm.trans auto)
  · exact off on

theorem kick_counts (runs : (d.xfr.ch.at n).st ≠ .idle) (room : (d.xfr.ch.at n).kcnt < 255) :
    kick n d = d.xcUpd n (fun x => { x with kcnt := x.kcnt + 1 }) := by
  have counted : ¬((d.xfr.ch.at n).st = .idle ∨ 255 ≤ (d.xfr.ch.at n).kcnt) := by
    rintro (idle | full)
    · exact runs idle
    · omega
  rw [kick, if_neg counted]

theorem kick_drops (drops : (d.xfr.ch.at n).st = .idle ∨ (d.xfr.ch.at n).kcnt = 255) :
    kick n d = d.xcUpd n (fun x => { x with kdrop := min 255 (x.kdrop + 1) }) := by
  rw [kick, if_pos (drops.imp_right (fun full => Nat.le_of_eq full.symm))]
  simp only [satInc_eq_min]
  rfl

/-! ### The completion of an abort -/

/-- R351: without STEN the status is the residue alone. -/
theorem writeStatus_plain {c : Core} (plain : bitOf (c.dev.xfr.ch.at n).cfg 9 = false) (res now : Nat) :
    writeStatus n res now c = c.mapDev (fun d => d.xcUpd n (fun x => { x with res := w32 res })) := by
  simp [writeStatus, Xfer.sten, plain]

theorem xIdle_channel (n : XcNo) (d : Device) :
    (xIdle n d).xfr.ch.at n = { d.xfr.ch.at n with st := .idle, cur := none } := by
  simp [xIdle, freeUnit]

theorem xIdle_others (d : Device) {n o : XcNo} (h : o ≠ n) : (xIdle n d).xfr.ch.at o = d.xfr.ch.at o := by
  simp [xIdle, freeUnit, Tab.at_upd_ne _ _ h]

/-- R338: a channel that becomes idle holds no plane unit. -/
theorem xIdle_plane (n : XcNo) (d : Device) (u : Fin 2) : (xIdle n d).xfr.plane.at u ≠ some n := by
  simp only [xIdle, freeUnit, Tab.at_map]
  split
  · exact Option.some_ne_none n ∘ Eq.symm
  · assumption

/-- R351: an abort completes. -/
theorem abortComplete_plain {c : Core} (abort : (c.dev.xfr.ch.at n).st = .abort)
    (plain : bitOf (c.dev.xfr.ch.at n).cfg 9 = false) (now : Nat) :
    abortComplete n now c = c.mapDev (fun d => raiseXc n 0x08 0x01 0 now (xIdle n (d.xcUpd n (fun x =>
      { x with res := w32 (c.dev.xfr.ch.at n).residue })))) := by
  unfold abortComplete
  rw [if_neg (not_not_intro abort), writeStatus_plain plain]
  rfl

end

/-- Settles O48: each command has one equation per case of the channel's state. -/
theorem transferControl : Obligations.TransferControl := by
  unfold Obligations.TransferControl
  intro s n x
  refine ⟨fun idle => changes_of_runDev _ (exec_xfrGo n s) (xGo_idle idle),
    fun busy => changes_of_runDev _ (exec_xfrGo n s) (xGo_busy busy),
    fun idle => idles_of_runDev _ (exec_xfrAbort n s) (if_pos idle),
    fun busy => changes_of_runDev _ (exec_xfrAbort n s) (if_neg busy),
    fun other => idles_of_run _ (exec_abortComplete n s) (if_pos other), ?completes,
    fun asleep => changes_of_runDev _ (exec_xfrResume n s) (xResume_asleep asleep),
    fun awake => idles_of_runDev _ (exec_xfrResume n s) (if_neg awake),
    fun asleep auto on => changes_of_runDev _ (exec_xfrAutoresume n s) (xAutoresume_asleep asleep auto on),
    fun stays => idles_of_runDev _ (exec_xfrAutoresume n s) (xAutoresume_stays stays),
    changes_of_runDev _ (exec_bell n s) rfl,
    fun runs room => changes_of_runDev _ (exec_kick n s) (kick_counts runs room),
    fun drops => changes_of_runDev _ (exec_kick n s) (kick_drops drops)⟩
  case completes =>
    intro abort plain
    refine brings_of_run _ (exec_abortComplete n s) _ (abortComplete_plain abort plain s.mt) ?_
    dsimp only
    simp only [raiseXc, raise_xfr, xIdle_channel, Device.xcUpd_xfr, Tab.at_upd_same]
    refine ⟨trivial, trivial, rfl, xIdle_plane n _, ?_, ?_, ?_, ?_⟩
    · intro q running move
      simp [Xfer.residue, show (s.core.dev.xfr.ch.at n).cur = some q from running, move]
    · intro done
      rw [Xfer.residue, show (s.core.dev.xfr.ch.at n).cur = none from done]
      rfl
    · intro o other
      rw [raise_xfr, xIdle_others _ other, Device.xcUpd_xfr, Tab.at_upd_ne _ _ other]
    · exact causes_raise (by omega) _ _ _ _ _ _

end Machine

end Sys2Proof

namespace Sys2Proof

namespace Machine

/-! ## Lookouts and the sounding converter -/

theorem exec_lookoutInputCrossing (k : LkNo) (uv : Int) (s : State) :
    exec (.lookoutInputCrossing k uv) s = s.runDev (inputCrossing k uv) := rfl
theorem exec_lookoutClear (k : LkNo) (s : State) : exec (.lookoutClear k) s = s.runDev (fun _ => hostClear k) := rfl
theorem exec_clrm (m : Word) (s : State) : exec (.clrm m) s = s.runDev (fun _ => clearMask m) := rfl
theorem exec_lookoutEnable (k : LkNo) (s : State) : exec (.lookoutEnable k) s = s.runDev (fun _ => lkEnable k) := rfl
theorem exec_lookoutDisable (k : LkNo) (s : State) : exec (.lookoutDisable k) s = s.runDev (fun _ => lkDisable k) := rfl

theorem Device.lkoUpd_lkoUpd (k : LkNo) (f g : Lookout → Lookout) (d : Device) :
    (d.lkoUpd k f).lkoUpd k g = d.lkoUpd k (fun l => g (f l)) := by
  simp only [Device.lkoUpd, Tab.upd_upd]

theorem Device.lkoUpd_congr {k : LkNo} {f g : Lookout → Lookout} {d : Device} (h : f (d.lko.at k) = g (d.lko.at k)) :
    d.lkoUpd k f = d.lkoUpd k g := by
  simp only [Device.lkoUpd, Tab.upd, h]

/-- R311: without polarity the output trips above the threshold and releases below it by the hysteresis. -/
theorem rawNext_above (hys : Nat) (uv vth : Int) (raw : Bool) : rawNext false hys uv vth raw =
    if vth < uv then true else if uv < vth - hys then false else raw := by
  have trips : 0 < uv - vth ↔ vth < uv := by omega
  have releases : (uv - vth < -(hys : Int) ∧ uv - vth ≠ 0) ↔ uv < vth - hys := by omega
  simp only [rawNext, Bool.false_eq_true, if_false, trips, releases]

section

variable {k : LkNo} {uv : Int} {now : Nat} {d : Device}

/-- R310, R311: the input of an enabled lookout without ramp. -/
theorem inputCrossing_enabled (en : lkEn (d.lko.at k).cfgE = true) (on : d.pwr.ana = .on)
    (flat : lkRampEn (d.lko.at k).cfgE = false) (pol : lkPol (d.lko.at k).cfgE = false) :
    inputCrossing k uv now d = d.lkoUpd k (fun l => { l with
      uv := uv
      raw := if (1600 * fld l.dacE 9 0 : Nat) < uv then true
        else if uv < (1600 * fld l.dacE 9 0 : Nat) - (lkHysMv l.cfgE * 1000 : Nat) then false else l.raw }) := by
  have code : rampCode { d.lko.at k with uv := uv } now (d.lkoUpd k (fun l => { l with uv := uv })) = 0 := by
    simp [rampCode, rampOn, flat]
  have vth (n : Nat) : vthUv n 0 = (1600 * n : Nat) := by
    rw [vthUv]
    omega
  unfold inputCrossing
  simp only [Device.lkoUpd_lko, Tab.at_upd_same, en, Device.lkoUpd_pwr, on, beq_self_eq_true, Bool.and_self, if_true,
    Device.lkoUpd_lkoUpd]
  refine Device.lkoUpd_congr ?_
  simp only [code, Lookout.rawAt, pol, rawNext_above, vth]

/-- R315: the output of a lookout that is not enabled does not follow its input. -/
theorem inputCrossing_disabled (dis : lkEn (d.lko.at k).cfgE = false) :
    inputCrossing k uv now d = d.lkoUpd k (fun l => { l with uv := uv }) := by
  simp [inputCrossing, dis]

end

/-- R317: a clear of each of a list of lookouts is noted at those in the list. -/
theorem foldl_hostClear_at (j : LkNo) : ∀ (l : List LkNo) (d : Device),
    (l.foldl (fun d k => hostClear k d) d).lko.at j =
      { d.lko.at j with clrHost := (d.lko.at j).clrHost || decide (j ∈ l) }
  | [], d => by simp
  | k :: l, d => by
    rw [List.foldl_cons, foldl_hostClear_at j l (hostClear k d)]
    by_cases same : j = k
    · subst same
      simp [hostClear]
    · simp [hostClear, Tab.at_upd_ne _ _ same, same]

theorem clearMask_at (m : Word) (d : Device) (j : LkNo) : (clearMask m d).lko.at j =
    { d.lko.at j with clrHost := (d.lko.at j).clrHost || m.getLsbD j.val } := by
  rw [clearMask, foldl_hostClear_at]
  simp [List.mem_filter, mem_fins, bitOf]

theorem clearMask_evc (m : Word) (d : Device) : (clearMask m d).evc = d.evc :=
  foldl_same (fun d : Device => d.evc) (fun d k => hostClear k d) (fun _ _ => rfl) _ d

/-! ### EN (R315) -/

theorem setFld_bit0_true (w : Word) : setFld w 0 0 1 = w ||| 1 := by
  apply BitVec.eq_of_getLsbD_eq
  intro i hi
  rcases i with _ | i
  · rw [getLsbD_setFld_bit w 1 (by decide)]
    simp
  · rw [getLsbD_setFld_apart w 1 (Or.inr (Nat.succ_pos i))]
    simp [BitVec.getLsbD_one]

theorem setFld_bit0_false (w : Word) : setFld w 0 0 0 = w &&& 0xFFFF_FFFE := by
  simp [setFld]

section

variable {k : LkNo} {d : Device}

/-- R315: EN that changes leaves the latch, the output and the samples tripped. -/
theorem adoptEn_moves {en : Bool} {l : Lookout} (moves : (lkEn l.cfgE != en) = true) : adoptEn en l = { l with
    cfg := setFld l.cfg 0 0 en.toNat, cfgE := setFld l.cfgE 0 0 en.toNat
    latch := true, fout := true, raw := true, samples := List.replicate 7 true } := if_pos moves

theorem adoptEn_stays {en : Bool} {l : Lookout} (stays : lkEn l.cfgE = en) : adoptEn en l = { l with
    cfg := setFld l.cfg 0 0 en.toNat, cfgE := setFld l.cfgE 0 0 en.toNat } := if_neg (by simp [stays])

theorem lkEnable_off (off : lkEn (d.lko.at k).cfgE = false) : lkEnable k d = d.lkoUpd k (fun l => { l with
    cfg := l.cfg ||| 1, cfgE := l.cfgE ||| 1, latch := true, fout := true, raw := true
    samples := List.replicate 7 true }) := by
  refine Device.lkoUpd_congr ?_
  rw [adoptEn_moves (by rw [off]; rfl), Bool.toNat_true, setFld_bit0_true, setFld_bit0_true]

theorem lkEnable_on (on : lkEn (d.lko.at k).cfgE = true) : lkEnable k d = d.lkoUpd k (fun l => { l with
    cfg := l.cfg ||| 1, cfgE := l.cfgE ||| 1 }) := by
  refine Device.lkoUpd_congr ?_
  rw [adoptEn_stays on, Bool.toNat_true, setFld_bit0_true, setFld_bit0_true]

theorem lkDisable_on (on : lkEn (d.lko.at k).cfgE = true) : lkDisable k d = d.lkoUpd k (fun l => { l with
    cfg := l.cfg &&& 0xFFFF_FFFE, cfgE := l.cfgE &&& 0xFFFF_FFFE, latch := true, fout := true, raw := true
    samples := List.replicate 7 true }) := by
  refine Device.lkoUpd_congr ?_
  rw [adoptEn_moves (by rw [on]; rfl), Bool.toNat_false, setFld_bit0_false, setFld_bit0_false]

theorem lkDisable_off (off : lkEn (d.lko.at k).cfgE = false) : lkDisable k d = d.lkoUpd k (fun l => { l with
    cfg := l.cfg &&& 0xFFFF_FFFE, cfgE := l.cfgE &&& 0xFFFF_FFFE }) := by
  refine Device.lkoUpd_congr ?_
  rw [adoptEn_stays off, Bool.toNat_false, setFld_bit0_false, setFld_bit0_false]

end

/-- Settles O41: an input acts by whether its lookout is enabled, a clear on the lookouts it names, EN by whether it
changes. -/
theorem lookouts : Obligations.Lookouts := by
  unfold Obligations.Lookouts
  intro s k l
  refine ⟨fun uv en on flat pol => changes_of_runDev _ (exec_lookoutInputCrossing k uv s)
      (inputCrossing_enabled en on flat pol),
    fun uv dis => changes_of_runDev _ (exec_lookoutInputCrossing k uv s) (inputCrossing_disabled dis),
    changes_of_runDev _ (exec_lookoutClear k s) rfl,
    fun m => brings_of_runDev _ (exec_clrm m s) ⟨clearMask_at m _, clearMask_evc m _⟩,
    fun off => changes_of_runDev _ (exec_lookoutEnable k s) (lkEnable_off off),
    fun on => changes_of_runDev _ (exec_lookoutDisable k s) (lkDisable_on on),
    fun on => changes_of_runDev _ (exec_lookoutEnable k s) (lkEnable_on on),
    fun off => changes_of_runDev _ (exec_lookoutDisable k s) (lkDisable_off off)⟩

/-! ### Conversions (R322 to R326) -/

theorem exec_hostConversion (m : BitVec 7) (s : State) : exec (.hostConversion m) s = s.runDev (fun _ => hostConversion m) :=
  rfl
theorem exec_conversionStart (s : State) : exec .conversionStart s = s.runDev convStart := rfl
theorem exec_conversionComplete (v : BitVec 12) (s : State) :
    exec (.conversionComplete v) s = s.runDev (convComplete v.toNat) := rfl
theorem exec_sampleSkip (s : State) : exec .sampleSkip s = s.runDev sampleSkip := rfl
theorem exec_sndFifoRead (s : State) : exec .sndFifoRead s = s.runDev (fun _ => sndFifoRead) := rfl

section

variable {now : Nat} {d : Device}

/-- R323: no threshold node has an input number outside 32 to 63. -/
theorem nodeOf_none {i : Nat} (outside : i < 32 ∨ 64 ≤ i) : nodeOf i = none := if_neg (by omega)

/-- R322: the idle converter starts what the host asked for. -/
theorem convStart_host (en : d.snd.ctl.getLsbD 0 = true) (idle : d.snd.conv = none) (on : d.pwr.ana = .on)
    (go : d.snd.reqGo = true) (outside : d.snd.reqMux.toNat < 32 ∨ 64 ≤ d.snd.reqMux.toNat) :
    convStart now d = { d with snd := { d.snd with
      reqGo := false, conv := some ⟨d.snd.reqMux.toNat, now, true, false, none⟩ } } := by
  simp [convStart, Sounding.en, bitOf, en, idle, on, go, startConv, expected, nodeOf_none outside, Device.sndUpd]

theorem convStart_off (off : d.snd.ctl.getLsbD 0 = false) : convStart now d = d := by
  have closed : d.snd.en = false := off
  simp [convStart, closed]

/-- R322, R326: a conversion of the host, of an input without a node to check, with the FIFO off. -/
theorem convComplete_host {v : Nat} {c : AdcConv} (busy : d.snd.conv = some c) (host : c.host = true) (unchecked : c.e = none)
    (input : c.mux < 80) (past : c.hold + 4000 ≤ now) (noFifo : d.snd.ctl.getLsbD 3 = false) (idle : d.snd.reqGo = false) :
    convComplete v now d = { d with snd := { d.snd with
      conv := none, data := d.snd.data.put (Fin.ofNat 80 c.mux) (some v), resVal := v, resMux := c.mux
      reqDone := true } } := by
  have check (e : Device) : checkNode c v now e = e := by
    simp [checkNode, unchecked]
  simp only [convComplete, busy, if_neg (Nat.not_lt.mpr past), check, host, if_true, pushFifo, Device.sndUpd, Sounding.fifoEn,
    bitOf, noFifo, Bool.not_false, input, idle, Bool.and_self, Bool.or_true]

theorem convComplete_early {v : Nat} {c : AdcConv} (busy : d.snd.conv = some c) (early : now < c.hold + 4000) :
    convComplete v now d = d := by
  simp only [convComplete, busy, if_pos early]

/-- R323: a sample that waited 1 ms for the end of its node's ramp. -/
theorem sampleSkip_due {t : Nat} (waits : d.snd.waitAt = some t) (past : t + 8000000 ≤ now) (ends : d.snd.endNext = true)
    (on : (d.snd.bgen.at (Fin.ofNat 3 (d.snd.pos / 32))).getLsbD (d.snd.pos % 32) = true) :
    sampleSkip now d = { d with snd := { d.snd with
      skip := min 255 (d.snd.skip + 1), pos := (d.snd.pos + 1) % 80, endNext := false, waitAt := none } } := by
  have due : (skipDue now d && bgOn d.snd d.snd.pos) = true := by
    rw [Bool.and_eq_true]
    exact ⟨by simp [skipDue, waits, past], on⟩
  rw [sampleSkip, if_pos due]
  simp [Device.sndUpd, passOn, ends, satInc_eq_min]

theorem sampleSkip_idle (idle : d.snd.waitAt = none) : sampleSkip now d = d := by
  simp [sampleSkip, skipDue, idle]

/-- R326: a read of the FIFO pops its head. -/
theorem sndFifoRead_cons {v m : Nat} {l : List (Nat × Nat)} (some : d.snd.fifo = (v, m) :: l) :
    sndFifoRead d = { d with
      snd := { d.snd with fifo := l }
      hps := { d.hps with dout := BitVec.ofNat 32 (2147483648 + 65536 * (m % 128) + v % 4096) } } := by
  have order : v % 4096 + 65536 * (m % 128) + 2147483648 = 2147483648 + 65536 * (m % 128) + v % 4096 := by omega
  simp only [sndFifoRead, some, w32, order, List.drop_one, List.tail_cons]

theorem sndFifoRead_nil (none : d.snd.fifo = []) : sndFifoRead d = { d with hps := { d.hps with dout := 0 } } := by
  rw [sndFifoRead, none]
  rw [show (List.drop 1 ([] : List (Nat × Nat))) = d.snd.fifo from none.symm]

end

/-- Settles O42: each command has one equation per case of the converter's state. -/
theorem sounding : Obligations.Sounding := by
  unfold Obligations.Sounding
  intro s d
  exact ⟨fun m => changes_of_runDev _ (exec_hostConversion m s) rfl,
    fun en idle on go outside => changes_of_runDev _ (exec_conversionStart s) (convStart_host en idle on go outside),
    fun off => idles_of_runDev _ (exec_conversionStart s) (convStart_off off),
    fun v _ busy host unchecked input past noFifo idle => changes_of_runDev _ (exec_conversionComplete v s)
      (convComplete_host busy host unchecked input past noFifo idle),
    fun v _ busy early => idles_of_runDev _ (exec_conversionComplete v s) (convComplete_early busy early),
    fun _ waits past ends on => changes_of_runDev _ (exec_sampleSkip s) (sampleSkip_due waits past ends on),
    fun idle => idles_of_runDev _ (exec_sampleSkip s) (sampleSkip_idle idle),
    fun _ _ _ some => changes_of_runDev _ (exec_sndFifoRead s) (sndFifoRead_cons some),
    fun none => changes_of_runDev _ (exec_sndFifoRead s) (sndFifoRead_nil none)⟩

end Machine

end Sys2Proof

namespace Sys2Proof

namespace Machine

/-! ## The sources of the event controller -/

theorem exec_softwareSet (src : SourceNo) (dt : BitVec 16) (s : State) :
    exec (.softwareSet src dt) s = s.runDev (softSet src dt) := rfl
theorem exec_evcDone (src : SourceNo) (s : State) : exec (.evcDone src) s = s.runDev (fun _ => evcDone src) := rfl
theorem exec_evcClr (src : SourceNo) (s : State) : exec (.evcClr src) s = s.runDev (fun _ => evcClr src) := rfl
theorem exec_evcMode (k : Fin 8) (v : Word) (s : State) : exec (.evcMode k v) s = s.runDev (fun _ => evcMode k v) := rfl
theorem exec_evcMask (k : Fin 8) (v : Word) (s : State) : exec (.evcMask k v) s = s.runDev (fun _ => maskWrite k v) := rfl
theorem exec_evcRp (v : Word) (s : State) : exec (.evcRp v) s = s.runDev (fun _ => evcRp v) := rfl

theorem Device.srcUpd_congr {k : SourceNo} {f g : Source → Source} {d : Device} (h : f (d.evc.src.at k) = g (d.evc.src.at k)) :
    d.srcUpd k f = d.srcUpd k g := by
  simp only [Device.srcUpd, Tab.upd, h]

section

variable {src : SourceNo} {dt : BitVec 16} {now : Nat} {d : Device}

/-- R386: a software set of a level source waits there. -/
theorem softSet_level (level : d.evc.isLevel src = true) : softSet src dt now d =
    d.srcUpd src (fun x => { x with soft := some (dt, now), rcnt := x.rcnt + 1 }) := if_pos level

/-- R386: a software set joins the end of the queue of an edge source with room. -/
theorem softSet_edge (edge : d.evc.isLevel src = false) (room : (d.evc.src.at src).q.length < 4)
    (earlier : ∀ c ∈ (d.evc.src.at src).q, c.at' < now) : softSet src dt now d =
    d.srcUpd src (fun x => { x with q := x.q ++ [⟨0x11, dt, now, now, 2⟩], rcnt := x.rcnt + 1 }) := by
  have kept : Source.drops false (d.evc.src.at src) = false := by
    simp [Source.drops, room]
  unfold softSet
  simp only [edge, kept, Bool.false_eq_true, if_false]
  exact Device.srcUpd_congr (Source.take_edge room earlier)

end

/-! ### A write of the modes (R387) -/

/-- The sources in a list are cleared, and no others. -/
theorem foldl_evcClr_at (o : SourceNo) : ∀ (l : List SourceNo) (d : Device),
    (l.foldl (fun d s => evcClr s d) d).evc.src.at o =
      if o ∈ l then (d.evc.src.at o).clear else d.evc.src.at o
  | [], d => by simp
  | s :: l, d => by
    rw [List.foldl_cons, foldl_evcClr_at o l (evcClr s d)]
    by_cases same : o = s
    · subst same
      simp [evcClr, Device.srcUpd, Source.clear]
    · simp [evcClr, Device.srcUpd, Tab.at_upd_ne _ _ same, same]

/-- R387: the sources of word `k` whose mode changes when `v` is written. -/
def changedSources (k : Fin 8) (v : Word) (d : Device) : List SourceNo :=
  ((fins 32).filter (fun j => bitOf (d.evc.mode.at k) j.val != bitOf v j.val)).map
    (fun j => Fin.ofNat 256 (32 * k.val + j.val))

theorem evcMode_eq (k : Fin 8) (v : Word) (d : Device) : evcMode k v d =
    let d' := (changedSources k v d).foldl (fun d s => evcClr s d) d
    { d' with evc := { d'.evc with mode := d'.evc.mode.put k v } } := by
  rw [evcMode, changedSources, List.foldl_map, List.foldl_filter]

theorem mem_changedSources (k : Fin 8) (v : Word) (d : Device) (o : SourceNo) : o ∈ changedSources k v d ↔
    o.val / 32 = k.val ∧ bitOf (d.evc.mode.at k) (o.val % 32) ≠ bitOf v (o.val % 32) := by
  simp only [changedSources, List.mem_map, List.mem_filter, mem_fins, true_and, bne_iff_ne]
  constructor
  · rintro ⟨j, differs, rfl⟩
    have place : (Fin.ofNat 256 (32 * k.val + j.val)).val = 32 * k.val + j.val := Nat.mod_eq_of_lt (by omega)
    rw [place, show (32 * k.val + j.val) / 32 = k.val by omega, show (32 * k.val + j.val) % 32 = j.val by omega]
    exact ⟨rfl, differs⟩
  · rintro ⟨word, differs⟩
    refine ⟨⟨o.val % 32, by omega⟩, differs, Fin.ext ?_⟩
    exact (Nat.mod_eq_of_lt (by dsimp only; omega)).trans (by dsimp only; omega)

/-- Clearing sources leaves all of the controller but them. -/
theorem foldl_evcClr_keeps {β : Type} (view : Evc → β) (same : ∀ (e : Evc) src, view { e with src := src } = view e)
    (l : List SourceNo) (d : Device) : view (l.foldl (fun d s => evcClr s d) d).evc = view d.evc :=
  foldl_same (fun d : Device => view d.evc) (fun d s => evcClr s d) (fun d _ => same d.evc _) l d

theorem evcMode_src (k : Fin 8) (v : Word) (d : Device) (o : SourceNo) : (evcMode k v d).evc.src.at o =
    if o.val / 32 = k.val ∧ bitOf (d.evc.mode.at k) (o.val % 32) ≠ bitOf v (o.val % 32) then (d.evc.src.at o).clear
    else d.evc.src.at o := by
  rw [evcMode_eq]
  dsimp only
  rw [foldl_evcClr_at]
  exact if_congr (mem_changedSources k v d o) rfl rfl

theorem evcMode_mode (k : Fin 8) (v : Word) (d : Device) : (evcMode k v d).evc.mode = d.evc.mode.put k v := by
  rw [evcMode_eq]
  dsimp only
  rw [foldl_evcClr_keeps Evc.mode (fun _ _ => rfl)]

theorem evcMode_mask (k : Fin 8) (v : Word) (d : Device) : (evcMode k v d).evc.mask = d.evc.mask := by
  rw [evcMode_eq]
  exact foldl_evcClr_keeps Evc.mask (fun _ _ => rfl) _ d

theorem evcMode_due (k : Fin 8) (v : Word) (d : Device) : (evcMode k v d).evc.due = d.evc.due := by
  rw [evcMode_eq]
  exact foldl_evcClr_keeps Evc.due (fun _ _ => rfl) _ d

/-! ### Masks and the read pointer (R389, R395) -/

section

variable {k : Fin 8} {v : Word} {d : Device}

/-- R389: with no record due, a write of a mask at an idle port completes. -/
theorem maskWrite_lands (idle : d.hps.q = []) (written : d.evc.wp = d.evc.rsv) : maskWrite k v d =
    { d with evc := { d.evc with mask := d.evc.mask.put k v, maskWait := false } } := by
  simp [maskWrite, idle, evcMask, written]

/-- R389: with records due, the write has landed and holds the port. -/
theorem maskWrite_holds (idle : d.hps.q = []) (due : d.evc.wp ≠ d.evc.rsv) : maskWrite k v d = { d with
    evc := { d.evc with mask := d.evc.mask.put k v, maskWait := true }
    hps := { d.hps with q := [.write (BitVec.ofNat 32 (0x003B_0100 + 4 * k.val)) v] } } := by
  simp [maskWrite, idle, evcMask, due, maskAddr, w32]

/-- R405: the write waits behind earlier accesses. -/
theorem maskWrite_waits (busy : d.hps.q ≠ []) : maskWrite k v d = { d with
    hps := { d.hps with q := d.hps.q ++ [.write (BitVec.ofNat 32 (0x003B_0100 + 4 * k.val)) v] } } := by
  simp [maskWrite, busy, maskAddr, w32]

/-- R395: a read pointer up to WP is taken. -/
theorem evcRp_taken (reached : (v - d.evc.rp).toNat ≤ (d.evc.wp - d.evc.rp).toNat) :
    evcRp v d = { d with evc := ({ d.evc with rp := v }.unfull).drive } := if_pos reached

theorem evcRp_refused (beyond : (d.evc.wp - d.evc.rp).toNat < (v - d.evc.rp).toNat) :
    evcRp v d = { d with evc := { d.evc with rpref := true } } := if_neg (Nat.not_le.mpr beyond)

end

/-- Settles O52: each host operation has one equation per case. -/
theorem eventSources : Obligations.EventSources := by
  unfold Obligations.EventSources
  intro s src dt k v e x
  refine ⟨fun level => changes_of_runDev _ (exec_softwareSet src dt s) (softSet_level level),
    fun edge room earlier => changes_of_runDev _ (exec_softwareSet src dt s) (softSet_edge edge room earlier),
    fun level => changes_of_runDev _ (exec_evcDone src s) (if_pos level),
    fun edge => idles_of_runDev _ (exec_evcDone src s) (if_neg (Bool.eq_false_iff.mp edge)),
    changes_of_runDev _ (exec_evcClr src s) rfl,
    brings_of_runDev _ (exec_evcMode k v s) ⟨evcMode_mode k v _, evcMode_mask k v _, evcMode_due k v _, ?changed, ?kept⟩,
    fun idle => ⟨fun written => changes_of_runDev _ (exec_evcMask k v s) (maskWrite_lands idle written),
      fun due => changes_of_runDev _ (exec_evcMask k v s) (maskWrite_holds idle due)⟩,
    fun busy => changes_of_runDev _ (exec_evcMask k v s) (maskWrite_waits busy), ?taken,
    fun beyond => changes_of_runDev _ (exec_evcRp v s) (evcRp_refused beyond)⟩
  case changed =>
    intro o word differs
    rw [evcMode_src, if_pos ⟨word, differs⟩]
    rfl
  case kept =>
    intro o same
    rw [evcMode_src, if_neg]
    rintro ⟨word, differs⟩
    exact same.elim (fun other => other word) differs
  case taken =>
    intro reached
    refine brings_of_runDev _ (exec_evcRp v s) ?_
    rw [evcRp_taken reached]
    refine ⟨rfl, rfl, ?_, ?_, rfl, rfl, rfl⟩
    · by_cases reads : s.core.dev.evc.wp = v
      · simp [Evc.drive, Evc.unfull, e, reads]
      · simp [Evc.drive, Evc.unfull, e, reads]
    · intro notFull
      simp [Evc.drive, Evc.unfull, show s.core.dev.evc.full = false from notFull]

end Machine

end Sys2Proof

namespace Sys2Proof

namespace Machine

/-! ## Entry of channels into their safe state

`Channel.front` is what a safe entry of one channel leaves of every other: the enable bit, the status and the committed
actions. -/

/-- The enable bit, the status and the committed actions of a channel. -/
def Channel.front (h : Channel) : Bool × ChnStat × List CommEntry := (h.cfg.en, h.stat, h.comm)

theorem returnHeld_front (l : List HeldEff) (d : Device) (c : Chan) :
    ((returnHeld l d).chn.at c).front = (d.chn.at c).front := by
  refine foldl_same (fun d => (d.chn.at c).front) _ (fun d x => ?_) l d
  cases x with
  | capt a n => exact Device.chnUpd_keeps Channel.front a c d
  | cancel a i m => exact Device.chnUpd_keeps Channel.front a c d
  | _ => rfl

theorem mapProv_front (f : Chan → List ProvEntry → List ProvEntry) (d : Device) (c : Chan) :
    ((d.mapProv f).chn.at c).front = (d.chn.at c).front :=
  foldl_same (fun d => (d.chn.at c).front) _ (fun d a => Device.chnUpd_keeps Channel.front a c d) _ d

theorem abandon_front (h : Chan) (d : Device) (c : Chan) : ((abandon h d).chn.at c).front = (d.chn.at c).front := by
  unfold abandon
  cases (d.chn.at h).prog.svc with
  | none => rfl
  | some v =>
    refine (Device.chnUpd_keeps Channel.front h c _).trans ?_
    cases v.inFlight with
    | true => rfl
    | false => rfl

/-- R140: a program that stops leaves the enable bit, status and committed actions of every channel. -/
theorem stopProgram_front (h : Chan) (d : Device) (c : Chan) : ((stopProgram h d).chn.at c).front = (d.chn.at c).front := by
  rw [stopProgram_eq, Device.progUpd, Device.chnUpd_keeps Channel.front h c, dropReq_chn, givesUp, abandon_front,
    mapProv_front, returnHeld_front]

theorem linkSafe_front (a : Chan) (d : Device) (c : Chan) : ((linkSafe a d).chn.at c).front = (d.chn.at c).front := by
  unfold linkSafe
  split
  · exact Device.chnUpd_keeps Channel.front a c _
  · rfl

theorem front_en {h h' : Channel} (same : h.front = h'.front) : h.cfg.en = h'.cfg.en := congrArg Prod.fst same
theorem front_stat {h h' : Channel} (same : h.front = h'.front) : h.stat = h'.stat := congrArg (·.2.1) same

/-- R26, R112: a channel in its safe state: `h` of an enabled channel `h0` that was not. -/
def Channel.entered (h0 h : Channel) : Prop :=
  h0.cfg.en = true ∧ h0.stat.safe = false ∧ h.cfg.en = true ∧ h.stat.safe = true ∧ h.comm = []

theorem Channel.entered_of_front {h0 h h' : Channel} (same : h'.front = h.front) (entered : h0.entered h) : h0.entered h' := by
  obtain ⟨en, stat, comm⟩ : h'.cfg.en = h.cfg.en ∧ h'.stat = h.stat ∧ h'.comm = h.comm := by
    simpa [Channel.front] using same
  obtain ⟨was, fresh, on, safe, gone⟩ := entered
  exact ⟨was, fresh, en.trans on, stat ▸ safe, comm.trans gone⟩

section

variable {c : Chan} {k : Code} {d : Device}

theorem ballSafe_front (h : Channel) : (ballSafe h).front = h.front := by
  unfold ballSafe
  split <;> rfl

/-- R26, R112: an enabled channel that is not in its safe state enters it. -/
theorem safeOne_enters (en : (d.chn.at c).cfg.en = true) (unsafeYet : (d.chn.at c).stat.safe = false) :
    (d.chn.at c).entered ((safeOne c k d).chn.at c) := by
  have stopped : ∀ e : Device, (e.chn.at c).cfg.en = true → (d.chn.at c).entered ((e.chnUpd c (fun h =>
      ballSafe (stopTrain { h with comm := [], stat := { h.stat with code := k, safe := true, safeDue := none } }))).chn.at c) := by
    intro e on
    rw [Device.chnUpd_at_same]
    exact Channel.entered_of_front (ballSafe_front _) ⟨en, unsafeYet, on, rfl, rfl⟩
  unfold safeOne
  rw [if_pos (by rw [en, unsafeYet]; rfl)]
  refine Channel.entered_of_front (linkSafe_front c _ c) (stopped _ ?_)
  cases d.homeOf c with
  | none => exact en
  | some h =>
    dsimp only
    rw [front_en (stopProgram_front h d c)]
    exact en

/-- A safe entry leaves the other channels' status. -/
theorem safeOne_others {o : Chan} (other : o ≠ c) : ((safeOne c k d).chn.at o).front = (d.chn.at o).front := by
  unfold safeOne
  split
  · dsimp only
    rw [linkSafe_front, Device.chnUpd_chn, Tab.at_upd_ne _ _ other]
    cases d.homeOf c with
    | none => rfl
    | some h => exact stopProgram_front h d o
  · rfl

theorem safeOne_idle (idle : (d.chn.at c).cfg.en = false ∨ (d.chn.at c).stat.safe = true) : safeOne c k d = d := by
  unfold safeOne
  rw [if_neg]
  rcases idle with off | safe
  · simp [off]
  · simp [safe]

end

/-- What safe entries make of a channel: nothing, or it entered its safe state. -/
def Channel.safeFrom (h0 h : Channel) : Prop := h.front = h0.front ∨ h0.entered h

theorem safeOne_keeps {h0 : Channel} (o c : Chan) (k : Code) (d : Device) (from0 : h0.safeFrom (d.chn.at o)) :
    h0.safeFrom ((safeOne c k d).chn.at o) := by
  by_cases other : o = c
  · subst other
    by_cases idle : (d.chn.at o).cfg.en = false ∨ (d.chn.at o).stat.safe = true
    · rw [safeOne_idle idle]
      exact from0
    · obtain ⟨on, fresh⟩ := not_or.mp idle
      obtain ⟨was, unsafeYet, now⟩ := safeOne_enters (k := k) (Bool.eq_true_of_not_eq_false on) (Bool.eq_false_of_not_eq_true fresh)
      rcases from0 with same | ⟨_, _, _, safe, _⟩
      · exact .inr ⟨front_en same ▸ was, front_stat same ▸ unsafeYet, now⟩
      · exact absurd safe fresh
  · rw [Channel.safeFrom, safeOne_others other]
    exact from0.imp_right (Channel.entered_of_front (safeOne_others other))

theorem Channel.safeFrom_disabled {h0 h : Channel} (off : h0.cfg.en = false) (from0 : h0.safeFrom h) : h.stat = h0.stat := by
  rcases from0 with same | ⟨en, _⟩
  · exact front_stat same
  · exact absurd en (by simp [off])

/-- Safe entries of a list of channels. -/
theorem safeAll_keeps {h0 : Channel} (o : Chan) (l : List Chan) (d : Device) (from0 : h0.safeFrom (d.chn.at o)) :
    h0.safeFrom ((l.foldl (fun d c => safeOne c .halted d) d).chn.at o) :=
  foldl_keeps (fun d : Device => h0.safeFrom (d.chn.at o)) _ (fun d c => safeOne_keeps o c .halted d) l d from0

theorem safeFrom_rfl (h : Channel) : h.safeFrom h := .inl rfl

theorem haltChannels_keeps (l : List Chan) (d : Device) (o : Chan) : (d.chn.at o).safeFrom ((haltChannels l d).chn.at o) :=
  safeAll_keeps o _ _ (safeAll_keeps o l d (safeFrom_rfl _))

/-- A channel in its safe state stays there through the safe entries of others and of itself. -/
theorem safeAll_safe (o : Chan) (l : List Chan) (d : Device) (safe : (d.chn.at o).stat.safe = true) :
    ((l.foldl (fun d c => safeOne c .halted d) d).chn.at o).stat.safe = true := by
  rcases safeAll_keeps o l d (safeFrom_rfl _) with same | ⟨_, _, _, entered, _⟩
  · rw [front_stat same]
    exact safe
  · exact entered

/-- R442: an enabled channel of the list ends in its safe state. -/
theorem safeAll_mem (o : Chan) (l : List Chan) : ∀ d : Device, o ∈ l → (d.chn.at o).cfg.en = true →
    ((l.foldl (fun d c => safeOne c .halted d) d).chn.at o).stat.safe = true := by
  induction l with
  | nil => exact fun _ mem => absurd mem List.not_mem_nil
  | cons c l rest =>
    intro d mem en
    rw [List.foldl_cons]
    by_cases here : o = c
    · subst here
      refine safeAll_safe o l _ ?_
      by_cases safe : (d.chn.at o).stat.safe = true
      · rw [safeOne_idle (.inr safe)]
        exact safe
      · obtain ⟨_, _, _, entered, _⟩ := safeOne_enters (k := .halted) en (Bool.eq_false_of_not_eq_true safe)
        exact entered
    · refine rest _ ((List.mem_cons.mp mem).resolve_left here) ?_
      rw [front_en (safeOne_others here), en]

theorem haltChannels_safe {o : Chan} {l : List Chan} {d : Device} (mem : o ∈ l) (en : (d.chn.at o).cfg.en = true) :
    ((haltChannels l d).chn.at o).stat.safe = true :=
  safeAll_safe o _ _ (safeAll_mem o l d mem en)

theorem mem_enabled {d : Device} {c : Chan} (en : (d.chn.at c).cfg.en = true) : c ∈ d.enabled := by
  simp [Device.enabled, List.mem_filter, mem_fins, en]

/-- R442: safe entries change channels, helm and link work alone. -/
theorem haltChannels_changes (l : List Chan) (d : Device) :
    ∃ x h w, haltChannels l d = { d with chn := x, hlm := h, glw := w } := by
  have turn (e : Device) (c : Chan) : (∃ x h w, e = { d with chn := x, hlm := h, glw := w }) →
      ∃ x h w, safeOne c .halted e = { d with chn := x, hlm := h, glw := w } := by
    rintro ⟨x, h, w, rfl⟩
    exact safeOne_changes c .halted _
  have all (l : List Chan) (e : Device) : (∃ x h w, e = { d with chn := x, hlm := h, glw := w }) →
      ∃ x h w, l.foldl (fun d c => safeOne c .halted d) e = { d with chn := x, hlm := h, glw := w } :=
    foldl_keeps _ _ turn l e
  exact all _ _ (all l d ⟨_, _, _, rfl⟩)

/-! ## HALT-class faults of bits 2 to 5 (R442) -/

/-- R442: the power block after a fault of one of these bits. -/
def Pwr.faulted (b : Nat) (p : Pwr) : Pwr :=
  { p with hfault := if bitOf p.hfault b then p.hfault else p.hfault ||| BitVec.ofNat 6 (2 ^ b), armed := false, permit := false }

theorem Pwr.faulted_hfault (p : Pwr) {b : Nat} (hb : b < 6) : bitOf (p.faulted b).hfault b = true := by
  unfold Pwr.faulted
  dsimp only
  split
  · assumption
  · rw [bitOf, BitVec.getLsbD_or, BitVec.getLsbD_ofNat]
    simp [hb, Nat.testBit_two_pow_self]

theorem setHFault_pwr (step : Nat) {b : Nat} (hb : 2 ≤ b) (first now : Nat) (d : Device) :
    (setHFault step b first now d).pwr = d.pwr.faulted b := by
  have low : (decide (b < 2) && fld d.pwr.hfault 1 0 == 0) = false := by
    rw [decide_eq_false (by omega), Bool.false_and]
  unfold setHFault
  simp only [low, Bool.false_eq_true, if_false, if_neg (show ¬b = 1 by omega), dropPermit_pwr]
  split
  · simp only [Pwr.faulted, *, if_true]
  · simp only [Pwr.faulted, raise_pwr, *, if_false, Bool.false_eq_true]

theorem causes_raise_ne {k src : Nat} (other : Fin.ofNat 256 k ≠ Fin.ofNat 256 src) (step kind cause arg now : Nat) (d : Device) :
    causes k (raise step src kind cause arg now d) = causes k d := by
  rw [causes, raise_src_ne step src kind cause arg now d other]
  rfl

/-- R442: a fault of one of these bits is counted at source 241 alone. -/
theorem setHFault_causes {k : Nat} (other : Fin.ofNat 256 k ≠ Fin.ofNat 256 241) (step : Nat) {b : Nat} (hb : 2 ≤ b)
    (first now : Nat) (d : Device) : causes k (setHFault step b first now d) = causes k d := by
  have low : (decide (b < 2) && fld d.pwr.hfault 1 0 == 0) = false := by
    rw [decide_eq_false (by omega), Bool.false_and]
  have dropped (e : Device) : causes k (dropPermit step now e) = causes k e := by
    unfold dropPermit
    dsimp only
    split
    · exact causes_raise_ne other _ _ _ _ _ _
    · rfl
  unfold setHFault
  simp only [low, Bool.false_eq_true, if_false, if_neg (show ¬b = 1 by omega), dropped]
  split
  · rfl
  · exact causes_raise_ne other _ _ _ _ _ _

theorem setHFault_chn (step b first now : Nat) (d : Device) : (setHFault step b first now d).chn = d.chn := by
  obtain ⟨_, _, changed, _, _⟩ := setHFault_changes step b first now d
  rw [changed]

theorem setHFault_thm (step b first now : Nat) (d : Device) : (setHFault step b first now d).thm = d.thm := by
  obtain ⟨_, _, changed, _, _⟩ := setHFault_changes step b first now d
  rw [changed]

section

variable {step b now : Nat} {d : Device}

theorem haltChannels_pwr (l : List Chan) (d : Device) : (haltChannels l d).pwr = d.pwr := by
  obtain ⟨_, _, _, changed⟩ := haltChannels_changes l d
  rw [changed]

theorem haltChannels_evc (l : List Chan) (d : Device) : (haltChannels l d).evc = d.evc := by
  obtain ⟨_, _, _, changed⟩ := haltChannels_changes l d
  rw [changed]

theorem haltAll_pwr (hb : 2 ≤ b) : (haltAll step b now d).pwr = d.pwr.faulted b := by
  rw [haltAll, setHFault_pwr step hb, haltChannels_pwr]

theorem haltAll_thm (step b now : Nat) (d : Device) : (haltAll step b now d).thm = d.thm := by
  obtain ⟨_, _, _, changed⟩ := haltChannels_changes d.enabled d
  rw [haltAll, setHFault_thm, changed]

theorem haltAll_causes {k : Nat} (other : Fin.ofNat 256 k ≠ Fin.ofNat 256 241) (hb : 2 ≤ b) :
    causes k (haltAll step b now d) = causes k d := by
  rw [haltAll, setHFault_causes other step hb, causes, haltChannels_evc]
  rfl

/-- R442: every enabled channel ends in its safe state. -/
theorem haltAll_safe {c : Chan} (en : (d.chn.at c).cfg.en = true) : ((haltAll step b now d).chn.at c).stat.safe = true := by
  rw [haltAll, setHFault_chn]
  exact haltChannels_safe (mem_enabled en) en

theorem haltAll_keeps (c : Chan) : (d.chn.at c).safeFrom ((haltAll step b now d).chn.at c) := by
  rw [haltAll, setHFault_chn]
  exact haltChannels_keeps d.enabled d c

end

end Machine

end Sys2Proof

namespace Sys2Proof

namespace Machine

/-! ## The thermal governor -/

theorem exec_thermalEvaluation (t : Tab Int 4) (p : BitVec 16) (s : State) :
    exec (.thermalEvaluation t p) s = s.runDev (thermalEvaluation t p.toNat) := rfl
theorem exec_shutdown (s : State) : exec .shutdown s = s.runDev thermalShutdown := rfl

/-! ### The sensors (R444) -/

/-- The middle of three lies among them. -/
theorem median3_within {a b c lo hi : Int} (ha : lo ≤ a ∧ a ≤ hi) (hb : lo ≤ b ∧ b ≤ hi) (hc : lo ≤ c ∧ c ≤ hi) :
    lo ≤ median3 a b c ∧ median3 a b c ≤ hi := by
  unfold median3
  omega

theorem sensorOk_of_agree {t : Tab Int 4}
    (agree : ∀ i j : Fin 4, -440 ≤ t.at i ∧ t.at i ≤ 1200 ∧ (t.at i - t.at j).natAbs ≤ 80) (i : Fin 4) :
    sensorOk t i = true := by
  have near (j : Fin 4) : t.at i - 80 ≤ t.at j ∧ t.at j ≤ t.at i + 80 := by
    have := (agree i j).2.2
    omega
  have middle := median3_within (near (i + 1)) (near (i + 2)) (near (i + 3))
  obtain ⟨low, high, _⟩ := agree i i
  unfold sensorOk
  simp only [Bool.and_eq_true, decide_eq_true_eq]
  exact ⟨⟨low, high⟩, by omega⟩

theorem sensorOk_of_out {t : Tab Int 4} {i : Fin 4} (out : t.at i < -440 ∨ 1200 < t.at i) : sensorOk t i = false := by
  unfold sensorOk
  simp only [Bool.and_eq_false_iff, decide_eq_false_iff_not]
  omega

/-- R444: four sensors that agree are all valid, and the hottest is the junction temperature. -/
theorem hottest_of_four (t : Tab Int 4) : [t.at 1, t.at 2, t.at 3].foldl max (t.at 0) =
    max (max (t.at 0) (t.at 1)) (max (t.at 2) (t.at 3)) := by
  simp only [List.foldl_cons, List.foldl_nil, max_assoc]

/-! ### What an evaluation leaves (R446 to R448) -/

/-- What of the governor's block one crossing can change: CAUTION and LIMIT. -/
theorem crossings_changes (tj : Int) (now : Nat) (d : Device) :
    ∃ a b e, crossings tj now d = { d with thm := { d.thm with caution := a, limit := b }, evc := e } ∧
      (cautAt d.thm.tcfg ≤ tj → a = true) ∧ (tj ≤ cautAt d.thm.tcfg - 8 → a = false) := by
  have cautions : ∃ a e, (if !d.thm.caution && decide (cautAt d.thm.tcfg ≤ tj) then
        raiseThm 1 1 now (d.thmUpd (fun t => { t with caution := true }))
      else if d.thm.caution && decide (tj ≤ cautAt d.thm.tcfg - 8) then
        raiseThm 1 0 now (d.thmUpd (fun t => { t with caution := false }))
      else d) = { d with thm := { d.thm with caution := a }, evc := e } ∧
      (cautAt d.thm.tcfg ≤ tj → a = true) ∧ (tj ≤ cautAt d.thm.tcfg - 8 → a = false) := by
    split
    case isTrue rises =>
      simp only [Bool.and_eq_true, decide_eq_true_eq] at rises
      exact ⟨true, _, rfl, fun _ => rfl, fun _ => by omega⟩
    case isFalse level =>
      split
      case isTrue falls =>
        simp only [Bool.and_eq_true, decide_eq_true_eq] at falls
        exact ⟨false, _, rfl, fun _ => by omega, fun _ => rfl⟩
      case isFalse still =>
        refine ⟨d.thm.caution, _, rfl, fun hot => ?_, fun cold => ?_⟩
        · simpa [hot] using level
        · simpa [cold] using still
  obtain ⟨a, e, caution, rises, falls⟩ := cautions
  unfold crossings
  dsimp only
  rw [caution]
  split
  · exact ⟨a, true, _, rfl, rises, falls⟩
  · split
    · exact ⟨a, false, _, rfl, rises, falls⟩
    · exact ⟨a, d.thm.limit, e, rfl, rises, falls⟩

theorem macePause_changes (d : Device) : ∃ m, macePause d = { d with mem := m } := by
  unfold macePause
  split
  · exact ⟨_, rfl⟩
  · exact ⟨_, rfl⟩

/-- R445, R446: the governor changes its stage and pace, and what the mace and the event controller make of it. -/
theorem governStep_changes (tj : Int) (now : Nat) (d : Device) : ∃ g m e, governStep tj now d =
    { d with thm := { d.thm with stage := (d.thm.govern tj now).1, pace := (d.thm.govern tj now).2, chgAt := g }
             mem := m, evc := e } := by
  unfold governStep
  dsimp only
  split
  case isTrue same =>
    obtain ⟨stage, pace⟩ := same
    rw [stage, pace]
    exact ⟨d.thm.chgAt, _, _, rfl⟩
  case isFalse moved =>
    obtain ⟨m, paused⟩ := macePause_changes (raiseThm 3 (16 * (d.thm.govern tj now).1 + (d.thm.govern tj now).2) now
      (d.thmUpd (fun t => { t with stage := (d.thm.govern tj now).1, pace := (d.thm.govern tj now).2, chgAt := now })))
    rw [paused]
    exact ⟨now, m, _, rfl⟩

theorem govern_stage_zero {t : Thermal} (zero : t.stage = 0) (tj : Int) (now : Nat) :
    (t.govern tj now).1 = if 920 ≤ tj then 1 else 0 := by
  simp only [Thermal.govern, zero, if_true]
  split <;> rfl

/-- R448: a thermal shutdown, once until its fault is cleared. -/
theorem thermalShutdown_acts {d : Device} (clear : bitOf d.pwr.hfault 3 = false) (now : Nat) :
    thermalShutdown now d = raiseThm 4 0 now (haltAll 2 3 now d) := if_neg (by rw [← bitOf, clear]; exact Bool.false_ne_true)

theorem thermalShutdown_idle {d : Device} (set : bitOf d.pwr.hfault 3 = true) (now : Nat) : thermalShutdown now d = d :=
  if_pos set

/-- R448: the device `d'` after a shutdown whose channels were those of `d`. -/
def shutDown (d d' : Device) : Prop := bitOf d'.pwr.hfault 3 = true ∧ d'.pwr.permit = false ∧ d'.pwr.armed = false ∧
  (∀ c, (d.chn.at c).cfg.en = true → (d'.chn.at c).stat.safe = true)

theorem thermalShutdown_down {d0 d : Device} (same : d.chn = d0.chn) (clear : bitOf d.pwr.hfault 3 = false) (now : Nat) :
    shutDown d0 (thermalShutdown now d) := by
  rw [thermalShutdown_acts clear]
  unfold shutDown
  simp only [raiseThm, raise_pwr, raise_chn, haltAll_pwr (show 2 ≤ 3 by decide)]
  exact ⟨Pwr.faulted_hfault _ (by decide), rfl, rfl, fun _ en => haltAll_safe (same ▸ en)⟩

theorem thermalShutdown_thm {d : Device} (now : Nat) : (thermalShutdown now d).thm = d.thm := by
  unfold thermalShutdown
  split
  · rfl
  · rw [raiseThm, raise_thm, haltAll_thm]

/-- R448: the shutdown is recorded once at source 240. -/
theorem thermalShutdown_causes {d : Device} (clear : bitOf d.pwr.hfault 3 = false) (now : Nat) :
    causes 240 (thermalShutdown now d) = causes 240 d + 1 := by
  rw [thermalShutdown_acts clear, raiseThm, causes_raise (by decide), haltAll_causes (by decide) (by decide)]

section

variable {t : Tab Int 4} {p now : Nat} {d : Device}

/-- R444: the blocks once the junction temperature is known, all sensors being valid. -/
def evaluated (hot : Int) (p : Nat) (d : Device) : Device := d.thmUpd (fun t =>
  { t.tick with p := p, tj := hot, tmax := some (match t.tmax with | some m => max m hot | none => hot) })

/-- R444: an evaluation with four sensors in range that agree. -/
theorem thermalEvaluation_agree (agree : ∀ i j : Fin 4, -440 ≤ t.at i ∧ t.at i ≤ 1200 ∧ (t.at i - t.at j).natAbs ≤ 80) :
    thermalEvaluation t p now d =
      let hot := max (max (t.at 0) (t.at 1)) (max (t.at 2) (t.at 3))
      let d := crossings hot now (evaluated hot p d)
      if 1000 ≤ hot then thermalShutdown now d
      else if d.pwr.hfault.getLsbD 3 then d
      else governStep hot now d := by
  have valid : (fins 4).filter (sensorOk t) = [0, 1, 2, 3] :=
    List.filter_eq_self.mpr fun i _ => sensorOk_of_agree agree i
  have none : (fins 4).filter (fun i => !sensorOk t i) = [] :=
    List.filter_eq_nil_iff.mpr fun i _ => by simp [sensorOk_of_agree agree i]
  unfold thermalEvaluation
  simp only [valid, none, List.map_cons, List.map_nil, List.foldl_nil, hottest_of_four]
  simp [evaluated, Device.thmUpd, Thermal.tick] <;> rfl

/-- R444, R448: no sensor in range. -/
theorem thermalEvaluation_blind (out : ∀ i, t.at i < -440 ∨ 1200 < t.at i) : thermalEvaluation t p now d =
    thermalShutdown now (raiseThm 5 4 now (d.thmUpd (fun t => { t.tick with p := p, sfail := true }))) := by
  have none : (fins 4).filter (sensorOk t) = [] :=
    List.filter_eq_nil_iff.mpr fun i _ => by simp [sensorOk_of_out (out i)]
  unfold thermalEvaluation
  simp only [none, List.map_nil, List.length_nil]
  simp

end

/-- Settles O60: an evaluation sets the junction temperature and compares it, and then shuts down, keeps its stage, or
governs. -/
theorem governor : Obligations.Governor := by
  unfold Obligations.Governor
  intro s t p d hot agree down
  refine ⟨fun valid cool => ?governs, fun valid shut clear => ?shuts, fun out clear => ?blind,
    fun clear => brings_of_runDev _ (exec_shutdown s) ⟨thermalShutdown_down rfl clear s.mt, thermalShutdown_causes clear s.mt⟩,
    fun set => idles_of_runDev _ (exec_shutdown s) (thermalShutdown_idle set s.mt)⟩
  case governs =>
    refine brings_of_runDev _ (exec_thermalEvaluation t p s) ?_
    obtain ⟨a, b, e, crossed, rises, falls⟩ := crossings_changes hot s.mt (evaluated hot p.toNat d)
    rw [thermalEvaluation_agree valid]
    dsimp only
    rw [if_neg (Int.not_le.mpr cool), show crossings _ s.mt _ = _ from crossed]
    split
    case isTrue set =>
      refine ⟨rfl, rfl, rfl, rfl, rises, falls, fun _ clear => ?_, fun _ => ⟨rfl, rfl⟩, rfl, rfl⟩
      exact absurd set (by rw [← bitOf]; exact Bool.eq_false_iff.mp clear)
    case isFalse clear =>
      obtain ⟨g, m, e', governed⟩ := governStep_changes hot s.mt _
      rw [show governStep _ s.mt _ = _ from governed]
      refine ⟨rfl, rfl, rfl, rfl, rises, falls, fun zero _ => govern_stage_zero
        (t := { (evaluated hot p.toNat d).thm with caution := a, limit := b }) zero hot s.mt, fun set => ?_, rfl, rfl⟩
      exact absurd set clear
  case shuts =>
    refine brings_of_runDev _ (exec_thermalEvaluation t p s) ?_
    obtain ⟨a, b, e, crossed, _⟩ := crossings_changes hot s.mt (evaluated hot p.toNat d)
    rw [thermalEvaluation_agree valid]
    dsimp only
    have stops := thermalShutdown_down (d0 := d) (d := crossings hot s.mt (evaluated hot p.toNat d))
      (by rw [crossed]; rfl) (by rw [crossed]; exact clear) s.mt
    rw [if_pos shut]
    refine ⟨?_, ?_, ?_, stops⟩
    · rw [thermalShutdown_thm, crossed]
      rfl
    · rw [thermalShutdown_thm, crossed]
      rfl
    · rw [thermalShutdown_thm, crossed]
      rfl
  case blind =>
    refine brings_of_runDev _ (exec_thermalEvaluation t p s) ?_
    have stops := thermalShutdown_down (d0 := d) (d := raiseThm 5 4 s.mt (d.thmUpd (fun t =>
      { t.tick with p := p.toNat, sfail := true }))) rfl clear s.mt
    rw [thermalEvaluation_blind out]
    refine ⟨?_, ?_, stops⟩
    · rw [thermalShutdown_thm]
      rfl
    · rw [thermalShutdown_thm]
      rfl

end Machine

end Sys2Proof

namespace Sys2Proof

namespace Machine

/-! ## The states of a link -/

theorem exec_linkEnable (l : LinkNo) (s : State) : exec (.linkEnable l) s = s.runDev (linkEnable l) := rfl
theorem exec_linkDisable (l : LinkNo) (s : State) : exec (.linkDisable l) s = s.runDev (linkDisable l) := rfl
theorem exec_retrain (l : LinkNo) (s : State) : exec (.retrain l) s = s.runDev (retrain l) := rfl
theorem exec_quietPeriodEnd (l : LinkNo) (s : State) : exec (.quietPeriodEnd l) s = s.runDev (quietEnd l) := rfl
theorem exec_trainTmo (l : LinkNo) (s : State) : exec (.trainTmo l) s = s.runDev (trainTmo l) := rfl
theorem exec_configRetry (l : LinkNo) (s : State) : exec (.configRetry l) s = s.runDev (configRetry l) := rfl
theorem exec_upstreamBadFrame (l : LinkNo) (why : BadFrame) (s : State) :
    exec (.upstreamBadFrame l why) s = s.runDev (badFrame l why) := rfl

/-- R18, R293: a link that leaves UP changes channels and link work alone. -/
theorem linkDown_changes (l : LinkNo) (d : Device) : ∃ x w, linkDown l d = { d with chn := x, glw := w } := by
  have slots : ∃ x, (slotChans l).foldl (fun d c =>
      setCode c .linklost (d.chnUpd c (fun h => { h with comm := [], pin := { h.pin with slotEdges := [] } }))) d =
      { d with chn := x } := by
    refine foldl_keeps (fun e : Device => ∃ x, e = { d with chn := x }) _ ?_ _ d ⟨_, rfl⟩
    rintro e c ⟨x, rfl⟩
    exact ⟨_, rfl⟩
  obtain ⟨x, slots⟩ := slots
  unfold linkDown
  rw [slots]
  exact ⟨x, _, rfl⟩

/-- R292: a change of state is recorded, and beside the link's state it changes channels and link work alone. -/
theorem linkGo_changes (l : LinkNo) (st : LinkSt) (now : Nat) (d : Device) : ∃ x w, linkGo l st now d =
    raiseLink l 0x07 0x01 st.num now { d.glkUpd l (fun x => { x with st := st }) with chn := x, glw := w } := by
  unfold linkGo
  dsimp only
  split
  · obtain ⟨x, w, down⟩ := linkDown_changes l (d.glkUpd l (fun x => { x with st := st }))
    rw [down]
    exact ⟨x, w, rfl⟩
  · exact ⟨_, _, rfl⟩

theorem linkGo_glk (l : LinkNo) (st : LinkSt) (now : Nat) (d : Device) :
    (linkGo l st now d).glk = d.glk.upd l (fun x => { x with st := st }) := by
  obtain ⟨x, w, gone⟩ := linkGo_changes l st now d
  rw [gone, raiseLink, raise_glk]
  rfl

theorem linkGo_pwr (l : LinkNo) (st : LinkSt) (now : Nat) (d : Device) : (linkGo l st now d).pwr = d.pwr := by
  obtain ⟨x, w, gone⟩ := linkGo_changes l st now d
  rw [gone, raiseLink, raise_pwr]
  rfl

theorem linkGo_causes (l : LinkNo) (st : LinkSt) (now : Nat) (d : Device) :
    causes (128 + l.val) (linkGo l st now d) = causes (128 + l.val) d + 1 := by
  obtain ⟨x, w, gone⟩ := linkGo_changes l st now d
  rw [gone, raiseLink, causes_raise (by omega)]
  rfl

section

variable {s : State} {l : LinkNo} {now : Nat} {d : Device}

/-- R282, R292: TRAIN is entered with the next link epoch. -/
theorem linkTrain_glk (l : LinkNo) (now : Nat) (d : Device) : (linkTrain l now d).glk = d.glk.upd l (fun x =>
    { x with lep := x.lep + 1, quiet := none, st := .train }) := by
  rw [linkTrain, Device.glwUpd_glk, linkGo_glk, Device.glkUpd_glk, Tab.upd_upd]

theorem trains_of_linkTrain (d : Device) (same : (d.glk.at l).lep = (s.core.dev.glk.at l).lep) :
    trains l s (linkTrain l s.mt d) := by
  unfold trains
  rw [linkTrain_glk, Tab.at_upd_same]
  refine ⟨rfl, congrArg (· + 1) same, rfl, ?_, ?_⟩
  · rw [linkTrain, Device.glwUpd_glw, Tab.at_upd_same]
  · rw [linkTrain, Device.glwUpd_glw, Tab.at_upd_same]

/-- R292: LOST is entered with a cause, from blocks that have raised nothing yet. -/
theorem lostWith_of_linkLost (k : Nat) (d : Device)
    (same : causes (128 + l.val) d = causes (128 + l.val) s.core.dev) : lostWith l k s (linkLost l k s.mt d) := by
  have counted : causes (128 + l.val) (linkLost l k s.mt d) = causes (128 + l.val) s.core.dev + 2 := by
    rw [linkLost, raiseLink, causes_raise (by omega)]
    change causes (128 + l.val) (linkGo l .lost s.mt _) + 1 = _
    rw [linkGo_causes]
    change causes (128 + l.val) d + 1 + 1 = _
    rw [same, BitVec.add_assoc]
    rfl
  refine ⟨?_, ?_, ?_, ?_, counted⟩
  · simp only [linkLost, raiseLink, raise_glk, Device.glwUpd_glk, linkGo_glk, Tab.at_upd_same]
  · simp only [linkLost, raiseLink, raise_glk, Device.glwUpd_glk, linkGo_glk, Device.glkUpd_glk, Tab.at_upd_same]
  · simp only [linkLost, raiseLink, raise_glk, Device.glwUpd_glk, linkGo_glk, Device.glkUpd_glk, Tab.at_upd_same]
    rfl
  · simp only [linkLost, raiseLink, raise_glw, Device.glwUpd_glw, Tab.at_upd_same]
    rfl

theorem linkEnable_on (off : (d.glk.at l).en = false) (on : d.pwr.link = .on) :
    linkEnable l now d = linkTrain l now (d.glkUpd l (fun x => { x with en := true })) := by
  simp [linkEnable, off, on]

/-- R292: a link that is disabled is OFF and silent. -/
theorem linkDisable_glk (en : (d.glk.at l).en = true) : (linkDisable l now d).glk = d.glk.upd l (fun x =>
    { x with en := false, quiet := none, st := .off }) := by
  rw [linkDisable, if_pos en, Device.glwUpd_glk]
  split
  · rename_i off
    rw [Device.glkUpd_glk, Tab.upd, Tab.upd, off]
  · rw [linkGo_glk, Device.glkUpd_glk, Tab.upd_upd]

theorem linkDisable_silent (en : (d.glk.at l).en = true) : ((linkDisable l now d).glw.at l).frame = [] := by
  rw [linkDisable, if_pos en, Device.glwUpd_glw, Tab.at_upd_same]
  rfl

theorem retrain_running (running : (d.glk.at l).st = .up ∨ (d.glk.at l).st = .align ∨ (d.glk.at l).st = .train) :
    retrain l now d = linkLost l 3 now d := by
  unfold retrain
  rcases running with st | st | st <;> simp only [st]

theorem retrain_off (off : (d.glk.at l).st = .off) : retrain l now d = d := by
  simp only [retrain, off]

/-- R292: the quiet period ends, and the link trains by itself. -/
theorem quietEnd_trains {t : Nat} (lost : (d.glk.at l).st = .lost) (quiet : (d.glk.at l).quiet = some t) (ended : t ≤ now)
    (auto : (d.glk.at l).autore = true) : quietEnd l now d = linkTrain l now (d.glkUpd l (fun x => { x with quiet := none })) := by
  simp only [quietEnd, quiet, lost, ended, and_self, if_true, auto]

theorem quietEnd_early {t : Nat} (quiet : (d.glk.at l).quiet = some t) (early : now < t) : quietEnd l now d = d := by
  have waits : ¬((d.glk.at l).st = .lost ∧ t ≤ now) := by omega
  simp only [quietEnd, quiet, if_neg waits]

theorem trainTmo_acts (train : (d.glk.at l).st = .train) (fresh : (d.glw.at l).tmoDone = false)
    (late : (d.glw.at l).trainAt + 8000000 ≤ now) : trainTmo l now d =
    raise 4 (128 + l.val) 0x04 0x12 0 now (d.glwUpd l (fun w => { w with tmoDone := true })) := by
  simp [trainTmo, train, fresh, late, raiseLink]

/-- R303: what a keyed message that has waited 64 frames does. -/
theorem configRetry_late {m : KeyedMsg} {f : Nat} (keyed : (d.glk.at l).kmsg = some m) (sent : m.sent = some f)
    (idle : m.due = false) (late : (f + 64) * 5120 ≤ now) : configRetry l now d =
    if (d.glk.at l).ktry < 3 then d.glkUpd l (fun x => { x with ktry := x.ktry + 1, kmsg := some { m with due := true } })
    else raise 4 (128 + l.val) 0x04 0x15 m.seq.toNat now (d.glkUpd l (fun x => { x with kmsg := none })) := by
  simp [configRetry, keyed, sent, idle, late, raiseLink, frameTk]

/-! ### Bad frames (R284) -/

theorem badFrame_crc_counts (up : (d.glk.at l).st = .up) (few : (d.glw.at l).badRun < 2) : badFrame l .crc now d =
    (d.glkUpd l (fun x => { x with err := x.err.put 0 (min 255 (x.err.at 0 + 1)) })).glwUpd l (fun w =>
      { w with syncs := [], badRun := w.badRun + 1 }) := by
  have kept : ¬3 ≤ (d.glw.at l).badRun + 1 := by omega
  simp [badFrame, up, countBad, kept, Tab.upd, satInc_eq_min]

theorem badFrame_missing_loses (up : (d.glk.at l).st = .up) (third : 2 ≤ (d.glw.at l).badRun) :
    ∃ e : Device, badFrame l .missing now d = linkLost l 1 now e ∧ e.evc = d.evc := by
  have lost : 3 ≤ (d.glw.at l).badRun + 1 := by omega
  refine ⟨(d.glkUpd l (fun x => { x with err := x.err.upd 2 (satInc 8) })).glwUpd l (fun w =>
    { w with syncs := [], badRun := w.badRun + 1 }), ?_, rfl⟩
  simp [badFrame, up, countBad, lost]

theorem badFrame_epoch_loses (up : (d.glk.at l).st = .up) : badFrame l .epoch now d = linkLost l 4 now d := by
  simp [badFrame, up]

end

/-- Settles O45: each command has one equation per case of the link's state. -/
theorem linkStates : Obligations.LinkStates := by
  unfold Obligations.LinkStates
  intro s l d x
  refine ⟨?enables, fun en => idles_of_runDev _ (exec_linkEnable l s) (if_pos en), ?disables,
    fun running => brings_of_runDev _ (exec_retrain l s) ?_,
    fun off => idles_of_runDev _ (exec_retrain l s) (retrain_off off),
    fun t lost quiet ended auto => brings_of_runDev _ (exec_quietPeriodEnd l s) ?quiet,
    fun t quiet early => idles_of_runDev _ (exec_quietPeriodEnd l s) (quietEnd_early quiet early),
    fun train fresh late => changes_of_runDev _ (exec_trainTmo l s) (trainTmo_acts train fresh late),
    fun m f keyed sent idle late => ⟨fun few => changes_of_runDev _ (exec_configRetry l s) ?retries,
      fun many => changes_of_runDev _ (exec_configRetry l s) ?gives_up⟩,
    fun up few => changes_of_runDev _ (exec_upstreamBadFrame l .crc s) (badFrame_crc_counts up few),
    fun up third => brings_of_runDev _ (exec_upstreamBadFrame l .missing s) ?missing,
    fun up => brings_of_runDev _ (exec_upstreamBadFrame l .epoch s) ?epoch⟩
  case enables =>
    intro off on
    refine brings_of_runDev _ (exec_linkEnable l s) ?_
    rw [linkEnable_on off on]
    refine ⟨trains_of_linkTrain _ (by simp [d]), ?_⟩
    rw [linkTrain_glk, Tab.at_upd_same, Device.glkUpd_glk, Tab.at_upd_same]
  case disables =>
    intro en
    refine brings_of_runDev _ (exec_linkDisable l s) ⟨?_, ?_, linkDisable_silent en, fun m other => ?_⟩
    · rw [linkDisable_glk en, Tab.at_upd_same]
    · rw [linkDisable_glk en, Tab.at_upd_same]
    · rw [linkDisable_glk en, Tab.at_upd_ne _ _ other]
  case _ =>
    rw [retrain_running running]
    exact lostWith_of_linkLost 3 _ rfl
  case quiet =>
    rw [quietEnd_trains lost quiet ended auto]
    exact trains_of_linkTrain _ (by simp [d])
  case retries => rw [configRetry_late keyed sent idle late, if_pos few]
  case gives_up => rw [configRetry_late keyed sent idle late, if_neg (Nat.not_lt.mpr many)]
  case missing =>
    obtain ⟨e, loses, same⟩ := badFrame_missing_loses (now := s.mt) up third
    rw [loses]
    exact lostWith_of_linkLost 1 e (by rw [causes, same]; rfl)
  case epoch =>
    rw [badFrame_epoch_loses up]
    exact lostWith_of_linkLost 4 _ rfl

end Machine

end Sys2Proof

namespace Sys2Proof

namespace Machine

/-! ## Supplies -/

theorem exec_supply (w : CoreSupply) (s : State) : exec (.supply w) s = s.runDev (supplyHigh w) := rfl
theorem exec_ioloss (k : Fin 8) (s : State) : exec (.ioloss k) s = s.runDev (vioLost k) := rfl
theorem exec_domainRequest (v : BitVec 3) (s : State) :
    exec (.domainRequest v) s = s.runDev (fun _ => domainRequest v) := rfl
theorem exec_domainStateChange (x : PowerDomain) (s : State) :
    exec (.domainStateChange x) s = s.run (domainChange x) := rfl
theorem exec_domainPowerComplete (x : PowerDomain) (s : State) :
    exec (.domainPowerComplete x) s = s.run (domainOn x) := rfl
theorem exec_hfaultClear (m : BitVec 6) (s : State) :
    exec (.hfaultClear m) s = s.runDev (fun _ => hfaultClear m) := rfl

/-- R434: the supply inputs once core supply `w` has left its window. -/
def Pwr.leaves (w : CoreSupply) (p : Pwr) : Pwr :=
  { p with vcoreIn := p.vcoreIn && decide (w ≠ .vcore), vauxIn := p.vauxIn && decide (w ≠ .vaux) }

/-- R434: the mark of a monitored core supply that leaves its window goes too. -/
def Pwr.fails (w : CoreSupply) (p : Pwr) : Pwr :=
  { p.leaves w with vcoreOk := p.vcoreOk && decide (w ≠ .vcore), vauxOk := p.vauxOk && decide (w ≠ .vaux) }

/-- R434: the mark of a core supply. -/
def Pwr.coreOk (w : CoreSupply) (p : Pwr) : Bool := match w with | .vcore => p.vcoreOk | .vaux => p.vauxOk

section

variable {w : CoreSupply} {k : Fin 8} {now : Nat} {d : Device}

theorem supplyHigh_unmonitored (bad : d.pwr.coreOk w = false) : supplyHigh w now d = { d with pwr := d.pwr.leaves w } := by
  cases w with
  | vcore =>
    have bad : d.pwr.vcoreOk = false := bad
    simp [supplyHigh, Device.pwrUpd, bad, Pwr.leaves]
  | vaux =>
    have bad : d.pwr.vauxOk = false := bad
    simp [supplyHigh, Device.pwrUpd, bad, Pwr.leaves]

/-- R434, R442: a monitored core supply that leaves its window halts the device; the record is all that comes before. -/
theorem supplyHigh_halts (good : d.pwr.coreOk w = true) : ∃ e : Device, supplyHigh w now d = haltAll 2 4 now e ∧
    e.pwr = d.pwr.fails w ∧ e.chn = d.chn := by
  cases w with
  | vcore =>
    have good : d.pwr.vcoreOk = true := good
    refine ⟨raisePwr 0x0C 0x05 0 now { d with pwr := d.pwr.fails .vcore }, ?_, rfl, rfl⟩
    simp [supplyHigh, Device.pwrUpd, good, Pwr.fails, Pwr.leaves]
  | vaux =>
    have good : d.pwr.vauxOk = true := good
    refine ⟨raisePwr 0x0C 0x05 1 now { d with pwr := d.pwr.fails .vaux }, ?_, rfl, rfl⟩
    simp [supplyHigh, Device.pwrUpd, good, Pwr.fails, Pwr.leaves]

/-- R26, R442: what a halt makes of an enabled channel: it enters its safe state, or was in it. -/
theorem safe_of_haltAll {step b : Nat} {c : Chan} (en : (d.chn.at c).cfg.en = true) :
    (((haltAll step b now d).chn.at c).stat.safe = true ∧ ((haltAll step b now d).chn.at c).cfg.en = true ∧
      ((haltAll step b now d).chn.at c).comm = []) ∨ (d.chn.at c).stat.safe = true := by
  have safe := haltAll_safe (step := step) (b := b) (now := now) en
  rcases haltAll_keeps (step := step) (b := b) (now := now) (d := d) c with same | ⟨_, _, on, _, gone⟩
  · exact .inr (front_stat same ▸ safe)
  · exact .inl ⟨safe, on, gone⟩

theorem vioLost_unmonitored (bad : d.pwr.vioOk.getLsbD k.val = false) : vioLost k now d =
    { d with pwr := { d.pwr with vioIn := setFld d.pwr.vioIn k.val k.val 0 } } := by
  simp only [vioLost, Device.pwrUpd, bad, Bool.false_eq_true, if_false]

theorem bankInUse_chn {d e : Device} (same : e.chn = d.chn) : bankInUse k e = bankInUse k d := by
  simp only [bankInUse, same]

theorem vioLost_unused (good : d.pwr.vioOk.getLsbD k.val = true) (idle : bankInUse k d = false) : vioLost k now d =
    { d with pwr := { d.pwr with
      vioIn := setFld d.pwr.vioIn k.val k.val 0, vioOk := setFld d.pwr.vioOk k.val k.val 0 } } := by
  have idle (p : Pwr) : bankInUse k { d with pwr := p } = false := (bankInUse_chn rfl).trans idle
  simp only [vioLost, Device.pwrUpd, good, idle, Bool.false_eq_true, if_false, if_true]

/-- R434, R442: an I/O supply in use that is lost halts the channels on its bank. -/
theorem vioLost_halts (good : d.pwr.vioOk.getLsbD k.val = true) (used : bankInUse k d = true) : ∃ e : Device,
    vioLost k now d = setHFault 2 5 0 now (haltChannels (e.enabled.filter (fun c => pinBank c == some k)) e) ∧
    e.chn = d.chn ∧ e.pwr = { d.pwr with
      vioIn := setFld d.pwr.vioIn k.val k.val 0, vioOk := setFld d.pwr.vioOk k.val k.val 0
      ioLost := setFld d.pwr.ioLost k.val k.val 1 } := by
  have used (p : Pwr) : bankInUse k { d with pwr := p } = true := (bankInUse_chn rfl).trans used
  refine ⟨(raisePwr 0x0C 0x05 (2 + k.val) now { d with pwr := { d.pwr with
    vioIn := setFld d.pwr.vioIn k.val k.val 0, vioOk := setFld d.pwr.vioOk k.val k.val 0 } }).pwrUpd
    (fun p => { p with ioLost := setFld p.ioLost k.val k.val 1 }), ?_, rfl, rfl⟩
  simp only [vioLost, Device.pwrUpd, good, used, if_true]

theorem monitors_iff (p : Pwr) : p.monitors = true ↔ p.phase ≠ .pll ∧ p.phase ≠ .fuse := by
  simp [Pwr.monitors]

end

/-! ## Domains (R432) -/

section

variable {v : BitVec 3} {d : Device}

theorem domainInUse_pwr (x : PowerDomain) (d : Device) (p : Pwr) : domainInUse x { d with pwr := p } = domainInUse x d := by
  cases x <;> rfl

/-- R432: a request that turns no domain off that is in use is taken. -/
def domainFree (v : BitVec 3) (d : Device) (x : PowerDomain) : Prop :=
  v.getLsbD (domBit x) = true ∨ d.pwr.dctl.getLsbD (domBit x) = false ∨ domainInUse x d = false

theorem domainAsk_taken {x : PowerDomain} (free : domainFree v d x) : domainAsk v d x =
    { d with pwr := { d.pwr with dctl := setFld d.pwr.dctl (domBit x) (domBit x) (v.getLsbD (domBit x)).toNat } } := by
  unfold domainAsk
  dsimp only
  rw [if_neg]
  · rfl
  · rcases free with on | off | idle
    · simp [on]
    · simp [off]
    · simp [idle]

theorem domainAsk_refused {x : PowerDomain} (off : v.getLsbD (domBit x) = false)
    (on : d.pwr.dctl.getLsbD (domBit x) = true) (used : domainInUse x d = true) :
    domainAsk v d x = d.pwrUpd (fun p => { p with dref := true }) := by
  simp [domainAsk, off, on, used]

theorem domBit_lt (x : PowerDomain) : domBit x < 3 := by cases x <;> decide

theorem domBit_ne {x y : PowerDomain} (h : y ≠ x) : domBit x ≠ domBit y := by
  intro same
  cases x <;> cases y <;> simp_all [domBit]

/-- An answered request for one domain leaves the free requests of the others free. -/
theorem domainFree_after {x y : PowerDomain} (h : y ≠ x) (b : Nat) (free : domainFree v d y) :
    domainFree v { d with pwr := { d.pwr with dctl := setFld d.pwr.dctl (domBit x) (domBit x) b } } y := by
  have apart : domBit y < domBit x ∨ domBit x < domBit y := by
    have := domBit_ne h
    omega
  unfold domainFree
  rw [domainInUse_pwr]
  dsimp only
  rw [getLsbD_setFld_apart _ _ apart]
  exact free

theorem dctl_written (w v : BitVec 3) : setFld (setFld (setFld w 0 0 (v.getLsbD 0).toNat) 1 1 (v.getLsbD 1).toNat) 2 2
    (v.getLsbD 2).toNat = v := by
  have bit (b : Bool) : b.toNat.testBit 0 = b := by cases b <;> rfl
  apply BitVec.eq_of_getLsbD_eq
  intro i hi
  match i with
  | 0 =>
    rw [getLsbD_setFld_apart _ _ (by decide), getLsbD_setFld_apart _ _ (by decide), getLsbD_setFld_bit _ _ (by decide), bit]
  | 1 => rw [getLsbD_setFld_apart _ _ (by decide), getLsbD_setFld_bit _ _ (by decide), bit]
  | 2 => rw [getLsbD_setFld_bit _ _ (by decide), bit]

theorem domainRequest_taken (free : ∀ y, domainFree v d y) :
    domainRequest v d = { d with pwr := { d.pwr with dctl := v } } := by
  unfold domainRequest
  rw [List.foldl_cons, domainAsk_taken (free .alm), List.foldl_cons,
    domainAsk_taken (domainFree_after (by decide) _ (free .link)), List.foldl_cons,
    domainAsk_taken (domainFree_after (by decide) _ (domainFree_after (by decide) _ (free .ana))), List.foldl_nil]
  exact congrArg (fun w => { d with pwr := { d.pwr with dctl := w } }) (dctl_written d.pwr.dctl v)

/-- R432: domain `x` is requested and in use: a request without it is refused. -/
def domainStands (x : PowerDomain) (d : Device) : Prop :=
  d.pwr.dctl.getLsbD (domBit x) = true ∧ domainInUse x d = true

theorem domainAsk_stands {x : PowerDomain} (off : v.getLsbD (domBit x) = false) (y : PowerDomain)
    (stands : domainStands x d) : domainStands x (domainAsk v d y) := by
  obtain ⟨on, used⟩ := stands
  by_cases same : y = x
  · subst same
    rw [domainAsk_refused off on used]
    exact ⟨on, (domainInUse_pwr y d _).trans used⟩
  · unfold domainAsk
    dsimp only
    have apart : domBit x < domBit y ∨ domBit y < domBit x := by
      have := domBit_ne same
      omega
    split
    · exact ⟨on, (domainInUse_pwr x d _).trans used⟩
    · refine ⟨?_, (domainInUse_pwr x d _).trans used⟩
      exact (getLsbD_setFld_apart _ _ apart).trans on

theorem domainAsk_dref (y : PowerDomain) (refused : d.pwr.dref = true) : (domainAsk v d y).pwr.dref = true := by
  unfold domainAsk
  dsimp only
  split
  · rfl
  · exact refused

theorem domainAsk_evc (y : PowerDomain) : (domainAsk v d y).evc = d.evc := by
  unfold domainAsk
  dsimp only
  split <;> rfl

theorem domainAsk_refuses {x : PowerDomain} (off : v.getLsbD (domBit x) = false) (stands : domainStands x d) :
    (domainAsk v d x).pwr.dref = true := by
  obtain ⟨on, used⟩ := stands
  rw [domainAsk_refused off on used]
  rfl

theorem domainRequest_dref {x : PowerDomain} (off : v.getLsbD (domBit x) = false) (stands : domainStands x d) :
    (domainRequest v d).pwr.dref = true := by
  unfold domainRequest
  rw [List.foldl_cons, List.foldl_cons, List.foldl_cons, List.foldl_nil]
  cases x with
  | alm => exact domainAsk_dref _ (domainAsk_dref _ (domainAsk_refuses off stands))
  | link => exact domainAsk_dref _ (domainAsk_refuses off (domainAsk_stands off _ stands))
  | ana => exact domainAsk_refuses off (domainAsk_stands off _ (domainAsk_stands off _ stands))

theorem domainRequest_stands {x : PowerDomain} (off : v.getLsbD (domBit x) = false) (stands : domainStands x d) :
    domainStands x (domainRequest v d) :=
  foldl_keeps (domainStands x) _ (fun _ y => domainAsk_stands off y) _ d stands

theorem domainRequest_evc (v : BitVec 3) (d : Device) : (domainRequest v d).evc = d.evc :=
  foldl_same Device.evc _ (fun _ y => domainAsk_evc y) _ d

end

/-! ### Links and lookouts as their domain changes -/

theorem raiseLink_causes_pwr (l : LinkNo) (kind cause arg now : Nat) (d : Device) :
    causes 241 (raiseLink l kind cause arg now d) = causes 241 d := by
  refine causes_raise_ne ?_ _ _ _ _ _ _
  intro same
  have := congrArg Fin.val same
  have : 241 = 128 + l.val := by
    rw [Fin.val_ofNat, Fin.val_ofNat] at this
    omega
  omega

theorem linkGo_causes_pwr (l : LinkNo) (st : LinkSt) (now : Nat) (d : Device) :
    causes 241 (linkGo l st now d) = causes 241 d := by
  obtain ⟨x, w, gone⟩ := linkGo_changes l st now d
  rw [gone, raiseLink_causes_pwr]
  rfl

/-- The blocks of the power controller: its own, and the records of its source. -/
def Device.power (d : Device) : Pwr × BitVec 16 := (d.pwr, causes 241 d)

theorem linkGo_power (l : LinkNo) (st : LinkSt) (now : Nat) (d : Device) : (linkGo l st now d).power = d.power := by
  rw [Device.power, linkGo_pwr, linkGo_causes_pwr]
  rfl

theorem linkTrain_power (l : LinkNo) (now : Nat) (d : Device) : (linkTrain l now d).power = d.power := by
  refine (?_ : (linkTrain l now d).power = (linkGo l .train now (d.glkUpd l (fun x =>
    { x with lep := x.lep + 1, quiet := none }))).power).trans (linkGo_power l .train now _)
  rfl

theorem linksStart_power (now : Nat) (d : Device) : (linksStart now d).power = d.power := by
  refine forAll_same Device.power _ (fun l e => ?_) d
  split
  · exact linkTrain_power l now e
  · rfl

theorem linksSilent_power (now : Nat) (d : Device) : (linksSilent now d).power = d.power := by
  refine forAll_same Device.power _ (fun l e => ?_) d
  dsimp only
  split
  · rfl
  · exact linkGo_power l .off now e

/-- R279, R432: with its domain off every link is OFF. -/
theorem linksSilent_off (now : Nat) (d : Device) (l : LinkNo) : ((linksSilent now d).glk.at l).st = .off := by
  refine forAll_each (fun l (d : Device) => (d.glk.at l).st = .off) _ ?own ?others l d
  case own =>
    intro l d
    dsimp only
    rw [Device.glwUpd_glk]
    split
    case isTrue off => exact beq_iff_eq.mp off
    case isFalse _ => rw [linkGo_glk, Tab.at_upd_same]
  case others =>
    intro l m d other off
    dsimp only
    rw [Device.glwUpd_glk]
    split
    · exact off
    · rw [linkGo_glk, Tab.at_upd_ne _ _ other.symm]
      exact off

end Machine

end Sys2Proof

namespace Sys2Proof

namespace Machine

section

variable {x : PowerDomain} {now : Nat} {c : Core}

/-- R432: a domain record and the new state of the domain leave the rest of the power block. -/
theorem raiseDomain_power (x : PowerDomain) (st : DomSt) (now : Nat) (d : Device) :
    (raiseDomain x st now (d.pwrUpd (fun p => p.setDom x st))).power = (d.pwr.setDom x st, causes 241 d + 1) := by
  rw [Device.power, raiseDomain, raisePwr, raise_pwr, causes_raise (by decide)]
  rfl

theorem domainChange_powers (asked : c.dev.pwr.dctl.getLsbD (domBit x) = true) (off : c.dev.pwr.dom x = .off) :
    domainChange x now c = c.mapDev (fun d => raiseDomain x .powering now (d.pwrUpd (fun p => p.setDom x .powering))) := by
  simp only [domainChange, asked, off, if_true]

theorem domainChange_goes_off (free : c.dev.pwr.dctl.getLsbD (domBit x) = false) (on : c.dev.pwr.dom x ≠ .off) :
    domainChange x now c = c.mapDev (fun d =>
      let d := raiseDomain x .off now (d.pwrUpd (fun p => p.setDom x .off))
      if x = .link then linksSilent now d else d) := by
  simp only [domainChange, free, Bool.false_eq_true, if_false, on]

theorem domainChange_done (same : c.dev.pwr.dctl.getLsbD (domBit x) = true ↔ c.dev.pwr.dom x ≠ .off) :
    domainChange x now c = c := by
  unfold domainChange
  dsimp only
  by_cases off : c.dev.pwr.dom x = .off
  · rw [if_neg (fun on => same.mp on off), if_pos off]
  · rw [if_pos (same.mpr off), if_neg off]

theorem domainOn_idle (idle : c.dev.pwr.dom x ≠ .powering) : domainOn x now c = c := if_neg idle

/-- R315, R432, R476: what a domain brings as it reaches ON. -/
def domainBrings (x : PowerDomain) (now : Nat) (c : Core) : Core :=
  match x with
  | .alm => c.mapRam Ram.loseAlm
  | .link => { ram := { c.ram with lbuf := [] }, dev := linksStart now c.dev }
  | .ana => c.mapDev lookoutsTripped

theorem domainOn_reaches (powering : c.dev.pwr.dom x = .powering) : domainOn x now c =
    domainBrings x now (c.mapDev (fun d => raiseDomain x .on now (d.pwrUpd (fun p => p.setDom x .on)))) := by
  unfold domainOn
  rw [if_pos powering]
  rfl

theorem domainBrings_power (c : Core) : (domainBrings x now c).dev.power = c.dev.power := by
  cases x with
  | link =>
    dsimp only [domainBrings]
    exact linksStart_power now c.dev
  | alm => dsimp only [domainBrings, Core.mapRam]
  | ana => dsimp only [domainBrings, Core.mapDev, lookoutsTripped, Device.power, causes]

theorem domainBrings_bank (c : Core) : (domainBrings x now c).ram.bank = c.ram.bank := by cases x <;> rfl

end

/-! ## Clearing HFAULT (R442) -/

/-- R442: what clearing fault bits may change of a device. -/
def Device.clearedTo (d e : Device) : Prop :=
  ∃ h l i, e = { d with pwr := { d.pwr with hfault := h, lkoSet := l, ioLost := i } }

section

variable {m : BitVec 6} {d e : Device}

theorem hfaultClear1_clearedTo (b : Nat) (cleared : d.clearedTo e) : d.clearedTo (hfaultClear1 m e b) := by
  obtain ⟨h, l, i, rfl⟩ := cleared
  unfold hfaultClear1
  split
  · exact ⟨_, _, _, rfl⟩
  · exact ⟨_, _, _, rfl⟩

theorem hfaultClear1_others {a b : Nat} (other : b ≠ a) :
    bitOf (hfaultClear1 m e a).pwr.hfault b = bitOf e.pwr.hfault b := by
  unfold hfaultClear1
  split
  · exact getLsbD_setFld_apart _ _ (by omega)
  · rfl

theorem hfaultClear1_clears {b : Nat} (hb : b < 6) (named : bitOf m b = true) (may : hfaultMayClear b e = true) :
    bitOf (hfaultClear1 m e b).pwr.hfault b = false := by
  have named : m.getLsbD b = true := named
  unfold hfaultClear1
  rw [named, may, Bool.true_and, Bool.and_true]
  split
  · exact (getLsbD_setFld_bit _ _ hb).trans (by decide)
  · rename_i clear
    exact Bool.eq_false_of_not_eq_true clear

/-- R442: a bit that is not named, or whose condition stands, stays. -/
theorem hfaultClear1_stays {b : Nat} (kept : bitOf m b = false ∨ hfaultMayClear b e = false) : hfaultClear1 m e b = e := by
  refine if_neg ?_
  rcases kept with free | stands
  · have free : m.getLsbD b = false := free
    simp [free]
  · simp [stands]

theorem hfaultClear_clearedTo (m : BitVec 6) (d : Device) : d.clearedTo (hfaultClear m d) :=
  foldl_keeps d.clearedTo _ (fun _ b => hfaultClear1_clearedTo b) _ d ⟨_, _, _, rfl⟩

/-- R442: a named bit whose condition has gone is cleared. -/
theorem hfaultClear_clears {b : Nat} (hb : b < 6) (named : bitOf m b = true)
    (may : ∀ e, d.clearedTo e → hfaultMayClear b e = true) : bitOf (hfaultClear m d).pwr.hfault b = false := by
  obtain ⟨before, after, split⟩ := List.append_of_mem (show b ∈ nats 6 by rw [nats_eq]; exact List.mem_range.mpr hb)
  rw [hfaultClear, split, List.foldl_append, List.foldl_cons]
  have reached : d.clearedTo (before.foldl (hfaultClear1 m) d) :=
    foldl_keeps d.clearedTo _ (fun _ a => hfaultClear1_clearedTo a) before d ⟨_, _, _, rfl⟩
  refine foldl_keeps (fun e : Device => bitOf e.pwr.hfault b = false) _ (fun e a clear => ?_) after _
    (hfaultClear1_clears hb named (may _ reached))
  by_cases same : b = a
  · subst same
    unfold hfaultClear1
    split
    · exact (getLsbD_setFld_bit _ _ hb).trans (by decide)
    · exact clear
  · rw [hfaultClear1_others same]
    exact clear

theorem hfaultClear_stays {b : Nat} (kept : ∀ e, d.clearedTo e → bitOf m b = false ∨ hfaultMayClear b e = false) :
    bitOf (hfaultClear m d).pwr.hfault b = bitOf d.pwr.hfault b := by
  have all : d.clearedTo (hfaultClear m d) ∧ bitOf (hfaultClear m d).pwr.hfault b = bitOf d.pwr.hfault b := by
    refine foldl_keeps (fun e => d.clearedTo e ∧ bitOf e.pwr.hfault b = bitOf d.pwr.hfault b) _ ?_ _ d ⟨⟨_, _, _, rfl⟩, rfl⟩
    rintro e a ⟨cleared, same⟩
    refine ⟨hfaultClear1_clearedTo a cleared, ?_⟩
    by_cases own : b = a
    · subst own
      rw [hfaultClear1_stays (kept e cleared)]
      exact same
    · rw [hfaultClear1_others own]
      exact same
  exact all.2

end

/-- Settles O59: losses, returns, domains and the clearing of faults, a command at a time. -/
theorem suppliesAndDomains : Obligations.SuppliesAndDomains := by
  unfold Obligations.SuppliesAndDomains
  intro s w k x v m d ok halted out lost monitored
  refine ⟨fun bad => changes_of_runDev _ (exec_supply w s) (supplyHigh_unmonitored bad), ?core_halts,
    fun bad => changes_of_runDev _ (exec_ioloss k s) (vioLost_unmonitored bad),
    fun good idle => changes_of_runDev _ (exec_ioloss k s) (vioLost_unused good idle), ?vio_halts,
    changes_of_runDev _ (exec_supplyRestored .vkeel s) rfl,
    brings_of_runDev _ (exec_supplyRestored (.vio k) s) ?vio_returns,
    brings_of_runDev _ (exec_supplyRestored (.core w) s) ?core_returns,
    fun free => changes_of_runDev _ (exec_domainRequest v s) (domainRequest_taken free), ?refused, ?powers, ?goes_off,
    fun idle => idles_of_run _ (exec_domainPowerComplete x s) (domainOn_idle idle), ?reaches,
    brings_of_runDev _ (exec_hfaultClear m s) ?clears⟩
  case core_halts =>
    intro good
    obtain ⟨e, halts, pwr, chn⟩ := supplyHigh_halts (w := w) (now := s.mt) good
    refine brings_of_runDev _ (exec_supply w s) ?_
    rw [halts]
    have power := haltAll_pwr (step := 2) (b := 4) (now := s.mt) (d := e) (by decide)
    refine ⟨⟨?_, ?_, ?_⟩, ?_, ?_, ?_, ?_, fun c en => ?_, fun c off => ?_⟩
    · rw [power]
      exact Pwr.faulted_hfault _ (by decide)
    · rw [power]
      rfl
    · rw [power]
      rfl
    · rw [power, pwr]
      rfl
    · rw [power, pwr]
      rfl
    · rintro rfl
      rw [power, pwr]
      exact Bool.and_false _
    · rintro rfl
      rw [power, pwr]
      exact Bool.and_false _
    · have safe := safe_of_haltAll (step := 2) (b := 4) (now := s.mt) (d := e) (c := c) (by rw [chn]; exact en)
      rw [chn] at safe
      exact safe
    · have keeps := haltAll_keeps (step := 2) (b := 4) (now := s.mt) (d := e) c
      rw [chn] at keeps
      exact Channel.safeFrom_disabled off keeps
  case vio_halts =>
    intro good used
    obtain ⟨e, halts, chn, pwr⟩ := vioLost_halts (now := s.mt) good used
    refine brings_of_runDev _ (exec_ioloss k s) ?_
    rw [halts]
    have power := setHFault_pwr 2 (b := 5) (by decide) 0 s.mt (haltChannels (e.enabled.filter (fun c => pinBank c == some k)) e)
    rw [haltChannels_pwr, pwr] at power
    refine ⟨⟨?_, ?_, ?_⟩, ?_, ?_, ?_, fun c en on => ?_⟩
    · rw [power]
      exact Pwr.faulted_hfault _ (by decide)
    · rw [power]
      rfl
    · rw [power]
      rfl
    · rw [power]
      rfl
    · rw [power]
      exact (getLsbD_setFld_bit _ _ k.isLt).trans (by decide)
    · rw [power]
      exact (getLsbD_setFld_bit _ _ k.isLt).trans (by decide)
    · rw [setHFault_chn]
      rw [← show e.chn = d.chn from chn] at en
      exact haltChannels_safe (List.mem_filter.mpr ⟨mem_enabled en, by simp [on]⟩) en
  case vio_returns =>
    refine ⟨rfl, fun shown => ?_, fun hidden => ?_⟩
    · exact if_pos ((monitors_iff _).mpr shown)
    · exact if_neg (fun shows => hidden ((monitors_iff _).mp shows))
  case core_returns =>
    have shown (yes : monitored) : d.pwr.monitors = true := (monitors_iff _).mpr yes
    have hidden (no : ¬monitored) : d.pwr.monitors = false :=
      Bool.eq_false_of_not_eq_true fun shows => no ((monitors_iff _).mp shows)
    cases w with
    | vcore =>
      refine ⟨?_, fun i hi => ?_, fun yes => ?_, fun no => ?_⟩
      · simp [supplyBack, holdReset, Device.pwrUpd, d]
      · rw [supplyBack, holdReset_hold (by decide)]
        by_cases own : i = 2
        · simp [own]
        · simp [own, Device.pwrUpd, d]
      · simp [supplyBack, holdReset, Device.pwrUpd, shown yes, d]
      · simp [supplyBack, holdReset, Device.pwrUpd, hidden no, d]
    | vaux =>
      refine ⟨?_, fun i hi => ?_, fun yes => ?_, fun no => ?_⟩
      · simp [supplyBack, holdReset, Device.pwrUpd, d]
      · rw [supplyBack, holdReset_hold (by decide)]
        by_cases own : i = 3
        · simp [own]
        · simp [own, Device.pwrUpd, d]
      · simp [supplyBack, holdReset, Device.pwrUpd, shown yes, d]
      · simp [supplyBack, holdReset, Device.pwrUpd, hidden no, d]
  case refused =>
    intro off on used
    refine brings_of_runDev _ (exec_domainRequest v s) ⟨domainRequest_dref off ⟨on, used⟩, ?_, domainRequest_evc v d⟩
    obtain ⟨stays, _⟩ := domainRequest_stands (v := v) off ⟨on, used⟩
    exact stays
  case powers =>
    refine fun asked => ⟨fun off => brings_of_run _ (exec_domainStateChange x s) _ (domainChange_powers asked off) ?_,
      fun on => idles_of_run _ (exec_domainStateChange x s) (domainChange_done ⟨fun _ => on, fun _ => asked⟩)⟩
    exact Prod.mk.inj (raiseDomain_power x .powering s.mt d)
  case goes_off =>
    refine fun free => ⟨fun off => idles_of_run _ (exec_domainStateChange x s)
        (domainChange_done ⟨fun asked => absurd asked (Bool.eq_false_iff.mp free), fun on => absurd off on⟩),
      fun on => brings_of_run _ (exec_domainStateChange x s) _ (domainChange_goes_off free on) ?_⟩
    dsimp only
    by_cases link : x = .link
    · rw [if_pos link]
      obtain ⟨pwr, counted⟩ := Prod.mk.inj ((linksSilent_power s.mt _).trans (raiseDomain_power x .off s.mt d))
      exact ⟨pwr, counted, fun _ => linksSilent_off s.mt _⟩
    · rw [if_neg link]
      obtain ⟨pwr, counted⟩ := Prod.mk.inj (raiseDomain_power x .off s.mt d)
      exact ⟨pwr, counted, fun yes => absurd yes link⟩
  case reaches =>
    intro powering
    refine bringsAll_of_run _ (exec_domainPowerComplete x s) ?_
    rw [domainOn_reaches powering]
    have power := domainBrings_power (x := x) (now := s.mt)
      (s.core.mapDev (fun d => raiseDomain x .on s.mt (d.pwrUpd (fun p => p.setDom x .on))))
    obtain ⟨pwr, counted⟩ := Prod.mk.inj (power.trans (raiseDomain_power x .on s.mt d))
    refine ⟨pwr, counted, domainBrings_bank _, ?_, ?_, ?_⟩
    · rintro rfl n a
      exact Memory.readN_nil (fun _ => rfl) n a
    · rintro rfl
      rfl
    · rintro rfl
      exact ⟨rfl, fun n => by simp [domainBrings, Core.mapDev, lookoutsTripped]⟩
  case clears =>
    obtain ⟨_, _, _, changed⟩ := hfaultClear_clearedTo m d
    refine ⟨fun named => hfaultClear_clears (by decide) named fun _ _ => rfl,
      fun named ref lock => hfaultClear_clears (by decide) named ?_,
      fun named core aux => hfaultClear_clears (by decide) named ?_, fun low => hfaultClear_stays ?_,
      fun b hb free => hfaultClear_stays fun _ _ => .inl free, ?_, ?_, ?_⟩
    · rintro _ ⟨_, _, _, rfl⟩
      exact Bool.and_eq_true_iff.mpr ⟨ref, lock⟩
    · rintro _ ⟨_, _, _, rfl⟩
      exact Bool.and_eq_true_iff.mpr ⟨core, aux⟩
    · rintro _ ⟨_, _, _, rfl⟩
      exact .inr (Bool.and_eq_false_imp.mpr fun high => absurd high (by rw [show s.core.dev.pwr.vcoreOk = false from low]; decide))
    · rw [changed]
    · rw [changed]
    · rw [changed]

end Machine

end Sys2Proof

namespace Sys2Proof

namespace Machine

/-! ## Reading what port B wrote

`storeB` writes the bytes that no master of a later class writes in the same base period. Where there is none, they read
back, byte by byte and in parts. -/

theorem bankRead_one (r : Ram) (a : Nat) : r.bankRead 1 a = (Memory.read (Ram.bankDflt r.bankGen) r.bank a).toNat := by
  simp [Ram.bankRead, Memory.readN]

/-- Bytes that spell `v` read as its low `n` bytes. -/
theorem bankRead_of_bytes {r : Ram} {n a v : Nat} (spelt : ∀ i, i < n → r.bankRead 1 (a + i) = v / 256 ^ i % 256) :
    r.bankRead n a = v % 256 ^ n := by
  refine Memory.readN_of_bytes n a v fun i hi => BitVec.eq_of_toNat_eq ?_
  have byte := spelt i hi
  rw [bankRead_one] at byte
  rw [byte, BitVec.toNat_ofNat]

/-- Bytes `i` to `i + k` of a value that stands at `a`. -/
theorem bankRead_part {r : Ram} {n a v : Nat} (spelt : ∀ j, j < n → r.bankRead 1 (a + j) = v / 256 ^ j % 256) {i k : Nat}
    (inside : i + k ≤ n) : r.bankRead k (a + i) = v / 256 ^ i % 256 ^ k := by
  refine bankRead_of_bytes fun j hj => ?_
  rw [Nat.add_assoc, spelt (i + j) (by omega), Nat.div_div_eq_div_mul, ← Nat.pow_add]

section

variable {cls n a v now : Nat} {c : Core}

/-- R360: a write through port B reads back where no later class writes in the same base period. -/
theorem bankRead_storeB (wf : c.ram.wf) (last : ∀ b, c.dev.mem.laterB cls b = false) (inside : a + n ≤ bankSize) (b : Nat) :
    (storeB cls n a v now c).ram.bankRead 1 b = if a ≤ b ∧ b < a + n then v / 256 ^ (b - a) % 256 else c.ram.bankRead 1 b :=
  bankRead_writeBytes last b n a v wf inside

/-- The bytes that are written spell the value. -/
theorem bankRead_storeB_spelt (wf : c.ram.wf) (last : ∀ b, c.dev.mem.laterB cls b = false) (inside : a + n ≤ bankSize) :
    ∀ j, j < n → (storeB cls n a v now c).ram.bankRead 1 (a + j) = v / 256 ^ j % 256 := by
  intro j hj
  rw [bankRead_storeB wf last inside, if_pos (by omega), Nat.add_sub_cancel_left]

/-- R360: with no write noted, none is of a later class. -/
theorem laterB_none {m : MemBlk} (free : m.bytesB = []) (cls b : Nat) : m.laterB cls b = false := by
  rw [MemBlk.laterB, free]
  rfl

theorem notePort_bytesB (isA wr : Bool) (w now : Nat) (d : Device) : (notePort isA wr w now d).mem.bytesB = d.mem.bytesB := by
  have turn (p b : Bool) (e : Device) : (if p then meet b w now e else e).mem.bytesB = e.mem.bytesB := by
    cases p with
    | false => rfl
    | true => cases b <;> rfl
  unfold notePort
  dsimp only
  rw [turn, turn]
  cases isA <;> rfl

/-- R362: a meeting is recorded: nothing else of the event controller moves. -/
theorem notePort_evc (isA wr : Bool) (w now : Nat) (d : Device) :
    ∃ x y, (notePort isA wr w now d).evc = { d.evc with drops := x, src := y } := by
  have turn (p b : Bool) (e : Device) (h : ∃ x y, e.evc = { d.evc with drops := x, src := y }) :
      ∃ x y, (if p then meet b w now e else e).evc = { d.evc with drops := x, src := y } := by
    obtain ⟨x, y, same⟩ := h
    cases p with
    | false => exact ⟨x, y, same⟩
    | true =>
      cases b with
      | false => exact ⟨x, y, same⟩
      | true => exact ⟨_, _, by rw [if_pos rfl, meet, if_pos rfl, raise, raiseAt]; dsimp only; rw [same]⟩
  unfold notePort
  dsimp only
  refine turn _ _ _ (turn _ _ _ ?_)
  cases isA <;> exact ⟨_, _, rfl⟩

/-- The bytes of a write are noted with its class: no later class joins them. -/
theorem laterB_storeB (last : ∀ b, c.dev.mem.laterB cls b = false) (b : Nat) :
    (storeB cls n a v now c).dev.mem.laterB cls b = false := by
  have own : ((nats n).map (fun i => (a + i, cls))).any (fun x => x.1 == b && decide (cls < x.2)) = false := by
    rw [List.any_map]
    exact List.any_eq_false.mpr fun i _ => by simp
  have before := last b
  rw [MemBlk.laterB] at before
  rw [storeB, MemBlk.laterB]
  dsimp only
  rw [List.any_append, own, notePort_bytesB, before]
  rfl

theorem storeB_evc (cls n a v now : Nat) (c : Core) :
    ∃ x y, (storeB cls n a v now c).dev.evc = { c.dev.evc with drops := x, src := y } :=
  notePort_evc false true (wordOf a) now c.dev

end

end Machine

end Sys2Proof

namespace Sys2Proof

namespace Machine

theorem exec_ringEnable (size : BitVec 4) (lay : Bool) (s : State) : exec (.ringEnable size lay) s =
    s.runDev (fun _ => writeRcfg (w32 (size.toNat + 16 * lay.toNat + 32))) := rfl
theorem exec_ringDisable (s : State) :
    exec .ringDisable s = s.runDev (fun _ d => if d.evc.en then ringDisable d else d) := rfl
theorem exec_recordReservation (s : State) : exec .recordReservation s = s.runDev reserveEarly := rfl
theorem exec_recordWrite (s : State) : exec .recordWrite s = s.run recordWrite := rfl

/-! ## Enable (R391, R392) -/

section

variable {size : BitVec 4} {lay : Bool} {d : Device}

/-- R397: the word that the command writes spells SIZE, LAYOUT and EN. -/
theorem rcfg_fields (size : BitVec 4) (lay : Bool) :
    BitVec.ofNat 4 (fld (w32 (size.toNat + 16 * lay.toNat + 32)) 3 0) = size ∧
    bitOf (w32 (size.toNat + 16 * lay.toNat + 32)) 4 = lay ∧ bitOf (w32 (size.toNat + 16 * lay.toNat + 32)) 5 = true := by
  revert size lay
  decide

theorem writeRcfg_running (on : d.evc.en = true) (other : size ≠ d.evc.size ∨ lay ≠ d.evc.layout) :
    writeRcfg (w32 (size.toNat + 16 * lay.toNat + 32)) d = { d with evc := { d.evc with cfgref := true } } := by
  obtain ⟨isSize, isLay, isOn⟩ := rcfg_fields size lay
  have differs : (size != d.evc.size || lay != d.evc.layout) = true := by simpa using other
  unfold writeRcfg
  simp only [isSize, isLay, isOn, on, differs, if_true]

/-- R392: SIZE and LAYOUT are written. -/
def ringShaped (size : BitVec 4) (lay : Bool) (d : Device) : Device :=
  { d with evc := { d.evc with size := size, layout := lay } }

theorem writeRcfg_stopped (off : d.evc.en = false) :
    writeRcfg (w32 (size.toNat + 16 * lay.toNat + 32)) d = ringEnable (ringShaped size lay d) := by
  obtain ⟨isSize, isLay, isOn⟩ := rcfg_fields size lay
  unfold writeRcfg
  dsimp only
  rw [isSize, isLay, isOn, off, if_neg Bool.false_ne_true, if_pos rfl]
  rw [← off]
  rfl

/-- R391: the bytes of a slot. -/
def slotBytes (lay : Bool) : Nat := if lay then 128 else 16

theorem ringOk_of {d : Device} (low : 6 ≤ d.evc.size.toNat) (high : d.evc.size.toNat ≤ 12)
    (aligned : (if d.evc.layout then d.evc.rbase.toNat % 16 else d.evc.rbase.toNat % (16 * 2 ^ d.evc.size.toNat)) = 0)
    (inside : d.evc.rbase.toNat + slotBytes d.evc.layout * 2 ^ d.evc.size.toNat ≤ 0x200000)
    (on : ∀ k : BankNo, (d.mem.bank.at k).st = .on) : ringOk d = true := by
  unfold ringOk
  cases lay : d.evc.layout with
  | true => simp_all [slotBytes, Evc.slots]
  | false => simp_all [slotBytes, Evc.slots]

theorem ringOk_refused {d : Device} (bad : d.evc.size.toNat < 6 ∨ 12 < d.evc.size.toNat ∨
    0x200000 < d.evc.rbase.toNat + slotBytes d.evc.layout * 2 ^ d.evc.size.toNat) : ringOk d = false := by
  unfold ringOk
  rw [Bool.and_eq_false_iff, Bool.and_eq_false_iff]
  refine .inl ?_
  by_cases range : 6 ≤ d.evc.size.toNat ∧ d.evc.size.toNat ≤ 12
  · have beyond : 0x200000 < d.evc.rbase.toNat + slotBytes d.evc.layout * 2 ^ d.evc.size.toNat := by omega
    refine .inr ?_
    cases lay : d.evc.layout with
    | true =>
      rw [lay] at beyond
      exact Bool.and_eq_false_imp.mpr fun _ => decide_eq_false (Nat.not_le.mpr beyond)
    | false =>
      rw [lay] at beyond
      exact Bool.and_eq_false_imp.mpr fun _ => decide_eq_false (Nat.not_le.mpr beyond)
  · exact .inl (decide_eq_false range)

end

/-! ## Reservation (R388, R393) -/

section

variable {src : SourceNo} {c : Cause} {l : List Cause} {now : Nat} {d : Device}

/-- R385, R393: the controller once its levels are sampled, FULL being given up by a ring that is not. -/
def sampled (d : Device) : Device := sampleLevels { d with evc := d.evc.unfull }

theorem sampled_evc (d : Device) : ∃ f : SourceNo → Bool, (sampled d).evc = { d.evc.unfull with
    src := Vector.ofFn (fun s => { d.evc.src.at s with level := f s }) } :=
  ⟨fun s => levelOf s.val { d with evc := d.evc.unfull }, rfl⟩

theorem sampled_src (d : Device) (o : SourceNo) : ∃ b, (sampled d).evc.src.at o = { d.evc.src.at o with level := b } :=
  ⟨levelOf o.val { d with evc := d.evc.unfull }, by simp [sampled, sampleLevels, Tab.at, Evc.unfull]⟩

theorem reserveEarly_sampled (now : Nat) (d : Device) :
    reserveEarly now d = reserve (fun r => decide (r.stamp < now)) now (sampled d) := rfl

theorem sampled_q (d : Device) (o : SourceNo) : ((sampled d).evc.src.at o).q = (d.evc.src.at o).q := by
  obtain ⟨b, same⟩ := sampled_src d o
  rw [same]

/-- R388: nothing is reserved with EN 0, twice at a boundary, or of masked sources alone. -/
theorem reserve_none {ok : NextRec → Bool} (why : d.evc.en = false ∨ d.turn.rsv = true ∨ ∀ o, d.evc.isMasked o = true) :
    reserve ok now d = d := by
  unfold reserve
  dsimp only
  rcases why with off | once | masked
  · simp [off]
  · simp [once]
  · have no : candidates now d.evc = [] := List.filterMap_eq_nil_iff.mpr fun o _ => by rw [masked o, if_pos rfl]
    simp [no, leastBy]

/-- The one entry of a list that passes. -/
theorem filterMap_single {α β : Type} {f : α → Option β} {a : α} {b : β} (hit : f a = some b) :
    ∀ {l : List α}, l.Nodup → a ∈ l → (∀ x, x ≠ a → f x = none) → l.filterMap f = [b]
  | x :: l, distinct, mem, miss => by
    obtain ⟨fresh, distinct⟩ := List.nodup_cons.mp distinct
    by_cases here : x = a
    · subst here
      have rest : l.filterMap f = [] := List.filterMap_eq_nil_iff.mpr fun y hy => miss y fun same => fresh (same ▸ hy)
      rw [List.filterMap_cons_some hit, rest]
    · rw [List.filterMap_cons_none (miss x here)]
      exact filterMap_single hit distinct ((List.mem_cons.mp mem).resolve_left fun same => here same.symm) miss

theorem candidates_one {e : Evc} {r : NextRec} (free : e.isMasked src = false) (others : ∀ o, o ≠ src → e.isMasked o = true)
    (next : nextRec src now e = some r) : candidates now e = [(src, r)] := by
  refine filterMap_single ?_ (fins_nodup 256) (mem_fins src) fun o other => by rw [others o other, if_pos rfl]
  rw [free, if_neg Bool.false_ne_true, next]
  rfl

/-- R383: the record of the oldest cause of an edge source. -/
theorem nextEdge_cause {x : Source} (queue : x.q = c :: l) (fits : x.ovf = false) :
    nextEdge x = some ⟨c.kind, c.detail, c.stamp, { x with q := l, ovf := l.isEmpty && x.drop != 0 }⟩ := by
  simp only [nextEdge, fits, queue, Bool.false_eq_true, if_false]

/-- R388: the one candidate, while none was reserved at this boundary. -/
theorem reserve_one {ok : NextRec → Bool} {r : NextRec} (on : d.evc.en = true) (first : d.turn.rsv = false)
    (one : candidates now d.evc = [(src, r)]) (admitted : ok r = true) : reserve ok now d =
      if d.evc.ringFull then
        if d.evc.full then d else raise 7 248 0x12 0x02 0 now { d with evc := { d.evc with full := true } }
      else { d with
        turn := { d.turn with rsv := true }
        evc := { d.evc with
          src := d.evc.src.put src r.after, rsv := d.evc.rsv + 1
          due := d.evc.due ++ [⟨d.evc.rsv, src.val, r.kind, r.detail, r.stamp, d.evc.slotAddr d.evc.rsv, false⟩] } } := by
  unfold reserve
  simp only [on, first, one, List.filter_cons, List.filter_nil, admitted, leastBy, Bool.not_true, Bool.false_or,
    Bool.false_eq_true, if_false, if_true]

end

/-! ## A record is written (R390, R393) -/

/-- R396: EVT_N is low while records wait. -/
theorem Evc.drive_evtLow (e : Evc) : e.drive.evtLow = (e.en && decide (e.wp ≠ e.rp)) := by
  by_cases same : e.wp = e.rp
  · simp [Evc.drive, same]
  · simp [Evc.drive, same]

/-- R390: the two words of the oldest record are stored. -/
def recordStored (r : Rec) (now : Nat) (c : Core) : Core :=
  storeB 2 8 (r.addr + 8) r.high now (storeB 2 8 r.addr r.low now c)

theorem recordWrite_oldest {r : Rec} {l : List Rec} {now : Nat} {c : Core} (due : c.dev.evc.due = r :: l) :
    recordWrite now c = (recordStored r now c).mapDev (fun d => { d with evc :=
      ({ d.evc with due := l, wp := if r.stale then d.evc.wp else d.evc.wp + 1 }).drive }) := by
  simp only [recordWrite, due]
  rfl

theorem recordStored_evc (r : Rec) (now : Nat) (c : Core) :
    ∃ x y, (recordStored r now c).dev.evc = { c.dev.evc with drops := x, src := y } := by
  obtain ⟨x, y, first⟩ := storeB_evc 2 8 r.addr r.low now c
  obtain ⟨x', y', second⟩ := storeB_evc 2 8 (r.addr + 8) r.high now (storeB 2 8 r.addr r.low now c)
  exact ⟨x', y', by rw [recordStored, second, first]⟩

section

variable {r : Rec} {now : Nat} {c : Core}

theorem bankRead_recordStored (wf : c.ram.wf) (quiet : c.dev.mem.bytesB = []) (inside : r.addr + 16 ≤ bankSize) (b : Nat) :
    (recordStored r now c).ram.bankRead 1 b =
      if r.addr + 8 ≤ b ∧ b < r.addr + 16 then r.high / 256 ^ (b - (r.addr + 8)) % 256
      else if r.addr ≤ b ∧ b < r.addr + 8 then r.low / 256 ^ (b - r.addr) % 256
      else c.ram.bankRead 1 b := by
  rw [recordStored, bankRead_storeB (storeB_wf _ _ _ _ _ wf) (laterB_storeB (laterB_none quiet 2)) (by omega),
    bankRead_storeB wf (laterB_none quiet 2) (by omega)]

/-- R390: a part of the low word of a record. -/
theorem recordStored_low (wf : c.ram.wf) (quiet : c.dev.mem.bytesB = []) (inside : r.addr + 16 ≤ bankSize) {i k : Nat}
    (part : i + k ≤ 8) : (recordStored r now c).ram.bankRead k (r.addr + i) = r.low / 256 ^ i % 256 ^ k := by
  refine bankRead_part (n := 8) (fun j hj => ?_) part
  rw [bankRead_recordStored wf quiet inside, if_neg (by omega), if_pos (by omega), Nat.add_sub_cancel_left]

/-- R390: the high word of a record is its stamp. -/
theorem recordStored_high (wf : c.ram.wf) (quiet : c.dev.mem.bytesB = []) (inside : r.addr + 16 ≤ bankSize) :
    (recordStored r now c).ram.bankRead 8 (r.addr + 8) = r.stamp % two64 := by
  have whole := bankRead_part (r := (recordStored r now c).ram) (n := 8) (a := r.addr + 8) (v := r.high) (fun j hj => ?_)
    (i := 0) (k := 8) (by decide)
  · rw [Nat.add_zero] at whole
    rw [whole, Rec.high, show two64 = 18446744073709551616 from rfl]
    omega
  · rw [bankRead_recordStored wf quiet inside, if_pos (by omega), Nat.add_sub_cancel_left]

end

/-- R390: where the fields of a record stand in its low word. -/
theorem Rec.low_fields (r : Rec) : r.low / 256 ^ 0 % 256 ^ 4 = r.seq.toNat ∧ r.low / 256 ^ 4 % 256 ^ 2 = r.detail.toNat ∧
    r.low / 256 ^ 6 % 256 ^ 1 = r.kind.toNat ∧ r.low / 256 ^ 7 % 256 ^ 1 = r.source % 256 := by
  have seq := r.seq.isLt
  have detail := r.detail.isLt
  have kind := r.kind.isLt
  unfold Rec.low
  norm_num at seq detail kind ⊢
  omega

/-- Settles O53: enables and reservations by their cases, and a record by the bytes of its two words. -/
theorem eventRing : Obligations.EventRing := by
  unfold Obligations.EventRing
  intro s size lay src e b unit
  refine ⟨?enables, ?refuses, fun on other => changes_of_runDev _ (exec_ringEnable size lay s) (writeRcfg_running on other),
    fun on => changes_of_runDev _ (exec_ringDisable s) (if_pos on), fun off => idles_of_runDev _ (exec_ringDisable s) (if_neg (Bool.eq_false_iff.mp off)),
    ?nothing, ?reserves, fun none => idles_of_run _ (exec_recordWrite s) ?_, ?writes⟩
  case enables =>
    intro off low high aligned inside on
    refine brings_of_runDev _ (exec_ringEnable size lay s) ?_
    have fits : ringOk (ringShaped size lay s.core.dev) = true := ringOk_of low high aligned inside on
    rw [writeRcfg_stopped off, ringEnable, if_pos fits]
    exact ⟨rfl, rfl, rfl, rfl, rfl, rfl, rfl, rfl, rfl, rfl⟩
  case refuses =>
    intro off bad
    refine changes_of_runDev _ (exec_ringEnable size lay s) ?_
    have unfit : ringOk (ringShaped size lay s.core.dev) = false := ringOk_refused bad
    rw [writeRcfg_stopped off, ringEnable, unfit, if_neg Bool.false_ne_true]
    rfl
  case nothing =>
    intro why
    refine brings_of_runDev _ (exec_recordReservation s) ?_
    rw [reserveEarly_sampled, reserve_none (d := sampled s.core.dev) why]
    exact ⟨rfl, rfl, sampled_q _⟩
  case reserves =>
    intro c l on edge queue fits free others first before
    obtain ⟨level, same⟩ := sampled_src s.core.dev src
    have next : nextRec src s.mt (sampled s.core.dev).evc = some ⟨c.kind, c.detail, c.stamp,
        { e.src.at src with q := l, ovf := l.isEmpty && (e.src.at src).drop != 0, level := level }⟩ := by
      rw [nextRec, show (sampled s.core.dev).evc.isLevel src = false from edge, if_neg Bool.false_ne_true, same]
      exact nextEdge_cause (x := { e.src.at src with level := level }) queue fits
    have one := candidates_one (now := s.mt) (e := (sampled s.core.dev).evc) free others next
    have reserved := reserve_one (d := sampled s.core.dev) (ok := fun r => decide (r.stamp < s.mt)) on first one (decide_eq_true before)
    refine ⟨fun room => brings_of_runDev _ (exec_recordReservation s) ?_, fun full fresh apart =>
      brings_of_runDev _ (exec_recordReservation s) ?_⟩
    · rw [reserveEarly_sampled, reserved,
        if_neg (show ¬(sampled s.core.dev).evc.ringFull = true from Bool.eq_false_iff.mp room)]
      refine ⟨rfl, rfl, rfl, ?_, ?_, fun o other => ?_⟩
      · dsimp only
        rw [Tab.at_put_same]
      · exact Bool.and_eq_false_iff.mpr (.inr room)
      · dsimp only
        rw [Tab.at_put_ne _ _ other]
        exact sampled_q _ o
    · have notYet : (sampled s.core.dev).evc.full = false := Bool.and_eq_false_iff.mpr (.inl fresh)
      rw [reserveEarly_sampled, reserved, if_pos (show (sampled s.core.dev).evc.ringFull = true from full), if_neg (Bool.eq_false_iff.mp notYet)]
      refine ⟨rfl, rfl, rfl, ?_, ?_⟩
      · rw [raise_src_ne _ _ _ _ _ _ _ apart]
        exact (sampled_q _ src).trans queue
      · rw [causes_raise (by decide)]
        obtain ⟨b, own⟩ := sampled_src s.core.dev (Fin.ofNat 256 248)
        unfold causes
        dsimp only
        rw [own]
  case _ => simp only [recordWrite, show s.core.dev.evc.due = [] from none]
  case writes =>
    intro r l due wf quiet a wp inside
    refine bringsAll_of_run _ (exec_recordWrite s) ?_
    rw [recordWrite_oldest due, Core.mapDev_ram]
    obtain ⟨x, y, evc⟩ := recordStored_evc r s.mt s.core
    obtain ⟨seq, detail, kind, source⟩ := r.low_fields
    refine ⟨?_, ?_, ?_, ?_, recordStored_high wf quiet inside, fun o within apart => ?_, rfl, ?_, ?_, ?_⟩
    · exact (recordStored_low wf quiet inside (i := 0) (k := 4) (by decide)).trans seq
    · exact (recordStored_low wf quiet inside (i := 4) (k := 2) (by decide)).trans detail
    · exact (recordStored_low wf quiet inside (i := 6) (k := 1) (by decide)).trans kind
    · exact (recordStored_low wf quiet inside (i := 7) (k := 1) (by decide)).trans source
    · rw [bankRead_recordStored wf quiet inside, if_neg (by omega), if_neg (by omega)]
    · dsimp only [Core.mapDev]
      rw [evc]
      rfl
    · dsimp only [Core.mapDev]
      rw [evc]
      rfl
    · dsimp only [Core.mapDev]
      rw [evc, Evc.drive_evtLow]

end Machine

end Sys2Proof

namespace Sys2Proof

namespace Machine

/-! ## Accesses of the host to the data banks (R363, R405, R472)

What a 32-bit access in the banks replies, by the state of the bank that holds it; the debug port and the host port share
it. -/

theorem bankOf_word (a : Nat) : bankOf (a / 4 * 4) = bankOf a := by
  rw [bankOf, bankOf, show a / 4 * 4 / 8 = a / 8 by omega]

section

variable {a n o now : Nat} {wr : Bool} {c : Core} {d : Device}

/-- R437: from READY on nothing of the memories is locked for the boot flow. -/
theorem bootLocked_ready (ready : d.pwr.phase = .ready) (w : Window) (wr : Bool) : bootLocked w wr d = false := by
  simp [bootLocked, inBootTest, ready]

/-- R257, R437: in LOAD the host may write the image that the boot ROM waits for. -/
theorem bootLocked_image (load : d.pwr.phase = .load) (waits : d.hlm.waithost = true) : bootLocked .bank true d = false := by
  simp [bootLocked, inBootTest, load, waits]

theorem windowGate_bank (free : bootLocked .bank wr d = false) :
    windowGate .bank o wr d = bankGate (d.mem.bank.at (bankOf o)) := by
  simp only [windowGate, free, Bool.false_eq_true, if_false]

theorem bankGate_on {b : Bank} (on : b.st = .on) : bankGate b = .pass := by simp only [bankGate, on]

theorem bankGate_off {b : Bank} (off : b.st = .off) : bankGate b = .refuse 4 := by simp only [bankGate, off]

theorem windowAccess_bank_write {v : Nat} (free : bootLocked .bank true c.dev = false)
    (on : (c.dev.mem.bank.at (bankOf o)).st = .on) :
    windowAccess .bank n o (some v) now c = .ok 0 (storeB 3 n o v now c) := by
  simp only [windowAccess, Option.isSome_some, windowGate_bank free, bankGate_on on, windowWrite]

theorem windowAccess_bank_read (free : bootLocked .bank false c.dev = false)
    (on : (c.dev.mem.bank.at (bankOf o)).st = .on) :
    windowAccess .bank n o none now c = .ok (c.ram.bankRead n o) (c.mapDev (loadB o now)) := by
  simp only [windowAccess, Option.isSome_none, windowGate_bank free, bankGate_on on, windowRead]

/-- R365, R406: a bank that is off refuses. -/
theorem windowAccess_bank_off {x : Option Nat} (free : bootLocked .bank x.isSome c.dev = false)
    (off : (c.dev.mem.bank.at (bankOf o)).st = .off) : windowAccess .bank n o x now c = .err 4 := by
  simp only [windowAccess, windowGate_bank free, bankGate_off off]

/-- R472, R475: an address of the data banks, its bits [1:0] taken as 0. -/
theorem hostAccess_bank (inside : a < 0x200000) (x : Option Word) :
    hostAccess a x now c = windowAccess .bank 4 (a / 4 * 4) (x.map BitVec.toNat) now c := by
  have other : a / 4 * 4 ≠ hpsData := by
    rw [show hpsData = 0x3C0018 from rfl]
    omega
  have held : windowOf (a / 4 * 4) = some (.bank, a / 4 * 4) := if_pos (by omega)
  simp only [hostAccess, if_neg other, held]

theorem hostAccess_bank_write {v : Word} (inside : a < 0x200000) (free : bootLocked .bank true c.dev = false)
    (on : (c.dev.mem.bank.at (bankOf a)).st = .on) :
    hostAccess a (some v) now c = .ok 0 (storeB 3 4 (a / 4 * 4) v.toNat now c) := by
  rw [hostAccess_bank inside]
  exact windowAccess_bank_write free (by rw [bankOf_word]; exact on)

theorem hostAccess_bank_read (inside : a < 0x200000) (free : bootLocked .bank false c.dev = false)
    (on : (c.dev.mem.bank.at (bankOf a)).st = .on) :
    hostAccess a none now c = .ok (c.ram.bankRead 4 (a / 4 * 4)) (c.mapDev (loadB (a / 4 * 4) now)) := by
  rw [hostAccess_bank inside]
  exact windowAccess_bank_read free (by rw [bankOf_word]; exact on)

theorem hostAccess_bank_off {x : Option Word} (inside : a < 0x200000) (free : bootLocked .bank x.isSome c.dev = false)
    (off : (c.dev.mem.bank.at (bankOf a)).st = .off) : hostAccess a x now c = .err 4 := by
  rw [hostAccess_bank inside]
  exact windowAccess_bank_off (by rw [Option.isSome_map]; exact free) (by rw [bankOf_word]; exact off)

end

/-- A word of the banks and nothing else of the memories: what a 32-bit write through port B leaves. -/
def wordStands (a : Nat) (v : Word) (r r' : Ram) : Prop :=
  r'.bankRead 4 a = v.toNat ∧ (∀ o, o < 0x200000 → o < a ∨ a + 4 ≤ o → r'.bankRead 1 o = r.bankRead 1 o) ∧
  r'.alm = r.alm ∧ r'.prog = r.prog ∧ r'.lut = r.lut ∧ r'.lbuf = r.lbuf

section

variable {a now : Nat} {v : Word} {c : Core}

theorem wordStands_storeB (wf : c.ram.wf) (quiet : c.dev.mem.bytesB = []) (inside : a + 4 ≤ 0x200000) :
    wordStands a v c.ram (storeB 3 4 a v.toNat now c).ram := by
  have room : a + 4 ≤ bankSize := inside
  refine ⟨?_, fun o _ apart => ?_, ?_, ?_, ?_, ?_⟩
  · rw [bankRead_of_bytes (bankRead_storeB_spelt wf (laterB_none quiet 3) room)]
    exact Nat.mod_eq_of_lt v.isLt
  · rw [bankRead_storeB wf (laterB_none quiet 3) room, if_neg (by omega)]
  · exact writeBytes_keeps Ram.alm _ (fun _ _ _ => Ram.bankWrite_alm _ _ _ _) _ _ _ _
  · exact writeBytes_keeps Ram.prog _ (fun _ _ _ => Ram.bankWrite_prog _ _ _ _) _ _ _ _
  · exact writeBytes_keeps Ram.lut _ (fun _ _ _ => Ram.bankWrite_lut _ _ _ _) _ _ _ _
  · exact writeBytes_keeps Ram.lbuf _ (fun _ _ _ => Ram.bankWrite_lbuf _ _ _ _) _ _ _ _

end

end Machine

end Sys2Proof

namespace Sys2Proof

namespace Machine

theorem exec_idcode (s : State) : exec .idcode s = s.runDev (fun now => tapUp (tapInstr 0x01 0xB512_0A6B now)) := rfl
theorem exec_bypass (s : State) : exec .bypass s = s.runDev (fun now => tapUp (tapBypass now)) := rfl
theorem exec_chal (s : State) : exec .chal s = s.runDev (fun now => tapUp (tapChal now)) := rfl
theorem exec_resp (resp : BitVec 128) (s : State) : exec (.resp resp) s = s.runDev (fun now => tapUp (tapResp resp now)) := rfl
theorem exec_samplePreload (bsr : List Bool) (s : State) :
    exec (.samplePreload bsr) s = s.runDev (fun now => tapUp (tapSample bsr now)) := rfl
theorem exec_extest (bsr : List Bool) (s : State) : exec (.extest bsr) s = s.runDev (fun now => tapUp (tapExtest bsr now)) := rfl
theorem exec_extestExit (s : State) : exec .extestExit s = s.runDev (fun now => tapUp (extestLeave now)) := rfl

theorem tapUp_dark {d : Device} (dark : bitOf d.pwr.vioIn 6 = false) (f : Device → Device) : tapUp f d = d := by
  rw [tapUp, dark, if_neg Bool.false_ne_true]

theorem tapUp_lit {d : Device} (lit : bitOf d.pwr.vioIn 6 = true) (f : Device → Device) : tapUp f d = f d := if_pos lit

section

variable {ir : Byte} {dr : BitVec 128} {now : Nat} {d : Device}

/-! ### The end of EXTEST, and an instruction that takes over (R425, R427) -/

theorem extestLeave_idle (idle : d.dbg.extest = false) : extestLeave now d = d := by
  rw [extestLeave, idle, if_neg Bool.false_ne_true]

theorem extestLeave_ends (inside : d.dbg.extest = true) :
    extestLeave now d = raiseDbg 4 0 now (d.dbgUpd (fun x => { x with extest := false })) := if_pos inside

theorem tapInstr_dbg : (tapInstr ir dr now d).dbg = { d.dbg with ir := ir, dr := dr, extest := false } := by
  cases mode : d.dbg.extest with
  | false =>
    rw [tapInstr, extestLeave_idle mode, ← mode]
    rfl
  | true =>
    rw [tapInstr, extestLeave_ends mode]
    rfl

/-- R427: an instruction that takes over changes the debug port and the event controller alone. -/
theorem tapInstr_changes (ir : Byte) (dr : BitVec 128) (now : Nat) (d : Device) :
    ∃ b e, tapInstr ir dr now d = { d with dbg := b, evc := e } := by
  unfold tapInstr extestLeave
  split
  · exact ⟨_, _, rfl⟩
  · exact ⟨_, _, rfl⟩

/-- The state of the debug port rests on the fuses and on whether it was opened. -/
theorem dbgState_congr {e : Device} (fuses : e.fuses = d.fuses) (opened : e.dbg.opened = d.dbg.opened) :
    dbgState e = dbgState d := by
  rw [dbgState, dbgState, fuses, opened]

/-- The answer that is awaited rests on the fuses and the nonce. -/
theorem debugResponse_congr {e : Device} (fuses : e.fuses = d.fuses) (key : e.key = d.key) :
    debugResponse e = debugResponse d := by
  rw [debugResponse, debugResponse, fuses, key]

theorem tapClosed_iff : tapClosed d = true ↔ dbgState d = 1 := beq_iff_eq

theorem tapOpen_iff : tapOpen d = true ↔ dbgState d = 0 ∨ dbgState d = 2 := by
  rw [tapOpen, Bool.or_eq_true, beq_iff_eq, beq_iff_eq]

theorem tapOpen_closed (closed : dbgState d = 1 ∨ dbgState d = 3) : tapOpen d = false := by
  refine Bool.eq_false_of_not_eq_true fun isOpen => ?_
  have := tapOpen_iff.mp isOpen
  omega

/-- R425: what an instruction that takes over brings, as the statement words it. -/
theorem brings_tapInstr {i : Instr} {s : State} (f : Nat → Device → Device) (h : exec i s = s.runDev f)
    (hf : f s.mt s.core.dev = tapInstr ir dr s.mt s.core.dev) :
    (s.core.dev.dbg.extest = false → Changes i s (fun d => { d with dbg := { d.dbg with ir := ir, dr := dr } })) ∧
    (s.core.dev.dbg.extest = true → Brings i s (fun d' =>
      d'.dbg = { s.core.dev.dbg with ir := ir, dr := dr, extest := false } ∧ causes 252 d' = causes 252 s.core.dev + 1 ∧
      d'.pwr = s.core.dev.pwr)) := by
  refine ⟨fun idle => changes_of_runDev f h (hf.trans ?_), fun inside => brings_of_runDev f h ?_⟩
  · rw [tapInstr, extestLeave_idle idle]
    rfl
  · rw [hf]
    refine ⟨tapInstr_dbg, ?_, ?_⟩
    · rw [tapInstr, extestLeave_ends inside]
      exact causes_raise (by decide) 2 0x0D 4 0 s.mt _
    · obtain ⟨_, _, changed⟩ := tapInstr_changes ir dr s.mt s.core.dev
      rw [changed]

/-! ### Challenge and response (R425, R426) -/

variable {resp : BitVec 128}

theorem tapChal_closed (closed : dbgState d = 1) :
    tapChal now d = tapInstr 0x10 (if d.dbg.exhausted then 0 else d.key.nonce) now d := if_pos (tapClosed_iff.mpr closed)

theorem tapChal_elsewhere (other : dbgState d ≠ 1) : tapChal now d = tapInstr 0xFF 0 now d :=
  if_neg (fun closed => other (tapClosed_iff.mp closed))

theorem tapResp_elsewhere (other : dbgState d ≠ 1) : tapResp resp now d = tapInstr 0xFF 0 now d :=
  if_neg (fun closed => other (tapClosed_iff.mp closed))

theorem tapResp_exhausted (closed : dbgState d = 1) (spent : d.dbg.exhausted = true) :
    tapResp resp now d = tapInstr 0x11 resp now d := by
  rw [tapResp, if_pos (tapClosed_iff.mpr closed)]
  dsimp only
  rw [tapInstr_dbg, spent, if_pos rfl]

theorem tapResp_checks (closed : dbgState d = 1) (fresh : d.dbg.exhausted = false) :
    tapResp resp now d = drawNonce (checkResponse resp 0 now (tapInstr 0x11 resp now d)) := by
  rw [tapResp, if_pos (tapClosed_iff.mpr closed)]
  dsimp only
  rw [tapInstr_dbg, fresh, if_neg Bool.false_ne_true]

theorem tapInstr_response : debugResponse (tapInstr ir dr now d) = debugResponse d := by
  obtain ⟨_, _, changed⟩ := tapInstr_changes ir dr now d
  rw [changed]
  exact debugResponse_congr rfl rfl

/-- R426: the right response opens the port. -/
theorem checkResponse_right {how : Nat} (right : debugResponse d = some (beBytes 16 resp.toNat)) :
    checkResponse resp how now d = raiseDbg 1 how now { d with dbg := { d.dbg with opened := true } } := if_pos right

/-- R426: a wrong response is counted, and the eighth exhausts the port. -/
theorem checkResponse_wrong {how : Nat} (wrong : debugResponse d ≠ some (beBytes 16 resp.toNat)) :
    (checkResponse resp how now d).dbg =
      { d.dbg with tries := d.dbg.tries + 1, exhausted := d.dbg.exhausted || decide (d.dbg.tries = 7) } := by
  rw [checkResponse, if_neg wrong]
  dsimp only
  by_cases last : d.dbg.tries = 7
  · rw [if_pos (by omega), last, decide_eq_true rfl, Bool.or_true]
    rfl
  · rw [if_neg (by omega), decide_eq_false last, Bool.or_false]
    rfl

/-- R424: a port in CLOSED that was opened stands in OPENED. -/
theorem dbgState_opened {e : Device} (closed : dbgState d = 1) (fuses : e.fuses = d.fuses) (opened : e.dbg.opened = true) :
    dbgState e = 2 := by
  unfold dbgState at closed ⊢
  rw [fuses, opened]
  split at closed
  · exact absurd closed (by decide)
  · split at closed
    · exact absurd closed (by decide)
    · rename_i perm close
      rw [if_neg perm, if_neg close, if_pos rfl]

/-! ### Boundary scan (R425, R427) -/

variable {bsr : List Bool}

theorem tapSample_shut (shut : tapOpen d = false) : tapSample bsr now d = tapInstr 0xFF 0 now d :=
  if_neg (Bool.eq_false_iff.mp shut)

theorem tapExtest_shut (shut : tapOpen d = false) : tapExtest bsr now d = tapInstr 0xFF 0 now d :=
  if_neg (Bool.eq_false_iff.mp shut)

theorem getElem_fins (n : Nat) (p : Fin n) : (fins n)[p.val]? = some p := by
  have vals : ((fins n).map Fin.val)[p.val]? = some p.val := by
    rw [fins, map_val_finsUpTo, List.map_nil, List.append_nil]
    simp
  rw [List.getElem?_map] at vals
  cases entry : (fins n)[p.val]? with
  | none =>
    rw [entry] at vals
    cases vals
  | some q =>
    rw [entry] at vals
    exact congrArg some (Fin.ext (Option.some.inj vals))

theorem pinLevels_at (d : Device) (p : Fin 256) :
    (pinLevels d)[p.val]? = some (d.chn.at (Fin.castLE (by decide) p)).pin.ball := by
  rw [pinLevels, List.getElem?_map, getElem_fins]
  rfl

theorem tapSample_open (isOpen : tapOpen d = true) (idle : d.dbg.extest = false) : tapSample bsr now d =
    { d with dbg := { d.dbg with ir := 2, dr := 0, bsr := bsr, sample := pinLevels d } } := by
  rw [tapSample, if_pos isOpen, tapInstr, extestLeave_idle idle]
  rfl

/-- R427: EXTEST before its entry is recorded. -/
def Device.scans (bsr : List Bool) (d : Device) : Device := d.dbgUpd (fun x => { x with ir := 0x00, bsr := bsr, extest := true })

theorem tapExtest_enters (isOpen : tapOpen d = true) (idle : d.dbg.extest = false) :
    tapExtest bsr now d = raiseDbg 4 1 now (dropPermit 2 now (d.scans bsr)) := by
  rw [tapExtest, if_pos isOpen]
  dsimp only
  rw [idle, if_neg Bool.false_ne_true]
  rfl

theorem tapExtest_stays (isOpen : tapOpen d = true) (inside : d.dbg.extest = true) :
    tapExtest bsr now d = { d with dbg := { d.dbg with ir := 0, bsr := bsr } } := by
  rw [tapExtest, if_pos isOpen]
  dsimp only
  rw [inside, if_pos rfl, ← inside]
  rfl

/-- R442: PERMIT that ends is counted at source 241 alone. -/
theorem dropPermit_causes {k : Nat} (other : Fin.ofNat 256 k ≠ Fin.ofNat 256 241) (step now : Nat) (d : Device) :
    causes k (dropPermit step now d) = causes k d := by
  unfold dropPermit
  dsimp only
  split
  · exact causes_raise_ne other _ _ _ _ _ _
  · rfl

/-- R427: in EXTEST the boundary-scan register drives the pins of a powered bank. -/
theorem tpOut_scan {p : Fin 256} (free : d.pwr.hold = 0) (lit : bitOf d.pwr.vioIn (p.val / 32) = true)
    (inside : d.dbg.extest = true) : tpOut p d = .scan := by
  simp [tpOut, Device.held, Device.bankUp, free, lit, inside]

/-! ### BUSACC (R405, R425) -/

variable {a v : Word} {c : Core}

/-- R425: DONE and ERROR in the data register of BUSACC. -/
theorem busReg_flags (a v : Word) (wr bad ended : Bool) :
    bitOf (busReg a v wr bad ended) 66 = ended ∧ bitOf (busReg a v wr bad ended) 67 = bad := by
  have addr := a.isLt
  have data := v.isLt
  unfold bitOf busReg shB
  rw [BitVec.getLsbD_ofNat, BitVec.getLsbD_ofNat, Nat.testBit_eq_decide_div_mod_eq, Nat.testBit_eq_decide_div_mod_eq]
  cases wr <;> cases bad <;> cases ended <;> simp <;> omega

theorem tapBusacc_shut {wr start : Bool} (shut : tapOpen c.dev = false) :
    tapBusacc a v wr start now c = c.mapDev (tapInstr 0xFF 0 now) := by
  rw [tapBusacc, shut, Bool.not_false, if_pos rfl]
  rfl

/-- R425: BUSACC has taken over. -/
def Core.busaccIn (c : Core) : Core := c.mapDev (fun d => { d with dbg := { d.dbg with ir := 0x20 } })

theorem busaccIn_of_idle (idle : c.dev.dbg.extest = false) :
    c.mapDev (fun d => (extestLeave now d).dbgUpd (fun x => { x with ir := 0x20 })) = c.busaccIn := by
  rw [Core.mapDev, Core.busaccIn, Core.mapDev, extestLeave_idle idle]
  rfl

theorem tapBusacc_unstarted {wr : Bool} (isOpen : tapOpen c.dev = true) (idle : c.dev.dbg.extest = false) :
    tapBusacc a v wr false now c = c.busaccIn := by
  rw [tapBusacc, isOpen, Bool.not_true, if_neg Bool.false_ne_true]
  dsimp only
  rw [busaccIn_of_idle idle, Bool.not_false, Bool.true_or, if_pos rfl]

theorem tapBusacc_waits (isOpen : tapOpen c.dev = true) (idle : c.dev.dbg.extest = false) (busy : c.dev.hps.q ≠ [])
    (up : 2 ≤ c.dev.pwr.phase.num) : tapBusacc a v true true now c = c.mapDev (fun d => { d with dbg := { d.dbg with
      ir := 0x20, acc := some ⟨a, some v, now⟩, dr := busReg a v true false false } }) := by
  have early : (false || decide (c.busaccIn.dev.pwr.phase.num < 2)) = false := by
    rw [decide_eq_false (show ¬c.busaccIn.dev.pwr.phase.num < 2 from Nat.not_lt.mpr up)]
    rfl
  have queued : c.busaccIn.dev.hps.q.isEmpty = false := by
    rw [List.isEmpty_eq_false_iff]
    exact busy
  rw [tapBusacc, isOpen, Bool.not_true, if_neg Bool.false_ne_true]
  dsimp only
  rw [busaccIn_of_idle idle, early, queued, if_neg Bool.false_ne_true, if_neg Bool.false_ne_true, if_pos rfl]
  rfl

theorem tapBusacc_serves (isOpen : tapOpen c.dev = true) (idle : c.dev.dbg.extest = false) (free : c.dev.hps.q = [])
    (up : 2 ≤ c.dev.pwr.phase.num) : tapBusacc a v true true now c = busServe ⟨a, some v, now⟩ now c.busaccIn := by
  have early : (false || decide (c.busaccIn.dev.pwr.phase.num < 2)) = false := by
    rw [decide_eq_false (show ¬c.busaccIn.dev.pwr.phase.num < 2 from Nat.not_lt.mpr up)]
    rfl
  have queued : c.busaccIn.dev.hps.q.isEmpty = true := List.isEmpty_iff.mpr free
  rw [tapBusacc, isOpen, Bool.not_true, if_neg Bool.false_ne_true]
  dsimp only
  rw [busaccIn_of_idle idle, early, queued, if_neg Bool.false_ne_true, if_pos rfl, if_pos rfl]

/-- R425: a write of BUSACC in a bank that is on. -/
theorem busServe_bank {t : Nat} (ready : c.dev.pwr.phase = .ready) (inside : a.toNat < 0x200000)
    (on : (c.dev.mem.bank.at (bankOf a.toNat)).st = .on) : busServe ⟨a, some v, t⟩ now c =
      (storeB 3 4 (a.toNat / 4 * 4) v.toNat now c).mapDev (fun d =>
        busResult ⟨a, some v, t⟩ false (w32 0) { d with evc := { d.evc with maskWait := c.dev.evc.maskWait } }) := by
  unfold busServe
  dsimp only
  rw [hostAccess_bank_write inside (bootLocked_ready ready _ _) on]

end

/-- Settles O57: what each instruction does, by the state of the port and by EXTEST. -/
theorem debugPort : Obligations.DebugPort := by
  unfold Obligations.DebugPort
  intro s resp bsr a v d b
  refine ⟨fun dark => ?dark, fun lit => ?lit⟩
  case dark =>
    exact ⟨idles_of_runDev _ (exec_idcode s) (tapUp_dark dark _), idles_of_runDev _ (exec_bypass s) (tapUp_dark dark _),
      idles_of_runDev _ (exec_chal s) (tapUp_dark dark _), idles_of_runDev _ (exec_resp resp s) (tapUp_dark dark _),
      idles_of_runDev _ (exec_samplePreload bsr s) (tapUp_dark dark _), idles_of_runDev _ (exec_extest bsr s) (tapUp_dark dark _),
      idles_of_runDev _ (exec_extestExit s) (tapUp_dark dark _),
      idles_of_run _ (exec_busacc a v true true s) (if_neg (Bool.eq_false_iff.mp dark))⟩
  case lit =>
    have busacc (start : Bool) : exec (.busacc a v true start) s = s.run (tapBusacc a v true start) := by
      rw [exec_busacc, State.run_next, if_pos lit, State.run_next]
    intro taken
    refine ⟨brings_tapInstr _ (exec_idcode s) (tapUp_lit lit _), brings_tapInstr _ (exec_bypass s) (tapUp_lit lit _),
      fun closed => brings_tapInstr _ (exec_chal s) ((tapUp_lit lit _).trans (tapChal_closed closed)),
      fun other => ⟨brings_tapInstr _ (exec_chal s) ((tapUp_lit lit _).trans (tapChal_elsewhere other)),
        brings_tapInstr _ (exec_resp resp s) ((tapUp_lit lit _).trans (tapResp_elsewhere other))⟩,
      fun closed spent => brings_tapInstr _ (exec_resp resp s) ((tapUp_lit lit _).trans (tapResp_exhausted closed spent)),
      ?opens, ?counts, ?shut, ?available,
      fun idle => idles_of_runDev _ (exec_extestExit s) ((tapUp_lit lit _).trans (extestLeave_idle idle)), ?exits⟩
    case opens =>
      intro closed fresh right
      refine brings_of_runDev _ (exec_resp resp s) ?_
      rw [tapUp_lit lit, tapResp_checks closed fresh, checkResponse_right (tapInstr_response.trans right)]
      have took := tapInstr_dbg (ir := 0x11) (dr := resp) (now := s.mt) (d := s.core.dev)
      refine ⟨rfl, ?_, ?_, dbgState_opened closed ?_ rfl⟩
      · show (tapInstr 0x11 resp s.mt s.core.dev).dbg.ir = 0x11
        rw [took]
      · show (tapInstr 0x11 resp s.mt s.core.dev).dbg.tries = d.dbg.tries
        rw [took]
      · obtain ⟨_, _, changed⟩ := tapInstr_changes 0x11 resp s.mt s.core.dev
        rw [changed]
        rfl
    case counts =>
      intro closed fresh wrong
      refine brings_of_runDev _ (exec_resp resp s) ?_
      have counted := checkResponse_wrong (now := s.mt) (how := 0) (d := tapInstr 0x11 resp s.mt s.core.dev) (resp := resp)
        (by rw [tapInstr_response]; exact wrong)
      rw [tapInstr_dbg] at counted
      rw [tapUp_lit lit, tapResp_checks closed fresh,
        show ∀ e, (drawNonce e).dbg = e.dbg from fun _ => rfl, counted]
      refine ⟨rfl, rfl, rfl, ?_⟩
      dsimp only
      rw [fresh, Bool.false_or]
    case shut =>
      intro closed
      have shut := tapOpen_closed closed
      refine ⟨brings_tapInstr _ (exec_samplePreload bsr s) ((tapUp_lit lit _).trans (tapSample_shut shut)),
        brings_tapInstr _ (exec_extest bsr s) ((tapUp_lit lit _).trans (tapExtest_shut shut)),
        brings_tapInstr (tapInstr 0xFF 0) ?_ rfl⟩
      rw [busacc, State.run_next, tapBusacc_shut shut]
      rfl
    case available =>
      intro states
      have isOpen := tapOpen_iff.mpr states
      refine ⟨fun idle => brings_of_runDev _ (exec_samplePreload bsr s) ?_,
        fun idle => brings_of_runDev _ (exec_extest bsr s) ?_,
        fun inside => changes_of_runDev _ (exec_extest bsr s) ((tapUp_lit lit _).trans (tapExtest_stays isOpen inside)),
        fun idle => changes_of_run _ (busacc false) (tapBusacc_unstarted isOpen idle),
        fun idle busy up => brings_of_run _ (busacc true) _ (tapBusacc_waits isOpen idle busy up) ?_,
        fun ready idle free inside quiet on wf => bringsAll_of_run _ (busacc true) ?_⟩
      · rw [tapUp_lit lit, tapSample_open isOpen idle]
        exact ⟨rfl, pinLevels_at d⟩
      · rw [tapUp_lit lit, tapExtest_enters isOpen idle]
        obtain ⟨e, dropped⟩ := dropPermit_changes 2 s.mt (s.core.dev.scans bsr)
        refine ⟨by rw [dropped]; rfl, by rw [dropped]; rfl, ?_, fun loose p on => tpOut_scan ?_ ?_ ?_⟩
        · rw [raiseDbg, causes_raise (by decide), dropPermit_causes (by decide)]
          rfl
        · rw [dropped]
          exact loose
        · rw [dropped]
          exact on
        · rw [dropped]
          rfl
      · exact ⟨rfl, rfl, (busReg_flags a v true false false).1, rfl⟩
      · have up : 2 ≤ s.core.dev.pwr.phase.num := by
          rw [show s.core.dev.pwr.phase = .ready from ready]
          decide
        rw [tapBusacc_serves isOpen idle free up, busServe_bank (c := s.core.busaccIn) ready inside on, Core.mapDev_ram,
          Core.mapDev_dev]
        obtain ⟨stored, others, _⟩ := wordStands_storeB (a := a.toNat / 4 * 4) (v := v) (now := s.mt) (c := s.core.busaccIn)
          wf quiet (by omega)
        obtain ⟨_, m, e, changed, _⟩ := storeB_changes 3 4 (a.toNat / 4 * 4) v.toNat s.mt s.core.busaccIn
        obtain ⟨done, bad⟩ := busReg_flags a v true false true
        refine ⟨stored, others, ?_, rfl, done, bad, ?_⟩
        · rw [changed]
          rfl
        · rw [changed]
          rfl
    case exits =>
      intro inside
      refine brings_of_runDev _ (exec_extestExit s) ?_
      rw [tapUp_lit lit, extestLeave_ends inside]
      exact ⟨rfl, causes_raise (by decide) 2 0x0D 4 0 s.mt _⟩

end Machine

end Sys2Proof

namespace Sys2Proof

namespace Machine

theorem exec_registerWrite (a v : Word) (s : State) : exec (.registerWrite a v) s = s.run (serveNow a (some v)) := rfl
theorem exec_dataPortAccess (wr : Option Word) (s : State) :
    exec (.dataPortAccess wr) s = s.run (serveNow (w32 hpsData) wr) := rfl

/-! ## An access at an idle port (R405) -/

/-- The access that stands for a word written, or for one read whose word is not sent. -/
def accessOf (a : Word) (wr : Option Word) : HostAcc := match wr with | some v => .write a v | none => .read a false

theorem accessOf_addr (a : Word) (wr : Option Word) : (accessOf a wr).addr = a := by cases wr <;> rfl
theorem accessOf_data (a : Word) (wr : Option Word) : (accessOf a wr).data = wr := by cases wr <;> rfl
theorem accessOf_isWrite (a : Word) (wr : Option Word) : (accessOf a wr).isWrite = wr.isSome := by cases wr <;> rfl

/-- R405: access `x` is alone in the port and is being serviced. -/
def Device.admits (x : HostAcc) (d : Device) : Device := { d with
  hps := { d.hps with q := [x] }, turn := { d.turn with wrote := d.turn.wrote || x.isWrite } }

/-- R405: access `x` is being serviced, and the memories are as they were. -/
def Core.admits (x : HostAcc) (c : Core) : Core := c.mapDev (Device.admits x)

section

variable {a : Word} {wr : Option Word} {x : HostAcc} {now : Nat} {c c' : Core} {d : Device}

theorem serveNow_down (down : portUp c.dev = false) : serveNow a wr now c = c := by
  rw [serveNow, down, Bool.not_false, if_pos rfl]

theorem portUp_early (early : d.pwr.phase = .pll ∨ d.pwr.phase = .fuse ∨ bitOf d.pwr.vioIn 7 = false) : portUp d = false := by
  rcases early with pll | fuse | dark
  · simp [portUp, pll, Phase.num]
  · simp [portUp, fuse, Phase.num]
  · simp [portUp, dark]

theorem portUp_late (lit : bitOf d.pwr.vioIn 7 = true) (late : d.pwr.phase = .load ∨ d.pwr.phase = .ready) :
    portUp d = true := by
  rcases late with load | ready
  · simp [portUp, lit, load, Phase.num]
  · simp [portUp, lit, ready, Phase.num]

/-- R402: a word is posted while fewer than sixteen wait. -/
theorem post_room {v : Word} (room : d.hps.posted < 16) :
    post a v now d = d.hpsUpd (fun h => { h with q := h.q ++ [.write a v] }) := if_pos room

theorem receive_room (room : d.hps.posted < 16) :
    receive a wr now d = d.hpsUpd (fun h => { h with q := h.q ++ [accessOf a wr] }) := by
  cases wr with
  | none => rfl
  | some v => exact post_room room

/-- R405: an access behind others waits. -/
theorem serveNow_waits (up : portUp c.dev = true) (busy : c.dev.hps.q ≠ []) (room : c.dev.hps.posted < 16) :
    serveNow a wr now c = c.mapDev (fun d => d.hpsUpd (fun h => { h with q := h.q ++ [accessOf a wr] })) := by
  have queued : c.dev.hps.q.isEmpty = false := List.isEmpty_eq_false_iff.mpr busy
  rw [serveNow, up, Bool.not_true, if_neg Bool.false_ne_true]
  dsimp only
  rw [queued, Bool.false_and, Bool.not_false, if_pos rfl, Core.mapDev, receive_room room]
  rfl

/-- R405: an access at an idle port is serviced at once: a write, or a read that no write of this boundary precedes. -/
theorem serveNow_serves (up : portUp c.dev = true) (free : c.dev.hps.q = []) (first : wr.isSome = true ∨ c.dev.turn.wrote = false) :
    serveNow a wr now c = serveHead now (c.admits (accessOf a wr)) := by
  have alone : (c.dev.hps.q.isEmpty && (wr.isSome || !c.dev.turn.wrote)) = true := by
    rw [free]
    rcases first with write | unwritten
    · simp [write]
    · simp [unwritten]
  have room : c.dev.hps.posted < 16 := by
    rw [Hps.posted, free]
    decide
  rw [serveNow, up, Bool.not_true, if_neg Bool.false_ne_true]
  dsimp only
  rw [alone, Bool.not_true, if_neg Bool.false_ne_true, Core.mapDev, Core.mapDev, receive_room room, Core.admits, Core.mapDev,
    Device.admits, accessOf_isWrite, Device.hpsUpd, free]
  rfl

/-- R405: the access at the head is served. -/
theorem serveHead_ok {v : Nat} {l : List HostAcc} (head : c.dev.hps.q = x :: l) (before : (x.isWrite && c.dev.evc.maskWait) = false)
    (ok : hostAccess x.addr.toNat x.data now c = .ok v c') (after : (x.isWrite && c'.dev.evc.maskWait) = false) :
    serveHead now c = c'.mapDev (Device.hpsUpd (delivered x false (w32 v))) := by
  unfold serveHead
  simp only [head, before, Bool.false_eq_true, if_false, ok, after]

/-- R406: the access at the head is refused. -/
theorem serveHead_err {k : Nat} {l : List HostAcc} (head : c.dev.hps.q = x :: l) (before : (x.isWrite && c.dev.evc.maskWait) = false)
    (err : hostAccess x.addr.toNat x.data now c = .err k) : serveHead now c = c.mapDev (refuseHead x k now) := by
  unfold serveHead
  simp only [head, before, Bool.false_eq_true, if_false, err]

/-- R389: no write of a mask holds the port. -/
theorem and_maskWait {e : Device} (quiet : e.evc.maskWait = false) (b : Bool) : (b && e.evc.maskWait) = false := by
  rw [quiet, Bool.and_false]

theorem storeB_maskWait (cls n a v now : Nat) (c : Core) : (storeB cls n a v now c).dev.evc.maskWait = c.dev.evc.maskWait := by
  obtain ⟨_, _, same⟩ := storeB_evc cls n a v now c
  rw [same]

theorem storeB_hps (cls n a v now : Nat) (c : Core) : (storeB cls n a v now c).dev.hps = c.dev.hps := by
  obtain ⟨_, m, e, changed, _⟩ := storeB_changes cls n a v now c
  rw [changed]

theorem loadB_hps (a now : Nat) (d : Device) : (loadB a now d).hps = d.hps := by
  obtain ⟨m, e, changed, _⟩ := loadB_changes a now d
  rw [changed]

/-! ## The data port in a 32-bit width (R408) -/

theorem hostAccess_data (at' : a.toNat / 4 * 4 = hpsData) : hostAccess a.toNat wr now c = dataAccess wr now c := by
  unfold hostAccess
  dsimp only
  rw [if_pos at']

theorem hpsData_word : (w32 hpsData).toNat / 4 * 4 = hpsData := by decide

theorem dataAccess_bank (narrow : c.dev.hps.width = false) (inside : c.dev.hps.dptr.toNat < 0x200000) :
    dataAccess wr now c = (windowAccess .bank 4 (c.dev.hps.dptr.toNat / 4 * 4) (wr.map BitVec.toNat) now c).andThen
      (fun v c => (v, c.mapDev (dptrStep 4))) := by
  have held : windowOf c.dev.hps.dptr.toNat = some (.bank, c.dev.hps.dptr.toNat) := if_pos inside
  unfold dataAccess
  simp only [held, narrow, Bool.not_false, if_true]

theorem dataAccess_bank_write {v : Word} (narrow : c.dev.hps.width = false) (inside : c.dev.hps.dptr.toNat < 0x200000)
    (free : bootLocked .bank true c.dev = false) (on : (c.dev.mem.bank.at (bankOf c.dev.hps.dptr.toNat)).st = .on) :
    dataAccess (some v) now c =
      .ok 0 ((storeB 3 4 (c.dev.hps.dptr.toNat / 4 * 4) v.toNat now c).mapDev (dptrStep 4)) := by
  rw [dataAccess_bank narrow inside, Option.map_some, windowAccess_bank_write free (by rw [bankOf_word]; exact on)]
  rfl

theorem dataAccess_bank_read (narrow : c.dev.hps.width = false) (inside : c.dev.hps.dptr.toNat < 0x200000)
    (free : bootLocked .bank false c.dev = false) (on : (c.dev.mem.bank.at (bankOf c.dev.hps.dptr.toNat)).st = .on) :
    dataAccess none now c = .ok (c.ram.bankRead 4 (c.dev.hps.dptr.toNat / 4 * 4))
      ((c.mapDev (loadB (c.dev.hps.dptr.toNat / 4 * 4) now)).mapDev (dptrStep 4)) := by
  rw [dataAccess_bank narrow inside, Option.map_none, windowAccess_bank_read free (by rw [bankOf_word]; exact on)]
  rfl

/-! ## Where nothing is assigned (R406, R474) -/

theorem windowOf_gap {n : Nat} (above : 0x278000 ≤ n) (below : n < 0x280000) : windowOf n = none := by
  unfold windowOf
  rw [if_neg (by omega), if_neg (by omega), if_neg (by omega), if_neg (by omega), if_pos (by omega)]

theorem regWrite_gap {n : Nat} {v : Word} (above : 0x278000 ≤ n) (below : n < 0x280000) : regWrite n v now c = none := by
  have os : n ≠ osCtlAddr := by
    rw [show osCtlAddr = 0x350040 from rfl]
    omega
  have mctl : n ≠ mctlAddr := by
    rw [show mctlAddr = 0x3A0110 from rfl]
    omega
  have page : n / 0x10000 = 0x27 := by omega
  have none : devWrite n v now = none := by
    unfold devWrite
    simp only [page]
  rw [regWrite, if_neg os, if_neg mctl, none]
  rfl

theorem hostAccess_gap {v : Word} (above : 0x278000 ≤ a.toNat) (below : a.toNat < 0x280000) :
    hostAccess a.toNat (some v) now c = .err 1 := by
  have data : a.toNat / 4 * 4 ≠ hpsData := by
    rw [show hpsData = 0x3C0018 from rfl]
    omega
  unfold hostAccess
  dsimp only
  rw [if_neg data, windowOf_gap (by omega) (by omega)]
  dsimp only
  rw [regWrite_gap (by omega) (by omega)]

theorem dataAccess_gap (above : 0x278000 ≤ c.dev.hps.dptr.toNat) (below : c.dev.hps.dptr.toNat < 0x280000) :
    dataAccess wr now c = .err 7 := by
  unfold dataAccess
  simp only [windowOf_gap above below]

/-- R406: the first bus error of a refused access at the head. -/
theorem refuseHead_hps {k : Nat} (fresh : d.hps.berr = false) (x : HostAcc) (now : Nat) :
    (refuseHead x k now d).hps = delivered x true 0 { d.hps with
      berr := true, berrInfo := w32 (k + shB 3 x.data.isSome), berrAddr := errAddr x.addr k d } := by
  simp only [refuseHead, busError, raiseHps, Device.hpsUpd, raise_hps, fresh, Bool.false_eq_true, if_false]

theorem refuseHead_causes (x : HostAcc) (k now : Nat) (d : Device) :
    causes 243 (refuseHead x k now d) = causes 243 d + 1 := by
  have counted := causes_raise (k := 243) (by decide) 2 0x04 1 k now (d.hpsUpd (fun h => { h with
    berr := true
    berrInfo := if h.berr then h.berrInfo else w32 (k + shB 3 x.data.isSome)
    berrAddr := if h.berr then h.berrAddr else errAddr x.addr k d }))
  exact counted

end

/-- What is served of an access: the port is idle and no write of a mask holds it. -/
def portIdle (d : Device) : Prop :=
  bitOf d.pwr.vioIn 7 = true ∧ d.hps.q = [] ∧ d.hps.heldAt = none ∧ d.evc.maskWait = false

/-- A port that served its one write is as it was before. -/
theorem served_write {h : Hps} (free : h.q = []) (idle : h.heldAt = none) : { h with q := [], heldAt := none } = h := by
  rw [← free, ← idle]

theorem errAddr_plain {a : Word} (other : a.toNat / 4 * 4 ≠ hpsData) (k : Nat) (d : Device) :
    errAddr a k d = a &&& 0xFFFF_FFFC := by
  rw [errAddr, if_neg (fun both => other both.1)]

theorem errAddr_dptr (a : Word) (d : Device) : errAddr a 7 d = a &&& 0xFFFF_FFFC := by
  rw [errAddr, if_neg (fun both => both.2 rfl)]

/-- R406: the port after the refusal of the one write that it held. -/
theorem refused_write_hps {d : Device} (idle : portIdle d) (fresh : d.hps.berr = false) (a v : Word) (k now : Nat) :
    (refuseHead (.write a v) k now (d.admits (.write a v))).hps = { d.hps with
      berr := true, berrInfo := w32 (k + 8), berrAddr := errAddr a k (d.admits (.write a v)) } := by
  obtain ⟨_, free, unheld, _⟩ := idle
  rw [refuseHead_hps (d := d.admits (.write a v)) fresh]
  exact congrArg (fun h : Hps => { h with
    berr := true, berrInfo := w32 (k + 8), berrAddr := errAddr a k (d.admits (.write a v)) }) (served_write free unheld)

section

variable {a v : Word} {now : Nat} {c : Core}

/-- R363, R405: a word written at an idle port in a bank that is on. -/
theorem serveNow_bank_write (idle : portIdle c.dev) (up : portUp c.dev = true) (unlocked : bootLocked .bank true c.dev = false)
    (inside : a.toNat < 0x200000) (on : (c.dev.mem.bank.at (bankOf a.toNat)).st = .on) :
    serveNow a (some v) now c = (storeB 3 4 (a.toNat / 4 * 4) v.toNat now (c.admits (.write a v))).mapDev
      (Device.hpsUpd (delivered (.write a v) false (w32 0))) := by
  obtain ⟨_, free, _, quiet⟩ := idle
  rw [serveNow_serves up free (.inl rfl)]
  have after := (storeB_maskWait 3 4 (a.toNat / 4 * 4) v.toNat now (c.admits (.write a v))).trans quiet
  exact serveHead_ok (c := c.admits (.write a v)) rfl (and_maskWait quiet _)
    (hostAccess_bank_write (c := c.admits (.write a v)) inside unlocked on) (and_maskWait after _)

/-- R363, R405: a word written through the data port, in a bank that is on. -/
theorem serveNow_data_write (idle : portIdle c.dev) (up : portUp c.dev = true) (unlocked : bootLocked .bank true c.dev = false)
    (narrow : c.dev.hps.width = false) (inside : c.dev.hps.dptr.toNat < 0x200000)
    (on : (c.dev.mem.bank.at (bankOf c.dev.hps.dptr.toNat)).st = .on) :
    serveNow (w32 hpsData) (some v) now c =
      ((storeB 3 4 (c.dev.hps.dptr.toNat / 4 * 4) v.toNat now (c.admits (.write (w32 hpsData) v))).mapDev (dptrStep 4)).mapDev
        (Device.hpsUpd (delivered (.write (w32 hpsData) v) false (w32 0))) := by
  obtain ⟨_, free, _, quiet⟩ := idle
  rw [serveNow_serves up free (.inl rfl)]
  have after := (storeB_maskWait 3 4 (c.dev.hps.dptr.toNat / 4 * 4) v.toNat now (c.admits (.write (w32 hpsData) v))).trans quiet
  exact serveHead_ok (c := c.admits (.write (w32 hpsData) v)) rfl (and_maskWait quiet _)
    ((hostAccess_data hpsData_word).trans (dataAccess_bank_write narrow inside unlocked on)) (and_maskWait after _)

/-- R363, R405: a word read through the data port, in a bank that is on. -/
theorem serveNow_data_read (idle : portIdle c.dev) (up : portUp c.dev = true) (unlocked : bootLocked .bank false c.dev = false)
    (first : c.dev.turn.wrote = false) (narrow : c.dev.hps.width = false) (inside : c.dev.hps.dptr.toNat < 0x200000)
    (on : (c.dev.mem.bank.at (bankOf c.dev.hps.dptr.toNat)).st = .on) :
    serveNow (w32 hpsData) none now c =
      c.mapDev (fun d => (dptrStep 4 (loadB (c.dev.hps.dptr.toNat / 4 * 4) now (d.admits (.read (w32 hpsData) false)))).hpsUpd
        (delivered (.read (w32 hpsData) false) false (w32 (c.ram.bankRead 4 (c.dev.hps.dptr.toNat / 4 * 4))))) := by
  obtain ⟨_, free, _⟩ := idle
  rw [serveNow_serves up free (.inr first)]
  exact serveHead_ok (c := c.admits (.read (w32 hpsData) false))
    (c' := ((c.admits (.read (w32 hpsData) false)).mapDev (loadB (c.dev.hps.dptr.toNat / 4 * 4) now)).mapDev (dptrStep 4)) rfl rfl
    ((hostAccess_data hpsData_word).trans (dataAccess_bank_read (c := c.admits (.read (w32 hpsData) false)) narrow inside unlocked on))
    rfl

/-- R406: an access that is refused at an idle port. -/
theorem serveNow_refused {wr : Option Word} {k : Nat} (idle : portIdle c.dev) (up : portUp c.dev = true)
    (first : wr.isSome = true ∨ c.dev.turn.wrote = false)
    (err : hostAccess a.toNat wr now (c.admits (accessOf a wr)) = .err k) :
    serveNow a wr now c = c.mapDev (fun d => refuseHead (accessOf a wr) k now (d.admits (accessOf a wr))) := by
  obtain ⟨_, free, _, quiet⟩ := idle
  rw [serveNow_serves up free first]
  refine serveHead_err (c := c.admits (accessOf a wr)) rfl (and_maskWait quiet _) ?_
  rw [accessOf_addr, accessOf_data]
  exact err

end

/-- Settles O55: an access at an idle port replies at once, in a bank, through the data port, or where nothing is assigned. -/
theorem hostAccesses : Obligations.HostAccesses := by
  unfold Obligations.HostAccesses
  intro s a v wr d h onlyWord served fills
  have up (idle : served) (phase : d.pwr.phase = .load ∨ d.pwr.phase = .ready) : portUp d = true := portUp_late idle.1 phase
  have writable (phase : d.pwr.phase = .ready ∨ d.pwr.phase = .load ∧ d.hlm.waithost = true) : bootLocked .bank true d = false :=
    phase.elim (fun ready => bootLocked_ready ready _ _) (fun image => bootLocked_image image.1 image.2)
  have late (phase : d.pwr.phase = .ready ∨ d.pwr.phase = .load ∧ d.hlm.waithost = true) :
      d.pwr.phase = .load ∨ d.pwr.phase = .ready := phase.symm.imp_left And.left
  refine ⟨fun early => ⟨idles_of_run _ (exec_registerWrite a v s) (serveNow_down (portUp_early early)),
      idles_of_run _ (exec_dataPortAccess wr s) (serveNow_down (portUp_early early))⟩,
    fun on busy room => ⟨changes_of_run _ (exec_registerWrite a v s) (serveNow_waits on busy room),
      changes_of_run _ (exec_dataPortAccess none s) (serveNow_waits on busy room)⟩, ?word, ?gap, ?data_word, ?data_read, ?data_gap⟩
  case word =>
    rintro ⟨idle, quiet, wf, phase⟩ inside on
    refine bringsAll_of_run _ (exec_registerWrite a v s) ?_
    rw [serveNow_bank_write idle (up idle (late phase)) (writable phase) inside on]
    refine ⟨?_, ?_⟩
    · exact wordStands_storeB (now := s.mt) (c := s.core.admits (.write a v)) wf quiet (by omega)
    · rw [Core.mapDev_dev, Device.hpsUpd, storeB_hps]
      exact served_write idle.2.1 idle.2.2.1
  case gap =>
    intro idle phase above below fresh
    have refused := serveNow_refused (a := a) (wr := some v) (now := s.mt) idle (up idle phase) (.inl rfl)
      (hostAccess_gap above below)
    refine brings_of_run _ (exec_registerWrite a v s) _ refused ⟨?_, ?_⟩
    · have data : a.toNat / 4 * 4 ≠ hpsData := by
        rw [show hpsData = 0x3C0018 from rfl]
        omega
      refine (refused_write_hps idle fresh a v 1 s.mt).trans ?_
      rw [errAddr_plain data]
      rfl
    · exact refuseHead_causes _ _ _ _
  case data_word =>
    rintro ⟨idle, quiet, wf, phase⟩ narrow inside on
    refine bringsAll_of_run _ (exec_dataPortAccess (some v) s) ?_
    have bound : s.core.dev.hps.dptr.toNat < 0x200000 := inside
    rw [serveNow_data_write idle (up idle (late phase)) (writable phase) narrow inside on]
    refine ⟨?_, ?_⟩
    · exact wordStands_storeB (now := s.mt) (c := s.core.admits (.write (w32 hpsData) v)) wf quiet (by omega)
    · rw [Core.mapDev_dev, Core.mapDev_dev, Device.hpsUpd, dptrStep, Device.hpsUpd]
      dsimp only
      rw [storeB_hps]
      exact congrArg (fun h : Hps => { h with dptr := h.dptr + 4, half := none }) (served_write idle.2.1 idle.2.2.1)
  case data_read =>
    intro idle ready first narrow inside on
    refine brings_of_run _ (exec_dataPortAccess none s) _
      (serveNow_data_read idle (up idle (.inr ready)) (bootLocked_ready ready _ _) first narrow inside on) ?_
    rw [Device.hpsUpd, dptrStep, Device.hpsUpd]
    dsimp only
    rw [loadB_hps]
    exact congrArg (fun h : Hps => { h with
      dptr := h.dptr + 4, half := none, dout := w32 (s.core.ram.bankRead 4 (s.core.dev.hps.dptr.toNat / 4 * 4)) })
      (served_write idle.2.1 idle.2.2.1)
  case data_gap =>
    intro idle phase above below fresh
    have refused := serveNow_refused (a := w32 hpsData) (wr := some v) (now := s.mt) idle (up idle phase) (.inl rfl)
      ((hostAccess_data hpsData_word).trans (dataAccess_gap above below))
    refine brings_of_run _ (exec_dataPortAccess (some v) s) _ refused ⟨?_, ?_⟩
    · refine (refused_write_hps idle fresh (w32 hpsData) v 7 s.mt).trans ?_
      rw [errAddr_dptr]
      rfl
    · exact refuseHead_causes _ _ _ _

end Machine

end Sys2Proof

namespace Sys2Proof

namespace Machine

theorem exec_write (a : Word) (l : List Word) (s : State) : exec (.write a l) s = s.runDev (qspiWrite a l) := rfl
theorem exec_read (a : Word) (n : Nat) (s : State) : exec (.read a n) s = s.run (qspiRead a n) := rfl
theorem exec_rdsr (s : State) : exec .rdsr s =
    s.runDev (fun _ d => if portOn false d then d.hpsUpd (fun h => { h with rdsr := rdsrByte d }) else d) := rfl
theorem exec_proto (why : ProtoError) (s : State) : exec (.proto why) s =
    s.runDev (fun now d => if portOn false d then protoEnd why now d else d) := rfl
theorem exec_paddrHiWrite (hi : BitVec 16) (s : State) : exec (.paddrHiWrite hi) s = s.runDev (parWrite 1 hi) := rfl
theorem exec_pdataLoWrite (hpa : Byte) (v : BitVec 16) (s : State) :
    exec (.pdataLoWrite hpa v) s = s.runDev (parWrite hpa v) := rfl
theorem exec_pdataHiWrite (v : BitVec 16) (s : State) : exec (.pdataHiWrite v) s = s.runDev (parWrite 3 v) := rfl
theorem exec_pdataHiRead (hpa : Byte) (s : State) : exec (.pdataHiRead hpa) s = s.runDev (fun _ => parRead hpa) := rfl
theorem exec_parallelReadComplete (s : State) : exec .parallelReadComplete s = s.run parallelComplete := rfl
theorem exec_accessTimeout (s : State) : exec .accessTimeout s = s.runDev accessTimeout := rfl

section

variable {a v w : Word} {l : List Word} {n now : Nat} {d : Device} {c : Core}

/-! ## Quad-SPI writes and protocol errors (R400, R402) -/

theorem qspiWrite_off (off : portOn false d = false) : qspiWrite a l now d = d := by
  rw [qspiWrite, off, Bool.not_false, if_pos rfl]

theorem qspiWrite_on (on : portOn false d = true) : qspiWrite a l now d =
    if fld a 1 0 ≠ 0 then protoError 2 now d else postAll now l a d := by
  rw [qspiWrite, on, Bool.not_true, if_neg Bool.false_ne_true]

/-- R400, R404: the address after one that is not the data port's. -/
theorem nextAddr_of_below (below : a.toNat + 4 ≤ 0x3C0000) : nextAddr a = a + 4 := by
  have other : a.toNat / 4 * 4 ≠ hpsData := by
    rw [show hpsData = 0x3C0018 from rfl]
    omega
  exact if_neg other

theorem posted_write (h : Hps) (a v : Word) : ({ h with q := h.q ++ [.write a v] } : Hps).posted = h.posted + 1 := by
  rw [Hps.posted, Hps.posted, List.filter_append, List.length_append]
  rfl

/-- R402: two words are posted at rising addresses. -/
theorem postAll_two (below : a.toNat + 8 ≤ 0x3C0000) (room : d.hps.posted < 15) : postAll now [v, w] a d =
    d.hpsUpd (fun h => { h with q := h.q ++ [.write a v, .write (a + 4) w] }) := by
  have more : (d.hpsUpd (fun h => { h with q := h.q ++ [.write a v] })).hps.posted < 16 := by
    rw [Device.hpsUpd, posted_write]
    omega
  rw [postAll, post_room (by omega), nextAddr_of_below (by omega), postAll, post_room more, postAll]
  simp [Device.hpsUpd]

/-- R402: a word that finds sixteen waiting is dropped. -/
theorem post_full (full : 16 ≤ d.hps.posted) :
    post a v now d = raiseHps 2 0 now (d.hpsUpd (fun h => { h with wovf := true })) := if_neg (Nat.not_lt.mpr full)

/-- R400, R428: a protocol error sets its flag and is recorded. -/
theorem protoError_flags (arg now : Nat) (d : Device) : (protoError arg now d).hps = { d.hps with proto := true } ∧
    causes 243 (protoError arg now d) = causes 243 d + 1 :=
  ⟨rfl, causes_raise (by decide) 2 0x04 3 arg now _⟩

theorem qspiOp_unlisted {b : Byte} (unlisted : b ≠ 0x02 ∧ b ≠ 0x0B ∧ b ≠ 0x05) : qspiOp b = none := by
  obtain ⟨write, read, rdsr⟩ := unlisted
  have apart {x : Byte} (other : b ≠ x) : b.toNat ≠ x.toNat := fun same => other (BitVec.eq_of_toNat_eq same)
  unfold qspiOp
  split
  · exact absurd ‹_› (apart write)
  · exact absurd ‹_› (apart read)
  · exact absurd ‹_› (apart rdsr)
  · rfl

/-- R400: a transaction that no listed command byte explains ends in a protocol error. -/
theorem protoEnd_errs {why : ProtoError} (unlisted : ∀ b : Byte, why = .command b → b ≠ 0x02 ∧ b ≠ 0x0B ∧ b ≠ 0x05) :
    ∃ arg, protoEnd why now d = protoError arg now d := by
  cases why with
  | command b =>
    refine ⟨1, ?_⟩
    rw [protoEnd, qspiOp_unlisted (unlisted b rfl)]
    rfl
  | alignment => exact ⟨2, rfl⟩
  | midWord => exact ⟨3, rfl⟩

theorem protoEnd_listed {b : Byte} (listed : (qspiOp b).isSome = true) : protoEnd (.command b) now d = d := if_pos listed

/-! ## Quad-SPI reads (R400, R401) -/

theorem qspiRead_off (off : portOn false c.dev = false) : qspiRead a n now c = c := by
  rw [qspiRead, off, Bool.not_false, if_pos rfl]

theorem qspiRead_misaligned (on : portOn false c.dev = true) (odd : fld a 1 0 ≠ 0) :
    qspiRead a n now c = c.mapDev (protoError 2 now) := by
  rw [qspiRead, on, Bool.not_true, if_neg Bool.false_ne_true, if_pos odd]

/-- R401: a read of one word waits in an idle port. -/
def Device.reads (a : Word) (d : Device) : Device := d.hpsUpd (fun h => { h with rdOut := [], q := [.read a true] })

theorem qspiRead_one (on : portOn false c.dev = true) (aligned : fld a 1 0 = 0) (free : c.dev.hps.q = []) :
    qspiRead a 1 now c =
      (if c.dev.hps.heldAt.isSome || c.dev.turn.wrote then c.mapDev (Device.reads a)
        else drainReads now 1 (c.mapDev (Device.reads a))).mapDev (Device.hpsUpd waitByte) := by
  have queued : c.mapDev (Device.hpsUpd (fun h => { h with rdOut := [], q := h.q.map HostAcc.leave ++ readQueue 1 a })) =
      c.mapDev (Device.reads a) := by
    rw [Core.mapDev, Core.mapDev, Device.reads, Device.hpsUpd, Device.hpsUpd, free]
    rfl
  rw [qspiRead, on, Bool.not_true, if_neg Bool.false_ne_true, if_neg (not_not.mpr aligned)]
  dsimp only
  rw [queued]
  rfl

/-- R401: the one read that waits is serviced. -/
theorem drainReads_one : drainReads now 1 (c.mapDev (Device.reads a)) = serveHead now (c.mapDev (Device.reads a)) := by
  rw [drainReads]
  dsimp only [Device.reads, Core.mapDev, Device.hpsUpd]
  split
  · rfl
  · rw [drainReads]

theorem waitByte_done {h : Hps} (done : h.q = []) : waitByte h = h := by
  rw [waitByte, done]
  rfl

theorem word_of_aligned (aligned : fld a 1 0 = 0) : a.toNat / 4 * 4 = a.toNat := by
  have low : a.toNat % 4 = 0 := aligned
  omega

theorem errAddr_aligned (aligned : fld a 1 0 = 0) : a &&& 0xFFFF_FFFC = a := by
  have mask : ∀ i < 32, 2 ≤ i → (0xFFFF_FFFC : Word).getLsbD i = true := by decide
  apply BitVec.eq_of_getLsbD_eq
  intro i hi
  rw [BitVec.getLsbD_and]
  by_cases low : i ≤ 1
  · rw [show a.getLsbD i = false from bitOf_inside aligned (Nat.zero_le i) low, Bool.false_and]
  · rw [mask i hi (by omega), Bool.and_true]

/-- R401: the read of a word in a bank that is on. -/
theorem qspiRead_bank (on : portOn false c.dev = true) (aligned : fld a 1 0 = 0) (inside : a.toNat < 0x200000)
    (ready : c.dev.pwr.phase = .ready) (first : c.dev.turn.wrote = false) (free : c.dev.hps.q = [])
    (unheld : c.dev.hps.heldAt = none) (bank : (c.dev.mem.bank.at (bankOf a.toNat)).st = .on) :
    qspiRead a 1 now c = c.mapDev (fun d => (loadB a.toNat now (d.reads a)).hpsUpd (fun h =>
      waitByte (delivered (.read a true) false (w32 (c.ram.bankRead 4 a.toNat)) h))) := by
  have ok := hostAccess_bank_read (now := now) (c := c.mapDev (Device.reads a)) inside (bootLocked_ready ready _ _) bank
  rw [word_of_aligned aligned] at ok
  have served : serveHead now (c.mapDev (Device.reads a)) = _ :=
    serveHead_ok (x := .read a true) (l := []) rfl rfl ok rfl
  have immediate : (c.dev.hps.heldAt.isSome || c.dev.turn.wrote) = false := by
    rw [unheld, first]
    rfl
  rw [qspiRead_one on aligned free, immediate, if_neg Bool.false_ne_true, drainReads_one, served, Core.mapDev_ram]
  dsimp only [Core.mapDev, Device.hpsUpd]

/-- R401, R406: the read of a word in a bank that is off. -/
theorem qspiRead_bank_off (on : portOn false c.dev = true) (aligned : fld a 1 0 = 0) (inside : a.toNat < 0x200000)
    (ready : c.dev.pwr.phase = .ready) (first : c.dev.turn.wrote = false) (free : c.dev.hps.q = [])
    (unheld : c.dev.hps.heldAt = none) (bank : (c.dev.mem.bank.at (bankOf a.toNat)).st = .off) :
    qspiRead a 1 now c = c.mapDev (fun d => (refuseHead (.read a true) 4 now (d.reads a)).hpsUpd waitByte) := by
  have err := hostAccess_bank_off (now := now) (x := none) (c := c.mapDev (Device.reads a)) inside (bootLocked_ready ready _ _) bank
  have refused : serveHead now (c.mapDev (Device.reads a)) = _ := serveHead_err (x := .read a true) (l := []) rfl rfl err
  have immediate : (c.dev.hps.heldAt.isSome || c.dev.turn.wrote) = false := by
    rw [unheld, first]
    rfl
  rw [qspiRead_one on aligned free, immediate, if_neg Bool.false_ne_true, drainReads_one, refused]
  dsimp only [Core.mapDev]

/-- R401, R406: the port after the refusal of the one read that it held. -/
theorem refused_read_hps (fresh : d.hps.berr = false) (aligned : fld a 1 0 = 0) (inside : a.toNat < 0x200000) :
    ((refuseHead (.read a true) 4 now (d.reads a)).hpsUpd waitByte).hps = { d.hps with
      q := [], heldAt := none, dout := 0, rdOut := [(0x5A, 0)], berr := true, berrInfo := 4, berrAddr := a } := by
  have other : a.toNat / 4 * 4 ≠ hpsData := by
    rw [show hpsData = 0x3C0018 from rfl]
    omega
  rw [Device.hpsUpd]
  dsimp only
  rw [refuseHead_hps (d := d.reads a) fresh, HostAcc.addr, errAddr_plain other, errAddr_aligned aligned, waitByte_done rfl]
  rfl

theorem causes_hpsUpd (k : Nat) (f : Hps → Hps) (d : Device) : causes k (d.hpsUpd f) = causes k d := rfl

/-! ## RDSR (R402) -/

theorem rdsrByte_toNat (few : d.hps.posted ≤ 16) : (rdsrByte d).toNat = 16 - d.hps.posted + (if d.hps.berr then 32 else 0) +
    (if d.key.job.isSome then 64 else 0) + (if d.evc.evtLow then 128 else 0) := by
  have low : shB 5 d.hps.berr ≤ 32 ∧ shB 6 d.key.job.isSome ≤ 64 ∧ shB 7 d.evc.evtLow ≤ 128 := by
    refine ⟨?_, ?_, ?_⟩ <;> unfold shB <;> split <;> decide
  rw [rdsrByte, BitVec.toNat_ofNat, Nat.mod_eq_of_lt (by omega)]
  rfl

/-! ## The parallel bus (R403, R404) -/

variable {hpa : Byte} {lo hi : BitVec 16}

theorem parWrite_off (off : portOn true d = false) : parWrite hpa lo now d = d := by
  rw [parWrite, off, Bool.not_false, if_pos rfl]

theorem parRead_off (off : portOn true d = false) : parRead hpa d = d := by
  unfold parRead
  rw [off, Bool.not_false, if_pos rfl]

theorem parWrite_on (on : portOn true d = true) : parWrite hpa lo now d =
    match hpa.toNat with
    | 0 => d.hpsUpd (fun h => { h with paddr := BitVec.ofNat 16 (fld h.paddr 31 16) ++ lo })
    | 1 => paddrWrite lo d
    | 2 => d.hpsUpd (fun h => { h with pwlo := lo })
    | 3 => pdataWrite lo now d
    | 5 => d.hpsUpd (fun h => { h with pctl := BitVec.ofNat 2 (fld lo 1 0) })
    | _ => d := by
  unfold parWrite
  rw [on]
  exact if_neg (by decide)

/-- R403: the word that a read cycle returns. -/
def Device.shown (v : BitVec 16) (d : Device) : Device := d.hpsUpd (fun h => { h with hpd := v })

theorem parRead_on (on : portOn true d = true) : parRead hpa d =
    match hpa.toNat with
    | 0 => d.shown (BitVec.ofNat 16 (fld d.hps.paddr 15 0))
    | 1 => d.shown (BitVec.ofNat 16 (fld d.hps.paddr 31 16))
    | 2 => d.shown (if d.hps.rdy then BitVec.ofNat 16 (fld d.hps.prd 15 0) else 0)
    | 3 => pdataRead d
    | 4 => d.shown (parStat d)
    | 5 => d.shown (BitVec.ofNat 16 d.hps.pctl.toNat)
    | _ => d.shown 0 := by
  unfold parRead
  rw [on, Bool.not_true, if_neg Bool.false_ne_true]
  rfl

theorem parWrite_other (on : portOn true d = true) (other : hpa.toNat = 4 ∨ 6 ≤ hpa.toNat) : parWrite hpa lo now d = d := by
  rw [parWrite_on on]
  split
  case h_6 => rfl
  all_goals omega

theorem parRead_other (on : portOn true d = true) (other : 6 ≤ hpa.toNat) : parRead hpa d = d.shown 0 := by
  rw [parRead_on on]
  split
  case h_7 => rfl
  all_goals omega

/-- R403: PSTAT is the RDSR byte, and above it the flags of the read data. -/
theorem parStat_eq (few : d.hps.posted ≤ 16) : parStat d = BitVec.ofNat 16 (16 - d.hps.posted + (if d.hps.berr then 32 else 0) +
    (if d.key.job.isSome then 64 else 0) + (if d.evc.evtLow then 128 else 0) + (if d.hps.rdy then 256 else 0) +
    (if d.hps.rerr then 512 else 0)) := by
  rw [parStat, rdsrByte_toNat few]
  rfl

/-- R404: a parallel read that ends alone in the port. -/
theorem delivered_start {x : Word} {h : Hps} (head : h.q = [.start x]) (v : Word) : delivered (.start x) false v h =
    { h with q := [], heldAt := none, dout := v, prd := v, rerr := false, rdy := true } := by
  rw [delivered, head]
  rfl

theorem fld_low16 (a : Word) : fld a 15 0 = a.toNat % 65536 := rfl

theorem fld_high16 (a : Word) : fld a 31 16 = a.toNat / 65536 := by
  rw [fld, Nat.shiftRight_eq_div_pow, Nat.mod_eq_of_lt]
  have := a.isLt
  omega

theorem toNat_highHalf (a : Word) (lo : BitVec 16) :
    (BitVec.ofNat 16 (fld a 31 16) ++ lo).toNat = a.toNat / 65536 * 65536 + lo.toNat := by
  have := a.isLt
  rw [BitVec.toNat_append, ← Nat.shiftLeft_add_eq_or_of_lt lo.isLt, fld_high16, BitVec.toNat_ofNat, Nat.shiftLeft_eq]
  omega

theorem paddrWrite_starts (hi : BitVec 16) (d : Device) : paddrWrite hi d =
    let pa : Word := hi ++ BitVec.ofNat 16 (d.hps.paddr.toNat % 65536)
    d.hpsUpd (fun h => { h with
      paddr := pa, q := if bitOf h.pctl 1 then h.q ++ [.start pa] else h.q, rdy := h.rdy && !bitOf h.pctl 1 }) := by
  unfold paddrWrite
  dsimp only [Device.hpsUpd]
  cases pref : bitOf d.hps.pctl 1 with
  | true => simp [startRead, Device.hpsUpd, fld_low16]
  | false => simp [fld_low16]

/-- R403: PDATA_HI posts the word, and the address goes on where AINC is set. -/
theorem pdataWrite_posts (room : d.hps.posted < 16) (below : d.hps.paddr.toNat + 4 ≤ 0x3C0000) : pdataWrite hi now d =
    d.hpsUpd (fun h => { h with
      q := h.q ++ [.write h.paddr (hi ++ h.pwlo)], paddr := if bitOf h.pctl 0 then h.paddr + 4 else h.paddr }) := by
  rw [pdataWrite, post_room room]
  dsimp only [Device.hpsUpd, ainc]
  rw [nextAddr_of_below below]
  split <;> rfl

theorem pdataRead_empty (empty : d.hps.rdy = false) : pdataRead d = d.shown 0 := by
  rw [pdataRead, empty, Bool.not_false, if_pos rfl]
  rfl

theorem pdataRead_plain (full : d.hps.rdy = true) (plain : d.hps.pctl = 0) :
    pdataRead d = d.shown (BitVec.ofNat 16 (fld d.hps.prd 31 16)) := by
  have bit (i : Nat) : bitOf (0 : BitVec 2) i = false := BitVec.getLsbD_zero
  rw [pdataRead, full, Bool.not_true, if_neg Bool.false_ne_true]
  dsimp only [Device.hpsUpd, ainc]
  rw [plain, bit, if_neg Bool.false_ne_true]
  dsimp only
  rw [bit, if_neg Bool.false_ne_true, ← plain]
  rfl

theorem pdataRead_next (full : d.hps.rdy = true) (both : d.hps.pctl = 3) (below : d.hps.paddr.toNat + 4 ≤ 0x3C0000) :
    pdataRead d = d.hpsUpd (fun h => { h with
      hpd := BitVec.ofNat 16 (fld h.prd 31 16), paddr := h.paddr + 4, q := h.q ++ [.start (h.paddr + 4)], rdy := false }) := by
  have zero : bitOf (3 : BitVec 2) 0 = true := by decide
  have one : bitOf (3 : BitVec 2) 1 = true := by decide
  rw [pdataRead, full, Bool.not_true, if_neg Bool.false_ne_true]
  dsimp only [Device.hpsUpd, ainc, startRead]
  rw [both, zero, if_pos rfl]
  dsimp only
  rw [one, if_pos rfl, nextAddr_of_below below]

/-- R404: the read at the head completes, in a bank that is on. -/
theorem parallelComplete_bank {x : Word} (head : c.dev.hps.q = [.start x]) (aligned : x.toNat % 4 = 0)
    (inside : x.toNat < 0x200000) (ready : c.dev.pwr.phase = .ready)
    (bank : (c.dev.mem.bank.at (bankOf x.toNat)).st = .on) : parallelComplete now c =
      c.mapDev (fun d => (loadB x.toNat now d).hpsUpd (delivered (.start x) false (w32 (c.ram.bankRead 4 x.toNat)))) := by
  have ok := hostAccess_bank_read (now := now) (c := c) inside (bootLocked_ready ready _ _) bank
  rw [word_of_aligned aligned] at ok
  have served : serveHead now c = _ := serveHead_ok (x := .start x) head rfl ok rfl
  simp only [parallelComplete, head]
  exact served

theorem parallelComplete_idle (other : ∀ x r, c.dev.hps.q ≠ .start x :: r) : parallelComplete now c = c := by
  unfold parallelComplete
  split
  · exact absurd ‹_› (other _ _)
  · rfl

/-! ## Accesses held for 20 us (R407) -/

theorem accessTimeout_late {t : Nat} {x : HostAcc} {l : List HostAcc} (head : d.hps.q = x :: l) (held : d.hps.heldAt = some t)
    (alone : d.dbg.acc = none) (late : t + 160000 ≤ now) : accessTimeout now d = refuseHead x 6 now d := by
  have over' : holdOver (some t) now = true := decide_eq_true late
  have none : (refuseHead x 6 now d).dbg.acc = none := alone
  simp only [accessTimeout, head, held, over', if_true, none]

theorem accessTimeout_early {t : Nat} {x : HostAcc} {l : List HostAcc} (head : d.hps.q = x :: l) (held : d.hps.heldAt = some t)
    (alone : d.dbg.acc = none) (early : now < t + 160000) : accessTimeout now d = d := by
  have within : holdOver (some t) now = false := decide_eq_false (Nat.not_le.mpr early)
  simp only [accessTimeout, head, held, within, Bool.false_eq_true, if_false, alone]

end

end Machine

end Sys2Proof

namespace Sys2Proof

namespace Machine

/-- Settles O54: each row of the two ports has one equation per case. -/
theorem hostPort : Obligations.HostPort := by
  unfold Obligations.HostPort
  intro s a v w l why hpa lo hi d h shows
  have parShows (on : portOn true d = true) {x : BitVec 16} (reads : parRead hpa d = d.shown x) : shows x :=
    changes_of_runDev _ (exec_pdataHiRead hpa s) reads
  have listed (b : Byte) (op : (qspiOp b).isSome = true) : Idles (.proto (.command b)) s := by
    refine idles_of_runDev _ (exec_proto (.command b) s) ?_
    rw [protoEnd_listed op, ite_self]
  refine ⟨fun off => ⟨idles_of_runDev _ (exec_write a l s) (qspiWrite_off off), idles_of_run _ (exec_read a 1 s) (qspiRead_off off),
      idles_of_runDev _ (exec_rdsr s) (if_neg (Bool.eq_false_iff.mp off)),
      idles_of_runDev _ (exec_proto why s) (if_neg (Bool.eq_false_iff.mp off))⟩,
    fun off => ⟨idles_of_runDev _ (exec_paddrHiWrite hi s) (parWrite_off off),
      idles_of_runDev _ (exec_pdataLoWrite hpa lo s) (parWrite_off off),
      idles_of_runDev _ (exec_pdataHiWrite hi s) (parWrite_off off), idles_of_runDev _ (exec_pdataHiRead hpa s) (parRead_off off)⟩,
    ?posts, ?drops, ?misaligned, ?broken, listed _ rfl, listed _ rfl, listed _ rfl, ?waits, ?reads, ?rdsr, ?parallel,
    fun other => idles_of_run _ (exec_parallelReadComplete s) (parallelComplete_idle other), ?completes, ?held⟩
  case posts =>
    intro on aligned below room
    refine changes_of_runDev _ (exec_write a [v, w] s) ?_
    rw [qspiWrite_on on, if_neg (not_not.mpr aligned), postAll_two below room]
  case drops =>
    intro on aligned full
    refine brings_of_runDev _ (exec_write a [v] s) ?_
    rw [qspiWrite_on on, if_neg (not_not.mpr aligned), postAll, post_full full, postAll]
    exact ⟨rfl, causes_raise (by decide) 2 0x04 2 0 s.mt _⟩
  case misaligned =>
    intro on odd
    refine ⟨brings_of_runDev _ (exec_write a l s) ?_,
      brings_of_run _ (exec_read a 1 s) _ (qspiRead_misaligned on odd) (protoError_flags 2 s.mt d)⟩
    rw [qspiWrite_on on, if_pos odd]
    exact protoError_flags 2 s.mt d
  case broken =>
    intro on unlisted
    obtain ⟨arg, errs⟩ := protoEnd_errs (d := s.core.dev) (now := s.mt) unlisted
    refine brings_of_runDev _ (exec_proto why s) ?_
    rw [if_pos (show portOn false s.core.dev = true from on), errs]
    exact protoError_flags arg s.mt d
  case waits =>
    intro on aligned wrote free
    refine changes_of_run _ (exec_read a 1 s) ?_
    have later : (s.core.dev.hps.heldAt.isSome || s.core.dev.turn.wrote) = true := by
      rw [show s.core.dev.turn.wrote = true from wrote, Bool.or_true]
    rw [qspiRead_one on aligned free, later, if_pos rfl]
    rfl
  case reads =>
    intro on aligned inside ready first free unheld b
    refine ⟨fun bank => brings_of_run _ (exec_read a 1 s) _ (qspiRead_bank on aligned inside ready first free unheld bank) ?_,
      fun bank fresh => brings_of_run _ (exec_read a 1 s) _ (qspiRead_bank_off on aligned inside ready first free unheld bank) ?_⟩
    · rw [Device.hpsUpd]
      dsimp only
      rw [loadB_hps, waitByte_done rfl]
      exact congrArg (fun h : Hps => { h with
        rdOut := [(0xA5, w32 (s.core.ram.bankRead 4 a.toNat))], dout := w32 (s.core.ram.bankRead 4 a.toNat) })
        (served_write free unheld)
    · have refused := refused_read_hps (d := s.core.dev) (now := s.mt) fresh aligned inside
      refine ⟨congrArg Hps.rdOut refused, congrArg Hps.q refused, congrArg Hps.berr refused, congrArg Hps.berrInfo refused,
        congrArg Hps.berrAddr refused, congrArg Hps.dout refused, ?_⟩
      rw [causes_hpsUpd, refuseHead_causes]
      rfl
  case rdsr =>
    intro on few
    refine brings_of_runDev _ (exec_rdsr s) ?_
    rw [if_pos (show portOn false s.core.dev = true from on)]
    exact ⟨rdsrByte_toNat few, rfl⟩
  case parallel =>
    intro on
    refine ⟨changes_of_runDev _ (exec_paddrHiWrite hi s) ?_, ?lo_write, ?buffer, ?control, ?unwritable, ?lo_read, ?hi_read,
      ?data_lo, ?status, ?pctl_read, ?unread, ?data_write, ?empty, ?plain, ?next⟩
    · rw [parWrite_on on]
      exact paddrWrite_starts hi s.core.dev
    case lo_write =>
      rintro rfl
      refine brings_of_runDev _ (exec_pdataLoWrite 0 lo s) ?_
      rw [parWrite_on on]
      exact ⟨rfl, toNat_highHalf h.paddr lo, rfl⟩
    case buffer =>
      rintro rfl
      exact changes_of_runDev _ (exec_pdataLoWrite 2 lo s) (parWrite_on on)
    case control =>
      rintro rfl
      exact changes_of_runDev _ (exec_pdataLoWrite 5 lo s) (parWrite_on on)
    case unwritable =>
      intro which
      exact idles_of_runDev _ (exec_pdataLoWrite hpa lo s) (parWrite_other on (which.imp_left (congrArg BitVec.toNat)))
    case lo_read =>
      rintro rfl
      exact parShows on (parRead_on on)
    case hi_read =>
      rintro rfl
      rw [← fld_high16]
      exact parShows on (parRead_on on)
    case data_lo =>
      rintro rfl
      exact parShows on (parRead_on on)
    case status =>
      rintro rfl few
      exact parShows on ((parRead_on on).trans (congrArg (fun x => d.shown x) (parStat_eq few)))
    case pctl_read =>
      rintro rfl
      exact parShows on (parRead_on on)
    case unread =>
      intro above
      exact parShows on (parRead_other on above)
    case data_write =>
      intro room below
      refine changes_of_runDev _ (exec_pdataHiWrite hi s) ?_
      rw [parWrite_on on]
      exact pdataWrite_posts room below
    case empty =>
      rintro rfl empty
      exact parShows on ((parRead_on on).trans (pdataRead_empty empty))
    case plain =>
      rintro rfl full plain
      exact parShows on ((parRead_on on).trans (pdataRead_plain full plain))
    case next =>
      rintro rfl full both below
      exact changes_of_runDev _ (exec_pdataHiRead 3 s) ((parRead_on on).trans (pdataRead_next full both below))
  case completes =>
    intro x head aligned inside ready bank
    refine brings_of_run _ (exec_parallelReadComplete s) _ (parallelComplete_bank head aligned inside ready bank) ?_
    rw [Device.hpsUpd, loadB_hps, delivered_start head]
    exact ⟨rfl, rfl, rfl, rfl⟩
  case held =>
    intro r t head held alone
    refine ⟨fun late => brings_of_runDev _ (exec_accessTimeout s) ?_,
      fun early => idles_of_runDev _ (exec_accessTimeout s) (accessTimeout_early head held alone early)⟩
    rw [accessTimeout_late head held alone late]
    refine ⟨congrArg List.tail head, rfl, rfl, fun fresh => ?_, refuseHead_causes _ _ _ _⟩
    rw [refuseHead_hps fresh]
    rfl

end Machine

end Sys2Proof

namespace Sys2Proof

namespace Machine

/-! ## Keyed commands: from the row to what its block does (R409 to R414) -/

/-- R409: a keyed command's row is the processing of its block. -/
theorem exec_of_blockOf {i : Instr} {b : Block} {ok : Bool} (row : blockOf i = some (b, ok)) (s : State) :
    exec i s = s.run (keyedCommand b ok) := by
  unfold blockOf at row
  split at row
  case h_10 => cases row
  all_goals
    obtain ⟨rfl, rfl⟩ := Prod.mk.inj (Option.some.inj row)
    rfl

theorem exec_lockoutEnd (s : State) : exec .lockoutEnd s = s.runDev lockoutEnds := rfl

/-- R409: the block stands in the command buffer. -/
def Device.buffered (b : Block) (d : Device) : Device := { d with key := { d.key with buf := b } }

/-- R411, R412: the block passed steps 1 to 6: the counter takes its value. -/
def Device.counted (b : Block) (d : Device) : Device :=
  { d with keel := d.keel.setCounter b.cnt, key := { d.key with buf := b, badmac := 0 } }

section

variable {b : Block} {ok : Bool} {now : Nat} {c : Core} {d : Device}

theorem blockCheck_buffered (b : Block) (d : Device) : blockCheck b (d.buffered b) = blockCheck b d := rfl

theorem cmdCheck_counted (b : Block) (ok : Bool) (d : Device) : cmdCheck b ok (d.counted b) = cmdCheck b ok d := rfl

theorem keyedCommand_busy (busy : c.dev.key.job ≠ none) :
    keyedCommand b ok now c = c.mapDev (fun d => { d with hps := { d.hps with cmdref := true } }) :=
  if_pos (Option.isSome_iff_ne_none.mpr busy)

theorem keyedCommand_free (free : c.dev.key.job = none) :
    keyedCommand b ok now c = runBlock b ok now (c.mapDev (Device.buffered b)) := by
  rw [keyedCommand, free]
  rfl

/-- R411: a block that fails one of steps 1 to 6. -/
theorem keyedCommand_fails (free : c.dev.key.job = none) (fails : blockCheck b c.dev ≠ 0) : keyedCommand b ok now c =
    c.mapDev (fun d => cmdEnd b (blockCheck b c.dev) (blockCheck b c.dev == 6) now
      (if blockCheck b c.dev = 6 then badMac now (d.buffered b) else d.buffered b)) := by
  rw [keyedCommand_free free, runBlock]
  dsimp only
  rw [Core.mapDev_dev, blockCheck_buffered, if_pos fails]
  rfl

theorem runBlock_passes (pass : blockCheck b c.dev = 0) : runBlock b ok now (c.mapDev (Device.buffered b)) =
    let c' := c.mapDev (Device.counted b)
    if cmdCheck b ok c.dev ≠ 0 then c'.mapDev (cmdEnd b (cmdCheck b ok c.dev) true now)
    else (cmdAct b now c').mapDev (fun d => cmdEnd b (cmdResult b d) true now d) := by
  rw [runBlock]
  dsimp only
  rw [Core.mapDev_dev, blockCheck_buffered, if_neg (not_not.mpr pass)]
  have check : cmdCheck b ok ((c.mapDev (Device.buffered b)).mapDev (fun d => { d with
      keel := d.keel.setCounter b.cnt, key := { d.key with badmac := 0 } })).dev = cmdCheck b ok c.dev :=
    cmdCheck_counted b ok c.dev
  rw [check]
  rfl

/-- R411: a block that fails its command's own checks. -/
theorem keyedCommand_refused (free : c.dev.key.job = none) (pass : blockCheck b c.dev = 0) (fails : cmdCheck b ok c.dev ≠ 0) :
    keyedCommand b ok now c = c.mapDev (fun d => cmdEnd b (cmdCheck b ok c.dev) true now (d.counted b)) := by
  rw [keyedCommand_free free, runBlock_passes pass]
  dsimp only
  rw [if_pos fails]
  rfl

/-- R411: a block that is accepted acts. -/
theorem keyedCommand_acts (acc : accepted b ok c.dev) : keyedCommand b ok now c =
    (cmdAct b now (c.mapDev (Device.counted b))).mapDev (fun d => cmdEnd b (cmdResult b d) true now d) := by
  obtain ⟨free, pass, own⟩ := acc
  rw [keyedCommand_free free, runBlock_passes pass]
  dsimp only
  rw [if_neg (not_not.mpr own)]

/-! ### The end of a block (R414) -/

variable {res : Nat} {reached : Bool}

/-- R414: the end of a block changes the command port, the records and the free values alone. -/
theorem cmdEnd_changes (b : Block) (res : Nat) (reached : Bool) (now : Nat) (d : Device) :
    ∃ k e n, cmdEnd b res reached now d = { d with key := k, evc := e, free := n } ∧
      k.badmac = d.key.badmac ∧ k.lockEnd = d.key.lockEnd ∧ (reached = false → k.nonce = d.key.nonce) := by
  unfold cmdEnd raiseKey
  dsimp only
  cases reached with
  | false =>
    rw [Bool.and_false, if_neg Bool.false_ne_true]
    split
    · exact ⟨_, _, _, rfl, rfl, rfl, fun _ => rfl⟩
    · exact ⟨_, _, _, rfl, rfl, rfl, fun _ => rfl⟩
  | true =>
    split
    · split
      · exact ⟨_, _, _, rfl, rfl, rfl, fun h => absurd h (by decide)⟩
      · exact ⟨_, _, _, rfl, rfl, rfl, fun h => absurd h (by decide)⟩
    · split
      · exact ⟨_, _, _, rfl, rfl, rfl, fun h => absurd h (by decide)⟩
      · exact ⟨_, _, _, rfl, rfl, rfl, fun h => absurd h (by decide)⟩

/-- R414: what the end of a block leaves in the command port, and its record. -/
theorem cmdEnd_ended {d0 : Device} (buf : d.key.buf = b) (same : causes 242 d = causes 242 d0) :
    ended b res d0 (cmdEnd b res reached now d) := by
  have record (cause arg : Nat) (e : Device) (evc : e.evc = d.evc) :
      causes 242 d0 + 1 = causes 242 (raise 2 242 0x0D cause arg now e) := by
    rw [causes_raise (by decide), ← same]
    exact congrArg (fun x : Evc => (x.src.at (Fin.ofNat 256 242)).rcnt + 1) evc.symm
  unfold cmdEnd raiseKey
  dsimp only
  split
  · split
    · exact ⟨rfl, rfl, rfl, rfl, buf, record _ _ _ rfl⟩
    · exact ⟨rfl, rfl, rfl, rfl, buf, record _ _ _ rfl⟩
  · split
    · exact ⟨rfl, rfl, rfl, rfl, buf, record _ _ _ rfl⟩
    · exact ⟨rfl, rfl, rfl, rfl, buf, record _ _ _ rfl⟩

/-- R411: a bad MAC counts, and the eighth in a row locks the port out. -/
theorem badMac_key (now : Nat) (d : Device) : ∃ e, badMac now d = { d with evc := e, key := { d.key with
    badmac := min 8 (d.key.badmac + 1)
    lockEnd := if 7 ≤ d.key.badmac then some (now + 8000000000) else d.key.lockEnd } } := by
  unfold badMac
  dsimp only
  by_cases eighth : 7 ≤ d.key.badmac
  · rw [if_pos (by omega), if_pos eighth]
    exact ⟨_, rfl⟩
  · rw [if_neg (by omega), if_neg eighth]
    exact ⟨d.evc, rfl⟩

theorem setCounter_counter (v : DWord) (k : Keel) : (k.setCounter v).counter = v := by
  unfold Keel.setCounter Keel.counter
  exact Tab.at_put_same _ _ _

end

/-- R411, R414: an accepted block whose command acts on the blocks alone. -/
theorem brings_accepted {i : Instr} {b : Block} {ok : Bool} {s : State} {p : Device → Prop} (act : Device → Device)
    (row : blockOf i = some (b, ok)) (acc : accepted b ok s.core.dev) (acts : ∀ c, cmdAct b s.mt c = c.mapDev act)
    (buf : (act (s.core.dev.counted b)).key.buf = b)
    (record : causes 242 (act (s.core.dev.counted b)) = causes 242 s.core.dev)
    (brought : ∀ k e n, ended b (cmdResult b (act (s.core.dev.counted b))) s.core.dev
        { act (s.core.dev.counted b) with key := k, evc := e, free := n } →
      p { act (s.core.dev.counted b) with key := k, evc := e, free := n }) : Brings i s p := by
  refine brings_of_run _ (exec_of_blockOf row s) (fun d => cmdEnd b (cmdResult b (act (d.counted b))) true s.mt (act (d.counted b))) ?_ ?_
  · rw [keyedCommand_acts acc, acts]
    rfl
  · obtain ⟨k, e, n, changed, _⟩ := cmdEnd_changes b (cmdResult b (act (s.core.dev.counted b))) true s.mt (act (s.core.dev.counted b))
    have done := cmdEnd_ended (res := cmdResult b (act (s.core.dev.counted b))) (reached := true) (now := s.mt) buf record
    rw [changed] at done ⊢
    exact brought k e n done

end Machine

end Sys2Proof

namespace Sys2Proof

namespace Machine

/-! ## What the commands do (R415 to R420) -/

section

variable {cnt : DWord} {mac : BitVec 128} {args : List Word} {now : Nat} {c : Core} {d : Device}

theorem cmdAct_arm : cmdAct (Block.make 1 cnt args mac) now c = c.mapDev (armAct now) := by
  simp only [cmdAct, Block.make_opc (show 1 < 256 by decide)]
theorem cmdAct_disarm : cmdAct (Block.make 2 cnt args mac) now c = c.mapDev (dropPermit 2 now) := by
  simp only [cmdAct, Block.make_opc (show 2 < 256 by decide)]
theorem cmdAct_safecfg {a0 a1 a2 : Word} :
    cmdAct (Block.make 3 cnt [a0, a1, a2] mac) now c = c.mapDev (safecfgAct a0 a1 a2) := by
  simp only [cmdAct, Block.make_opc (show 3 < 256 by decide), Block.make_arg (show 0 < 9 by decide),
    Block.make_arg (show 1 < 9 by decide), Block.make_arg (show 2 < 9 by decide)]
  rfl
theorem cmdAct_storeload {a0 : Word} :
    cmdAct (Block.make 4 cnt [a0] mac) now c = storeloadAct (fld a0 1 0) now c := by
  simp only [cmdAct, Block.make_opc (show 4 < 256 by decide), Block.make_arg (show 0 < 9 by decide)]
  rfl
theorem cmdAct_fuse : cmdAct (Block.make 5 cnt args mac) now c = c.mapDev (fuseAct (Block.make 5 cnt args mac)) := by
  simp only [cmdAct, Block.make_opc (show 5 < 256 by decide)]
theorem cmdAct_dbgopen : cmdAct (Block.make 6 cnt args mac) now c =
    c.mapDev (checkResponse (wordsBits 128 (Block.make 6 cnt args mac).args) 1 now) := by
  simp only [cmdAct, Block.make_opc (show 6 < 256 by decide)]
theorem cmdAct_linkcfg {a0 a1 a2 a3 : Word} : cmdAct (Block.make 7 cnt [a0, a1, a2, a3] mac) now c =
    c.mapDev (queueKeyed (Fin.ofNat 32 (fld a0 4 0)) (BitVec.ofNat 8 (fld a0 15 8))
      (linkcfgBody (Block.make 7 cnt [a0, a1, a2, a3] mac))) := by
  simp only [cmdAct, Block.make_opc (show 7 < 256 by decide), Block.make_arg (show 0 < 9 by decide)]
  rfl
theorem cmdAct_keyroll {a0 : Word} : cmdAct (Block.make 8 cnt [a0] mac) now c = c.mapDev (keyrollAct (fld a0 1 0)) := by
  simp only [cmdAct, Block.make_opc (show 8 < 256 by decide), Block.make_arg (show 0 < 9 by decide)]
  rfl
theorem cmdAct_ctrseed : cmdAct (Block.make 9 cnt args mac) now c = c.mapDev (ctrseedAct cnt) := by
  simp only [cmdAct, Block.make_opc (show 9 < 256 by decide), Block.make_cnt]

theorem cmdResult_plain {opc : Nat} (small : opc < 256) (other : opc ≠ 6) (e : Device) :
    cmdResult (Block.make opc cnt args mac) e = 0 := by
  rw [cmdResult, Block.make_opc small, if_neg (fun both => other both.1)]

/-! ### ARM (R440) -/

theorem armAct_armed (armed : d.pwr.armed = true) : armAct now d = d := if_pos armed

theorem armAct_arms (unarmed : d.pwr.armed = false) : armAct now d =
    raise 2 241 0x0C 0x03 1 now { d with pwr := { d.pwr with armed := true, gate := true, permit := true } } :=
  if_neg (Bool.eq_false_iff.mp unarmed)

theorem armAct_key : (armAct now d).key = d.key := by
  unfold armAct
  split <;> rfl

theorem armAct_keel : (armAct now d).keel = d.keel := by
  unfold armAct
  split <;> rfl

theorem armAct_causes : causes 242 (armAct now d) = causes 242 d := by
  unfold armAct
  split
  · rfl
  · exact causes_raise_ne (by decide) _ _ _ _ _ _

/-! ### SAFECFG (R416) -/

/-- Fields that lie within the mask, or apart from it, of a masked write. -/
theorem fld_mergeBits {n : Nat} {m : BitVec n} {hi lo : Nat} {x : Bool} (bits : ∀ i, lo ≤ i → i ≤ hi → m.getLsbD i = x)
    (inside : hi < n) (old new : BitVec n) :
    fld (mergeBits m old new) hi lo = if x then fld new hi lo else fld old hi lo := by
  apply Nat.eq_of_testBit_eq
  intro i
  rw [apply_ite (Nat.testBit · i), testBit_fld, testBit_fld, testBit_fld]
  by_cases within : i < hi + 1 - lo
  · have bit := bits (lo + i) (by omega) (by omega)
    have size : lo + i < n := by omega
    rw [mergeBits, BitVec.getLsbD_or, BitVec.getLsbD_and, BitVec.getLsbD_and, BitVec.getLsbD_not, bit, decide_eq_true size]
    cases x with
    | true => simp
    | false => simp
  · simp [within]

/-- R416: the fields of CHN_SAFE that ARG2 names. -/
def safeMask (x y z : Bool) : Word := (if x then 3 else 0) ||| (if y then 0xF0 else 0) ||| (if z then 0x100 else 0)

theorem safeWrite_fields (v m old : Word) :
    fld (safeWrite v m old) 1 0 = (if bitOf m 0 then fld v 1 0 else fld old 1 0) ∧
    fld (safeWrite v m old) 7 4 = (if bitOf m 1 then fld v 7 4 else fld old 7 4) ∧
    fld (safeWrite v m old) 8 8 = (if bitOf m 2 then fld v 8 8 else fld old 8 8) := by
  have low : ∀ x y z : Bool, ∀ i < 2, (safeMask x y z).getLsbD i = x := by decide
  have middle : ∀ x y z : Bool, ∀ i < 8, 4 ≤ i → (safeMask x y z).getLsbD i = y := by decide
  have high : ∀ x y z : Bool, ∀ i < 9, 8 ≤ i → (safeMask x y z).getLsbD i = z := by decide
  rw [show safeWrite v m old = mergeBits (safeMask (bitOf m 0) (bitOf m 1) (bitOf m 2)) old v from rfl]
  exact ⟨fld_mergeBits (fun i _ hi => low _ _ _ i (by omega)) (by decide) old v,
    fld_mergeBits (fun i lo hi => middle _ _ _ i (by omega) lo) (by decide) old v,
    fld_mergeBits (fun i lo hi => high _ _ _ i (by omega) lo) (by decide) old v⟩

theorem safecfgAct_channels {a0 a1 a2 : Word} (channels : bitOf a0 31 = false) (o : Chan) :
    (safecfgAct a0 a1 a2 d).chn.at o =
      if fld a0 8 0 ≤ o.val ∧ o.val < fld a0 8 0 + fld a0 25 16 then
        { d.chn.at o with cfg := { (d.chn.at o).cfg with safe := safeWrite a1 a2 (d.chn.at o).cfg.safe } }
      else d.chn.at o := by
  rw [safecfgAct, show safeKind a0 = false from channels, if_neg Bool.false_ne_true]
  dsimp only
  rw [Tab.at_mapIdx]
  refine if_congr ?_ rfl rfl
  rw [Bool.and_eq_true, decide_eq_true_eq, decide_eq_true_eq]
  rfl

theorem safecfgAct_plain {a0 a1 a2 : Word} : (safecfgAct a0 a1 a2 d).key = d.key ∧ (safecfgAct a0 a1 a2 d).evc = d.evc := by
  unfold safecfgAct
  dsimp only
  split
  · exact ⟨rfl, rfl⟩
  · exact ⟨rfl, rfl⟩

/-! ### STORELOAD (R258) -/

theorem linkSafe_changes (o : Chan) (d : Device) : ∃ x w, linkSafe o d = { d with chn := x, glw := w } := by
  unfold linkSafe
  split
  · exact ⟨_, _, rfl⟩
  · exact ⟨d.chn, d.glw, rfl⟩

/-- R85: a disable changes channels, helm and link work alone. -/
theorem chanDisable_changes (o : Chan) (d : Device) : ∃ x h w, chanDisable o d = { d with chn := x, hlm := h, glw := w } := by
  unfold chanDisable
  split
  · dsimp only
    split
    · obtain ⟨x, h, stopped⟩ := stopProgram_changes o d
      obtain ⟨x', w, safe⟩ := linkSafe_changes o ((stopProgram o d).chnUpd o disableChannel)
      rw [safe, stopped]
      exact ⟨_, _, _, rfl⟩
    · obtain ⟨x', w, safe⟩ := linkSafe_changes o (d.chnUpd o disableChannel)
      rw [safe]
      exact ⟨_, _, _, rfl⟩
  · exact ⟨d.chn, d.hlm, d.glw, rfl⟩

theorem disableChannel_en (h : Channel) : (disableChannel h).cfg.en = false := front_en (ballSafe_front _)

theorem chanDisable_off (o : Chan) (d : Device) : ((chanDisable o d).chn.at o).cfg.en = false := by
  unfold chanDisable
  split
  · dsimp only
    rw [dropReq_chn, front_en (linkSafe_front o _ o), Device.chnUpd_at_same]
    exact disableChannel_en _
  · rename_i off
    exact Bool.eq_false_of_not_eq_true off

theorem chanDisable_others {o m : Chan} (other : o ≠ m) (d : Device) :
    ((chanDisable m d).chn.at o).cfg.en = (d.chn.at o).cfg.en := by
  unfold chanDisable
  split
  · dsimp only
    rw [dropReq_chn, front_en (linkSafe_front m _ o), Device.chnUpd_chn, Tab.at_upd_ne _ _ other]
    split
    · exact front_en (stopProgram_front m d o)
    · rfl
  · rfl

/-- R258: every channel is disabled, and channels, helm and link work alone change. -/
theorem disables_changes (d : Device) :
    ∃ x h w, forAll (fun n d => chanDisable n d) d = { d with chn := x, hlm := h, glw := w } := by
  refine forAll_keeps (fun e : Device => ∃ x h w, e = { d with chn := x, hlm := h, glw := w }) _ ?_ d ⟨d.chn, d.hlm, d.glw, rfl⟩
  rintro n _ ⟨x, h, w, rfl⟩
  exact chanDisable_changes n _

theorem disables_off (d : Device) (o : Chan) : ((forAll (fun n d => chanDisable n d) d).chn.at o).cfg.en = false := by
  refine forAll_each (fun o (d : Device) => (d.chn.at o).cfg.en = false) _ ?own ?others o d
  case own => exact chanDisable_off
  case others => exact fun o m d other off => (chanDisable_others other.symm d).trans off

/-! ### Fuses and keys (R418, R419) -/

theorem fuseAct_prov {a0 : Word} (col : fld a0 7 0 = 9) :
    fuseAct (Block.make 5 cnt [a0] mac) d = { d with fuses := { d.fuses with provC := 7 } } := by
  have sel : fuseSel ((Block.make 5 cnt [a0] mac).arg 0) = 9 := by
    rw [Block.make_arg (by decide)]
    exact col
  generalize Block.make 5 cnt [a0] mac = b at sel
  unfold fuseAct
  dsimp only
  rw [sel, if_neg (by decide)]
  rfl

/-- R419: the slot that a thermometer of three bits selects. -/
theorem thermo_three (t : Tab (BitVec 3) 3) : thermo t =
    if t.at 2 ≠ 0 then 3 else if t.at 1 ≠ 0 then 2 else if t.at 0 ≠ 0 then 1 else 0 := by
  unfold thermo
  rw [show fins 3 = [0, 1, 2] by decide]
  simp only [List.foldl_cons, List.foldl_nil, bne_iff_ne, ite_not]
  rfl

theorem ckslot_val (f : Fuses) : f.ckslot.val = thermo f.ckT := by
  rw [Fuses.ckslot, Fin.val_ofNat, thermo_three]
  split
  · rfl
  · split
    · rfl
    · split <;> rfl

/-- R419: burning a thermometer up to a slot above the one in use selects that slot. -/
theorem thermo_burnTo {j : Nat} {t : Tab (BitVec 3) 3} (above : thermo t < j) (fits : j ≤ 3) :
    thermo (burnTo j (fun _ => 7) t) = j := by
  have at' (i : Fin 3) : (burnTo j (fun _ => 7) t).at i = if i.val < j then t.at i ||| 7 else t.at i := Tab.at_mapIdx _ _ _
  rw [thermo_three] at above
  rw [thermo_three, at', at', at']
  obtain rfl | rfl | rfl : j = 1 ∨ j = 2 ∨ j = 3 := by omega
  · have top : t.at 2 = 0 ∧ t.at 1 = 0 := by
      constructor
      · by_contra set
        rw [if_pos set] at above
        omega
      · by_contra set
        rw [if_pos set] at above
        split at above <;> omega
    simp [top.1, top.2]
  · have top : t.at 2 = 0 := by
      by_contra set
      rw [if_pos set] at above
      omega
    simp [top]
  · simp

theorem nextSlot_some {good : Nat → Bool} {cur n j : Nat} (next : nextSlot good cur n = some j) :
    cur < j ∧ j < n ∧ good j = true ∧ ∀ k, cur < k → k < j → good k = false := by
  rw [nextSlot, nats_eq, List.find?_range_eq_some] at next
  obtain ⟨found, inside, first⟩ := next
  obtain ⟨above, isGood⟩ := Bool.and_eq_true_iff.mp found
  refine ⟨of_decide_eq_true above, List.mem_range.mp inside, isGood, fun k over' below => ?_⟩
  have missed := first k below
  rw [decide_eq_true over', Bool.true_and] at missed
  simpa using missed

end

end Machine

end Sys2Proof

namespace Sys2Proof

namespace Machine

section

variable {cnt : DWord} {mac resp : BitVec 128} {now : Nat} {d : Device}

/-! ### The checks of a well-formed block (R411) -/

theorem blockCheck_arm (cnt : DWord) (mac : BitVec 128) (d : Device) : blockCheck (Block.make 1 cnt [] mac) d =
    if d.key.lockEnd.isSome then 3 else if d.keel.ctrLost then 4 else if cnt.toNat ≤ d.keel.counter.toNat then 5
    else if !(Block.make 1 cnt [] mac).macOk d then 6 else 0 := by
  have format := Block.make_formatOk (opc := 1) (args := []) (by decide) (by decide) cnt mac rfl
  simp [blockCheck, Block.make_opc (show 1 < 256 by decide), Block.make_cnt, format]

theorem blockCheck_ctrseed (free : d.key.lockEnd = none) (whole : d.keel.ctrLost = false) :
    blockCheck (Block.make 9 cnt [] mac) d = 7 := by
  have format := Block.make_formatOk (opc := 9) (args := []) (by decide) (by decide) cnt mac rfl
  simp [blockCheck, Block.make_opc (show 9 < 256 by decide), format, free, whole]

/-! ### DBGOPEN (R426) -/

/-- R426: the arguments of DBGOPEN spell the response. -/
theorem wordsBits_response (cnt : DWord) (mac resp : BitVec 128) : wordsBits 128 (Block.make 6 cnt
    [w32 (resp.toNat >>> 96), w32 (resp.toNat >>> 64), w32 (resp.toNat >>> 32), w32 resp.toNat] mac).args = resp := by
  have size := resp.isLt
  rw [Block.args, Block.make_alen (by decide) (by simp)]
  simp only [List.length_cons, List.length_nil, nats_eq, List.range_succ, List.range_zero, List.nil_append, List.cons_append,
    List.map_cons, List.map_nil, Block.make_arg (show 0 < 9 by decide), Block.make_arg (show 1 < 9 by decide),
    Block.make_arg (show 2 < 9 by decide), Block.make_arg (show 3 < 9 by decide), List.getD_cons_zero, List.getD_cons_succ]
  apply BitVec.eq_of_toNat_eq
  simp only [wordsBits, List.foldl_cons, List.foldl_nil, w32, BitVec.toNat_ofNat, Nat.shiftRight_eq_div_pow]
  omega

theorem checkResponse_counted (b : Block) (right : debugResponse d = some (beBytes 16 resp.toNat)) :
    checkResponse resp 1 now (d.counted b) =
      raiseDbg 1 1 now { d.counted b with dbg := { d.dbg with opened := true } } :=
  checkResponse_right ((show debugResponse (d.counted b) = debugResponse d from rfl).trans right)

theorem cmdResult_opened {b : Block} (opened : d.dbg.opened = true) : cmdResult b d = 0 := by
  rw [cmdResult, opened]
  exact if_neg (fun both => Bool.false_ne_true both.2)

/-! ### STORELOAD (R258) -/

/-- R258: the device once the channels are disabled and PERMIT has ended. -/
def Device.storeLost (src : Nat) (d : Device) : Device := { d with
  pwr := { d.pwr with gate := false }
  hlm := { d.hlm with
    mode := .recovery, loaded := false, locked := false, waithost := decide (src = 2), err := 0, src := 0, svn := 0
    nw := 0, nd := 0, readable := false, recs := [], reload := true } }

/-- R258: STORELOAD empties the store, `e` being the device whose channels are disabled. -/
theorem storeloadAct_disables (src now : Nat) (c : Core) : ∃ e : Device,
    storeloadAct src now c = { ram := { c.ram with store := [] }, dev := (dropPermit 2 now e).storeLost src } ∧
    (∃ x h w, e = { c.dev with chn := x, hlm := h, glw := w }) ∧ ∀ h, (e.chn.at h).cfg.en = false :=
  ⟨_, rfl, disables_changes c.dev, disables_off c.dev⟩

/-- R258: what STORELOAD leaves of the blocks, `e` being the device whose channels are disabled. -/
theorem storeLost_stands {d e : Device} (disabled : ∃ x h w, e = { d with chn := x, hlm := h, glw := w })
    (off : ∀ h, (e.chn.at h).cfg.en = false) (src now : Nat) :
    let d' := (dropPermit 2 now e).storeLost src
    d'.key = d.key ∧ causes 242 d' = causes 242 d ∧
    d'.pwr.armed = false ∧ d'.pwr.permit = false ∧ d'.pwr.gate = false ∧
    (∀ h, (d'.chn.at h).cfg.en = false) ∧ d'.hlm.mode = .recovery ∧ d'.hlm.loaded = false ∧
    d'.hlm.locked = false ∧ d'.hlm.reload = true ∧ d'.hlm.waithost = decide (src = 2) := by
  obtain ⟨x, h, w, rfl⟩ := disabled
  have recorded := dropPermit_causes (k := 242) (by decide) 2 now { d with chn := x, hlm := h, glw := w }
  obtain ⟨e, dropped⟩ := dropPermit_changes 2 now { d with chn := x, hlm := h, glw := w }
  refine ⟨?_, recorded, ?_, ?_, rfl, fun h => ?_, rfl, rfl, rfl, rfl, rfl⟩
  · rw [dropped]
    rfl
  · rw [dropped]
    rfl
  · rw [dropped]
    rfl
  · rw [dropped]
    exact off h

/-- R258: an accepted STORELOAD. -/
theorem storeload_stands {a0 : Word} {c0 : Core} (now : Nat) (acc : accepted (Block.make 4 cnt [a0] mac) true c0.dev) :
    let c := keyedCommand (Block.make 4 cnt [a0] mac) true now c0
    ended (Block.make 4 cnt [a0] mac) 0 c0.dev c.dev ∧ c.ram = { c0.ram with store := [] } ∧
    c.dev.pwr.armed = false ∧ c.dev.pwr.permit = false ∧ c.dev.pwr.gate = false ∧
    (∀ h, (c.dev.chn.at h).cfg.en = false) ∧ c.dev.hlm.mode = .recovery ∧ c.dev.hlm.loaded = false ∧
    c.dev.hlm.locked = false ∧ c.dev.hlm.reload = true ∧ c.dev.hlm.waithost = decide (fld a0 1 0 = 2) := by
  obtain ⟨e0, acts, disabled, off⟩ := storeloadAct_disables (fld a0 1 0) now (c0.mapDev (Device.counted (Block.make 4 cnt [a0] mac)))
  dsimp only
  rw [keyedCommand_acts acc, cmdAct_storeload, acts]
  obtain ⟨key, record, armed, permit, gate, off, mode, loaded, locked, reload, waits⟩ :=
    storeLost_stands disabled off (fld a0 1 0) now
  generalize (dropPermit 2 now e0).storeLost (fld a0 1 0) = e at *
  have done := cmdEnd_ended (b := Block.make 4 cnt [a0] mac) (res := 0) (reached := true) (now := now) (d0 := c0.dev)
    (d := e) (by rw [key]; rfl) record
  obtain ⟨k, r, n, changed, _⟩ := cmdEnd_changes (Block.make 4 cnt [a0] mac) 0 true now e
  rw [Core.mapDev_ram, Core.mapDev_dev, cmdResult_plain (by decide) (by decide)]
  rw [changed] at done ⊢
  exact ⟨done, rfl, armed, permit, gate, off, mode, loaded, locked, reload, waits⟩

/-! ### KEYROLL (R419) -/

/-- R419: an accepted KEYROLL of the command keys has a slot to go to. -/
theorem keyroll_next {a0 : Word} (own : cmdCheck (Block.make 8 cnt [a0] mac) true d = 0) (cls : fld a0 1 0 = 0) :
    ∃ j, nextSlot (d.fuses.slotUsed 1) d.fuses.ckslot.val 4 = some j := by
  have arg : (Block.make 8 cnt [a0] mac).arg 0 = a0 := Block.make_arg (by decide) _ _ _ _
  simp only [cmdCheck, Block.make_opc (show 8 < 256 by decide), arg, cls, rollTo] at own
  cases next : nextSlot (d.fuses.slotUsed 1) d.fuses.ckslot.val 4 with
  | some j => exact ⟨j, rfl⟩
  | none =>
    rw [next] at own
    exact absurd own (by decide)

theorem keyrollAct_rolls {j : Nat} (next : nextSlot (d.fuses.slotUsed 1) d.fuses.ckslot.val 4 = some j) :
    keyrollAct 0 d = { d with fuses := { d.fuses with ckT := burnTo j (fun _ => 7) d.fuses.ckT } } := by
  simp only [keyrollAct, rollTo, next]
  rfl

/-! ### LINKCFG (R417) -/

/-- R302: the sequence numbers of keyed messages stay in their upper half. -/
theorem keyedSeq_high (k : Byte) : 0x80 ≤ (if k.toNat < 0x80 ∨ k = 0xFF then (0x80 : Byte) else k + 1).toNat := by
  revert k
  decide

end

/-- Settles O56: a row is the processing of its block, which is refused, fails, or acts as its command does. -/
theorem keyedCommands : Obligations.KeyedCommands := by
  unfold Obligations.KeyedCommands
  refine ⟨fun s i b ok row => ?_, fun s cnt mac resp a0 a1 a2 a3 => ?_⟩
  · intro d
    refine ⟨fun busy => changes_of_run _ (exec_of_blockOf row s) (keyedCommand_busy busy), ?fails, ?badmac, ?refused⟩
    case fails =>
      intro free fails other
      refine brings_of_run _ (exec_of_blockOf row s) _ (keyedCommand_fails free fails) ?_
      rw [if_neg other, show (blockCheck b s.core.dev == 6) = false from beq_eq_false_iff_ne.mpr other]
      have done := cmdEnd_ended (b := b) (res := blockCheck b s.core.dev) (reached := false) (now := s.mt)
        (d := s.core.dev.buffered b) (d0 := s.core.dev) rfl rfl
      obtain ⟨k, e, n, changed, badmac, lockEnd, nonce⟩ :=
        cmdEnd_changes b (blockCheck b s.core.dev) false s.mt (s.core.dev.buffered b)
      rw [changed] at done ⊢
      exact ⟨done, rfl, rfl, rfl, rfl, badmac, lockEnd, nonce rfl⟩
    case badmac =>
      intro free bad
      have fails : blockCheck b s.core.dev ≠ 0 := by
        rw [show blockCheck b s.core.dev = 6 from bad]
        decide
      refine brings_of_run _ (exec_of_blockOf row s) _ (keyedCommand_fails free fails) ?_
      rw [show blockCheck b s.core.dev = 6 from bad, if_pos rfl]
      obtain ⟨e, counted⟩ := badMac_key s.mt (s.core.dev.buffered b)
      have done := cmdEnd_ended (b := b) (res := 6) (reached := 6 == 6) (now := s.mt) (d := badMac s.mt (s.core.dev.buffered b))
        (d0 := badMac s.mt (s.core.dev.buffered b)) (by rw [counted]; rfl) rfl
      obtain ⟨k, e', n, changed, badmac, lockEnd, _⟩ := cmdEnd_changes b 6 (6 == 6) s.mt (badMac s.mt (s.core.dev.buffered b))
      rw [changed, counted] at done
      rw [counted] at badmac lockEnd
      obtain ⟨isDone, result, _⟩ := done
      rw [changed, counted]
      refine ⟨isDone, result, rfl, rfl, rfl, badmac, fun eighth => ?_, fun few => ?_⟩
      · exact lockEnd.trans (if_pos eighth)
      · exact lockEnd.trans (if_neg (Nat.not_le.mpr few))
    case refused =>
      intro free pass fails
      refine brings_of_run _ (exec_of_blockOf row s) _ (keyedCommand_refused free pass fails) ?_
      have done := cmdEnd_ended (b := b) (res := cmdCheck b ok s.core.dev) (reached := true) (now := s.mt)
        (d := s.core.dev.counted b) (d0 := s.core.dev) rfl rfl
      obtain ⟨k, e, n, changed, badmac, _⟩ := cmdEnd_changes b (cmdCheck b ok s.core.dev) true s.mt (s.core.dev.counted b)
      rw [changed] at done ⊢
      exact ⟨done, setCounter_counter _ _, badmac, rfl, rfl, rfl⟩
  · intro d
    refine ⟨fun locked => ?_, fun free lost => ?_, fun free whole old => ?_, fun free whole => blockCheck_ctrseed free whole,
      ?arm, ?disarm, ?safecfg, ?storeload, ?fuse, ?dbgopen, ?linkcfg, ?keyroll, ?ctrseed, ?late, ?within,
      fun unlocked => idles_of_runDev _ (exec_lockoutEnd s) ?_⟩
    · rw [blockCheck_arm, if_pos locked]
    · rw [blockCheck_arm, free, lost]
      rfl
    · rw [blockCheck_arm, free, whole, if_pos old]
      rfl
    case arm =>
      intro acc
      refine brings_accepted (armAct s.mt) rfl acc (fun c => cmdAct_arm) (by rw [armAct_key]; rfl) armAct_causes fun k e n done => ?_
      rw [cmdResult_plain (by decide) (by decide)] at done
      refine ⟨done, ?_, ?_⟩
      · dsimp only
        rw [armAct_keel]
        exact (setCounter_counter _ _).trans (Block.make_cnt _ _ _ _)
      · cases armed : d.pwr.armed with
        | true =>
          have same := armAct_armed (now := s.mt) (d := s.core.dev.counted (Block.make 1 cnt [] mac)) armed
          dsimp only
          rw [same]
          exact ⟨armed, fun no => absurd no (by decide), fun _ => rfl⟩
        | false =>
          have arms := armAct_arms (now := s.mt) (d := s.core.dev.counted (Block.make 1 cnt [] mac)) armed
          dsimp only
          rw [arms]
          exact ⟨rfl, fun _ => ⟨rfl, rfl⟩, fun yes => absurd yes (by decide)⟩
    case disarm =>
      intro acc
      obtain ⟨e0, dropped⟩ := dropPermit_changes 2 s.mt (s.core.dev.counted (Block.make 2 cnt [] mac))
      refine brings_accepted (dropPermit 2 s.mt) rfl acc (fun c => cmdAct_disarm) (by rw [dropped]; rfl)
        (dropPermit_causes (by decide) _ _ _) fun k e n done => ?_
      rw [cmdResult_plain (by decide) (by decide)] at done
      rw [dropped] at done ⊢
      exact ⟨done, (setCounter_counter _ _).trans (Block.make_cnt _ _ _ _), rfl, rfl⟩
    case safecfg =>
      intro acc channels
      obtain ⟨key, evc⟩ := safecfgAct_plain (a0 := a0) (a1 := a1) (a2 := a2) (d := s.core.dev.counted (Block.make 3 cnt [a0, a1, a2] mac))
      refine brings_accepted (safecfgAct a0 a1 a2) rfl acc (fun c => cmdAct_safecfg) (by rw [key]; rfl)
        (by rw [causes, evc]; rfl) fun k e n done => ?_
      rw [cmdResult_plain (by decide) (by decide)] at done
      refine ⟨done, fun c low high => ?_, fun c apart => ?_⟩
      · dsimp only
        rw [safecfgAct_channels channels, if_pos ⟨low, high⟩]
        exact safeWrite_fields a1 a2 _
      · dsimp only
        rw [safecfgAct_channels channels, if_neg (by omega)]
        rfl
    case storeload =>
      intro acc
      exact bringsAll_of_run _ (exec_of_blockOf (b := Block.make 4 cnt [a0] mac) (ok := true) rfl s) (storeload_stands s.mt acc)
    case fuse =>
      intro acc col
      have burnt := fuseAct_prov (cnt := cnt) (mac := mac) (d := s.core.dev.counted (Block.make 5 cnt [a0] mac)) col
      refine brings_accepted (fuseAct (Block.make 5 cnt [a0] mac)) rfl acc (fun c => cmdAct_fuse) (by rw [burnt]; rfl)
        (by rw [burnt]; rfl) fun k e n done => ?_
      rw [cmdResult_plain (by decide) (by decide)] at done
      rw [burnt] at done ⊢
      exact ⟨done, rfl, rfl⟩
    case dbgopen =>
      intro b acc right
      have opens := checkResponse_counted (now := s.mt) b right
      refine brings_accepted (b := b) (checkResponse resp 1 s.mt) rfl acc
        (fun c => by rw [cmdAct_dbgopen, wordsBits_response]) (by rw [opens]; rfl)
        (by rw [opens]; exact causes_raise_ne (by decide) _ _ _ _ _ _) fun k e n done => ?_
      rw [opens, cmdResult_opened rfl] at done
      rw [opens]
      exact ⟨done, rfl, rfl⟩
    case linkcfg =>
      intro acc
      refine brings_accepted _ rfl acc (fun c => cmdAct_linkcfg) rfl rfl fun k e n done => ?_
      rw [cmdResult_plain (by decide) (by decide)] at done
      refine ⟨done, ?_, fun o other => ?_⟩
      · dsimp only [queueKeyed]
        rw [Device.glkUpd_glk, Tab.at_upd_same]
        exact ⟨_, rfl, rfl, rfl, keyedSeq_high _⟩
      · dsimp only [queueKeyed]
        rw [Device.glkUpd_glk, Tab.at_upd_ne _ _ other]
        rfl
    case keyroll =>
      intro acc cls
      obtain ⟨j, next⟩ := keyroll_next acc.2.2 cls
      obtain ⟨above, below, used, between⟩ := nextSlot_some next
      have rolls := keyrollAct_rolls (d := s.core.dev.counted (Block.make 8 cnt [a0] mac)) next
      have slot : ({ s.core.dev.fuses with ckT := burnTo j (fun _ => 7) s.core.dev.fuses.ckT } : Fuses).ckslot.val = j := by
        rw [ckslot_val]
        rw [ckslot_val] at above
        exact thermo_burnTo above (Nat.le_of_lt_succ below)
      refine brings_accepted (keyrollAct 0) rfl acc (fun c => by rw [cmdAct_keyroll, cls]) (by rw [rolls]; rfl)
        (by rw [rolls]; rfl) fun k e n done => ?_
      rw [cmdResult_plain (by decide) (by decide)] at done
      rw [rolls] at done ⊢
      refine ⟨done, ?_, ?_, fun i low high => ?_⟩
      · exact Fin.lt_def.mpr (above.trans_eq slot.symm)
      · exact (congrArg (s.core.dev.fuses.slotUsed 1) slot).trans used
      · exact between i.val (Fin.lt_def.mp low) ((Fin.lt_def.mp high).trans_eq slot)
    case ctrseed =>
      intro acc
      refine brings_accepted (ctrseedAct cnt) rfl acc (fun c => cmdAct_ctrseed) rfl rfl fun k e n done => ?_
      rw [cmdResult_plain (by decide) (by decide)] at done
      exact ⟨done, rfl, rfl⟩
    case late =>
      intro t locked reached
      refine changes_of_runDev _ (exec_lockoutEnd s) ?_
      rw [lockoutEnds, show s.core.dev.key.lockEnd = some t from locked]
      exact if_pos reached
    case within =>
      intro t locked early
      refine idles_of_runDev _ (exec_lockoutEnd s) ?_
      rw [lockoutEnds, show s.core.dev.key.lockEnd = some t from locked]
      exact if_neg (Nat.not_le.mpr early)
    case _ => rw [lockoutEnds, show s.core.dev.key.lockEnd = none from unlocked]

end Machine

end Sys2Proof

namespace Sys2Proof

namespace Machine

/-! ## Frames from an endpoint -/

theorem exec_upstreamStatus (l : LinkNo) (h : Byte) (p : Tab Byte 12) (a : DWord) (s : State) :
    exec (.upstreamStatus l h p a) s =
      s.run (fun now => goodFrame l 0 h a.toNat now (passing l (fun _ => upStatus l p now))) := rfl
theorem exec_upstreamCapt (l : LinkNo) (h : Byte) (p : Tab Byte 12) (a : DWord) (s : State) :
    exec (.upstreamCapt l h p a) s =
      s.run (fun now => goodFrame l 1 h a.toNat now (passing l (fun _ => upCapt l p a.toNat now))) := rfl
theorem exec_upstreamFix (l : LinkNo) (h : Byte) (p : Tab Byte 12) (a : DWord) (s : State) :
    exec (.upstreamFix l h p a) s =
      s.run (fun now => goodFrame l 2 h a.toNat now (passing l (fun _ => upFix l p a.toNat now))) := rfl
theorem exec_upstreamEcho (l : LinkNo) (h : Byte) (p : Tab Byte 12) (a : DWord) (s : State) :
    exec (.upstreamEcho l h p a) s =
      s.run (fun now => goodFrame l 3 h a.toNat now (fun g c => c.mapDev (upEcho l (payByte p 0) a.toNat now g))) := rfl
theorem exec_upstreamSync (l : LinkNo) (h : Byte) (p : Tab Byte 12) (a : DWord) (s : State) :
    exec (.upstreamSync l h p a) s = s.runDev (upSync l h p a.toNat) := rfl
theorem exec_upstreamUser (l : LinkNo) (h : Byte) (p : Tab Byte 12) (a : DWord) (s : State) :
    exec (.upstreamUser l h p a) s =
      s.run (fun now => goodFrame l 5 h a.toNat now (fun g c => upUser l p a.toNat (c.mapDev (echoPassed l g)))) := rfl

/-- R284: a good frame ends a run of bad ones. -/
def Device.good (l : LinkNo) (d : Device) : Device := d.glwUpd l (fun w => { w with badRun := 0 })

/-- R284, R294: a good frame paired with frame `g`, which awaited ECHO frames up to `g` do not answer any more. -/
def Device.paired (l : LinkNo) (g : Nat) (d : Device) : Device := echoPassed l (some g) (d.good l)

theorem paired_glk (l : LinkNo) (g : Nat) (d : Device) : (d.paired l g).glk = d.glk := rfl

theorem paired_badRun (l : LinkNo) (g : Nat) (d : Device) : ((d.paired l g).glw.at l).badRun = 0 := by
  simp only [Device.paired, Device.good, echoPassed, Device.glwUpd_glw, Tab.at_upd_same]

section

variable {l : LinkNo} {h : Byte} {a g now kind : Nat} {c : Core}

/-- R284, R289: a good frame of a link that is UP, of the pairing `g`. -/
theorem goodFrame_up (up : (c.dev.glk.at l).st = .up) (pair : pairedFrame (c.dev.glk.at l) a = some g)
    (epoch : fld h 1 0 = fld (c.dev.glk.at l).lep 1 0) (type : fld h 7 5 = kind) (k : Option Nat → Core → Core) :
    goodFrame l kind h a now k c = k (some g) (c.mapDev (Device.good l)) := by
  simp only [goodFrame, type, ne_eq, not_true, if_false, up, pair, epoch, beq_self_eq_true, if_true]
  rfl

/-- R294: what a frame other than ECHO does, on a link that is UP. -/
theorem goodFrame_passing (up : (c.dev.glk.at l).st = .up) (pair : pairedFrame (c.dev.glk.at l) a = some g)
    (epoch : fld h 1 0 = fld (c.dev.glk.at l).lep 1 0) (type : fld h 7 5 = kind) (k : Device → Device) :
    goodFrame l kind h a now (passing l (fun _ => k)) c = c.mapDev (fun d => k (d.paired l g)) :=
  goodFrame_up up pair epoch type _

end

/-! ### Payloads -/

/-- A byte behind a bit string. -/
theorem toNat_append_byte {n : Nat} (w : BitVec n) (b : Byte) : (w ++ b).toNat = 256 * w.toNat + b.toNat := by
  rw [BitVec.toNat_append, ← Nat.shiftLeft_add_eq_or_of_lt b.isLt, Nat.shiftLeft_eq, Nat.mul_comm]

/-- Four bytes as a word. -/
theorem word_of_bytes (a b c d : Byte) : (a ++ b ++ c ++ d : BitVec 32) =
    w32 (a.toNat * 16777216 + b.toNat * 65536 + c.toNat * 256 + d.toNat) := by
  apply BitVec.eq_of_toNat_eq
  have := a.isLt
  have := b.isLt
  have := c.isLt
  have := d.isLt
  rw [toNat_append_byte, toNat_append_byte, toNat_append_byte, w32, BitVec.toNat_ofNat]
  omega

/-- A bit string read as two's complement. -/
theorem signedOf_toNat {n : Nat} (w : BitVec (n + 1)) : signedOf (n + 1) w.toNat = w.toInt := by
  have half : 2 ^ (n + 1) = 2 * 2 ^ n := by rw [Nat.pow_succ, Nat.mul_comm]
  have small : w.toNat % 2 ^ (n + 1) = w.toNat := Nat.mod_eq_of_lt w.isLt
  rw [signedOf, BitVec.toInt_eq_toNat_cond, small, Nat.add_sub_cancel]
  by_cases low : w.toNat < 2 ^ n
  · rw [if_pos low, if_pos (by omega)]
  · rw [if_neg low, if_neg (by omega)]

/-- R302: the position in a FIX frame. -/
theorem fixPosition (p : Tab Byte 12) :
    signedOf 48 ((nats 6).foldl (fun n i => 256 * n + payByte p (3 + i)) 0) =
      (p.at 3 ++ p.at 4 ++ p.at 5 ++ p.at 6 ++ p.at 7 ++ p.at 8).toInt := by
  have bytes : (nats 6).foldl (fun n i => 256 * n + payByte p (3 + i)) 0 =
      (p.at 3 ++ p.at 4 ++ p.at 5 ++ p.at 6 ++ p.at 7 ++ p.at 8).toNat := by
    have first : (256 * 0 + (p.at 3).toNat) = (p.at 3).toNat := Nat.zero_add _
    simp only [toNat_append_byte]
    exact congrArg (fun n => 256 * (256 * (256 * (256 * (256 * n + (p.at 4).toNat) + (p.at 5).toNat) + (p.at 6).toNat) +
      (p.at 7).toNat) + (p.at 8).toNat) first
  rw [bytes]
  exact signedOf_toNat _

/-- R301: the parts of a stamp record's first byte. -/
theorem stampByte (b : Byte) : b.toNat % 8 = fld b 2 0 ∧ b.toNat / 32 = fld b 7 5 ∧
    b.toNat / 8 % 2 = (b.getLsbD 3).toNat ∧ (b.toNat / 16 % 2 == 1) = b.getLsbD 4 := by
  have := b.isLt
  have bit (i : Nat) : b.getLsbD i = decide (b.toNat / 2 ^ i % 2 = 1) := Nat.testBit_eq_decide_div_mod_eq
  refine ⟨rfl, ?_, ?_, ?_⟩
  · rw [fld, Nat.shiftRight_eq_div_pow]
    omega
  · have value : b.toNat / 8 % 2 = 0 ∨ b.toNat / 8 % 2 = 1 := by omega
    rw [bit 3]
    rcases value with value | value <;> simp [value]
  · rw [bit 4]
    rfl

/-! ### The kinds of frame -/

section

variable {l : LinkNo} {p : Tab Byte 12} {a now t : Nat} {d : Device}

/-- R303: the keyed message that waits after the acknowledgement `ack`. -/
def Link.unacked (x : Link) (ack : Byte) : Option KeyedMsg :=
  match x.kmsg with
  | some m => if m.sent.isSome ∧ m.seq = ack then none else some m
  | none => none

/-- R291, R302, R303: the endpoint's report, on a link that is UP. -/
theorem upStatus_glk (up : (d.glk.at l).st = .up) : (upStatus l p now d).glk.at l = { d.glk.at l with
    epst := #v[p.at 0 ++ p.at 1 ++ p.at 2 ++ p.at 3, p.at 4 ++ p.at 5 ++ p.at 6 ++ p.at 7,
      p.at 8 ++ p.at 9 ++ p.at 10 ++ p.at 11]
    epflag := (d.glk.at l).epflag ||| BitVec.ofNat 5 (p.at 0).toNat
    kack := p.at 1, kmsg := (d.glk.at l).unacked (p.at 1) } := by
  rw [word_of_bytes, word_of_bytes, word_of_bytes]
  simp only [upStatus, up, ne_eq, not_true, if_false]
  split
  · rw [raiseLink, raise_glk, Device.glkUpd_glk, Tab.at_upd_same]
    congr
  · rw [Device.glkUpd_glk, Tab.at_upd_same]
    congr

theorem upStatus_glw (l : LinkNo) (p : Tab Byte 12) (now : Nat) (d : Device) : (upStatus l p now d).glw = d.glw := by
  unfold upStatus
  dsimp only
  split
  · rfl
  · split
    · rfl
    · rfl

/-- R290: a record without its V bit says nothing. -/
theorem captRecord_absent {r : Nat} (i : Fin 12) (place : Fin.ofNat 12 (3 * r) = i) (absent : (p.at i).getLsbD 3 = false) :
    captRecord l p a now r d = d := by
  have byte : payByte p (3 * r) = (p.at i).toNat := by rw [payByte, place]
  obtain ⟨-, -, valid, -⟩ := stampByte (p.at i)
  simp only [captRecord, byte, valid, absent, Bool.toNat_false, if_true]

/-- R290, R302: a CAPT frame of one record is an edge at its channel. -/
theorem upCapt_one (up : (d.glk.at l).st = .up) (v0 : (p.at 0).getLsbD 3 = true) (v1 : (p.at 3).getLsbD 3 = false)
    (v2 : (p.at 6).getLsbD 3 = false) (v3 : (p.at 9).getLsbD 3 = false)
    (stamp : stampTime (d.glk.at l) a (fld (p.at 0) 2 0) (256 * (p.at 1).toNat + (p.at 2).toNat) = some t) :
    upCapt l p a now d = captureEdge (slotChan l (Fin.ofNat 8 (fld (p.at 0) 7 5))) ((p.at 0).getLsbD 4) t now d := by
  obtain ⟨ref, slot, valid, level⟩ := stampByte (p.at 0)
  have first : captRecord l p a now 0 d =
      captureEdge (slotChan l (Fin.ofNat 8 (fld (p.at 0) 7 5))) ((p.at 0).getLsbD 4) t now d := by
    have byte : payByte p (3 * 0) = (p.at 0).toNat := rfl
    have high : payByte p (3 * 0 + 1) = (p.at 1).toNat := rfl
    have low : payByte p (3 * 0 + 2) = (p.at 2).toNat := rfl
    simp only [captRecord, byte, high, low, valid, v0, up, ref, slot, level, stamp, ne_eq, not_true, if_false,
      Bool.toNat_true, one_ne_zero]
  simp only [upCapt, List.foldl_cons, List.foldl_nil]
  rw [captRecord_absent 9 rfl v3, captRecord_absent 6 rfl v2, captRecord_absent 3 rfl v1, first]

/-- R302: a FIX frame of a good stamp. -/
theorem upFix_of (up : (d.glk.at l).st = .up) (v : (p.at 0).getLsbD 3 = true)
    (stamp : stampTime (d.glk.at l) a (fld (p.at 0) 2 0) (256 * (p.at 1).toNat + (p.at 2).toNat) = some t) :
    upFix l p a now d = linkFix (8 * l.val + fld (p.at 0) 7 5)
      (p.at 3 ++ p.at 4 ++ p.at 5 ++ p.at 6 ++ p.at 7 ++ p.at 8).toInt t now d := by
  obtain ⟨ref, slot, valid, -⟩ := stampByte (p.at 0)
  have byte : payByte p 0 = (p.at 0).toNat := rfl
  have high : payByte p 1 = (p.at 1).toNat := rfl
  have low : payByte p 2 = (p.at 2).toNat := rfl
  simp only [upFix, byte, high, low, valid, v, up, ref, slot, stamp, ne_eq, not_true, if_false, fixPosition,
    Bool.toNat_true, one_ne_zero]

/-- R54, R60: feedback for one axis with nothing waiting is the one fix that waits. -/
theorem linkFix_single {idx : Nat} {ax : Axis} (axes : (fins 64).filter (fun b => (d.axs.at b).reg.en &&
    (d.axs.at b).reg.src == 3 && (d.axs.at b).reg.srcidx == idx) = [ax]) (none : d.dr.q = [])
    (near : t ≤ now + 4294967296) (z : Int) :
    linkFix idx z t now d = { d with dr := { d.dr with q := [⟨ax, z, t, now, 0, false⟩] } } := by
  have on : (d.axs.at ax).reg.en = true := by
    have listed : ax ∈ [ax] := List.mem_singleton.mpr rfl
    rw [← axes, List.mem_filter] at listed
    obtain ⟨-, listed⟩ := listed
    simp only [Bool.and_eq_true] at listed
    exact listed.1.1
  have early : ¬ now + 4294967296 < t := by omega
  rw [linkFix]
  dsimp only
  rw [axes, List.foldl_cons, List.foldl_nil, deliverFix_joins on (by rw [none]; decide)]
  simp only [none, insertBefore, if_neg early]

/-- R104, R302: an edge reported for a channel in LINK_IN. -/
theorem captureEdge_link {c : Chan} (on : (d.chn.at c).cfg.en = true) (mode : (d.chn.at c).cfg.mode = 14) (edge : Bool) :
    captureEdge c edge t now d = capEdge c edge t now d := by
  simp [captureEdge, on, mode]

/-- R103, R104: an edge captured with room in the FIFO. -/
theorem capEdge_of_room {c : Chan} (room : (d.chn.at c).pin.cap.length < 16) (edge : Bool) :
    ∃ k : CapEntry, k.stamp = t ∧ k.edge = edge ∧ capEdge c edge t now d = d.pinUpd c (fun q => { q with
      prevSel := some t, lostDue := false, cap := q.cap ++ [k] }) := by
  have room : ¬ 16 ≤ ((d.pinUpd c (fun x => { x with prevSel := some t })).chn.at c).pin.cap.length := by
    rw [pinUpd_pin_same]
    exact not_le.mpr room
  unfold capEdge capWrite
  dsimp only
  rw [if_neg room, pinUpd_pinUpd]
  refine ⟨⟨t, (capVal ((d.chn.at c).pin.prevSel.map (fun a => t - a))).1, edge, (d.chn.at c).pin.lostDue, false, false,
    (capVal ((d.chn.at c).pin.prevSel.map (fun a => t - a))).2⟩, rfl, rfl, pinUpd_congr rfl⟩

end

end Machine

end Sys2Proof

namespace Sys2Proof

namespace Machine

/-! ## ECHO, SYNC and USER frames -/

/-- R294, R295: the link's work once the echo of frame `g` is accepted, at DQ `v`. -/
def LinkWork.accepts (g : Nat) (v : Int) (now : Nat) (w : LinkWork) : LinkWork := { w with
  awaiting := w.awaiting.filter (fun f => decide (g < f)), dqWas := some (v, now), rejRun := 0 }

section

variable {l : LinkNo} {h : Byte} {p : Tab Byte 12} {a now g : Nat} {d : Device}

/-- R294, R295: an echo result within its window moves DQ by an eighth of its difference. -/
theorem upEcho_accepts (up : (d.glk.at l).st = .up) (id : (p.at 0).toNat = g % 256) (awaited : g ∈ (d.glw.at l).awaiting)
    (near : ((d.glk.at l).echoM ((a : Int) - g * 5120) - (d.glk.at l).dq).natAbs ≤ 16 * (d.glk.at l).echoWin) :
    ∃ w, upEcho l (payByte p 0) a now (some g) d =
      { d with glk := d.glk.upd l (fun x => { x with
          rtt := (a : Int) - g * 5120
          dq := fitS 24 ((d.glk.at l).dq + ((d.glk.at l).echoM ((a : Int) - g * 5120) - (d.glk.at l).dq) / 8) }), glw := w } ∧
      (w.at l).rejRun = 0 ∧ g ∉ (w.at l).awaiting := by
  have listed : (d.glw.at l).awaiting.contains g = true := List.contains_iff_mem.mpr awaited
  have same : (payByte p 0 == g % 256) = true := beq_iff_eq.mpr id
  have taken : upEcho l (payByte p 0) a now (some g) d =
      (let e := (echoPassed l (some g) d).glkUpd l (fun x => { x with rtt := (a : Int) - g * 5120 })
       let m := (e.glk.at l).echoM ((a : Int) - g * 5120)
       if (e.glk.at l).st = .up then
         if 16 * (e.glk.at l).echoWin < (m - (e.glk.at l).dq).natAbs then echoReject l now e
         else (dqChange l ((e.glk.at l).dq + (m - (e.glk.at l).dq) / 8) now e).glwUpd l (fun w => { w with rejRun := 0 })
       else alignEcho l m now e) := by
    simp only [upEcho, listed, same, Bool.and_self, if_true]
    rfl
  have link : ((echoPassed l (some g) d).glkUpd l (fun x => { x with rtt := (a : Int) - g * 5120 })).glk.at l =
      { d.glk.at l with rtt := (a : Int) - g * 5120 } := by
    rw [Device.glkUpd_glk, Tab.at_upd_same]
    rfl
  rw [taken]
  dsimp only
  have near : ¬ 16 * ({ d.glk.at l with rtt := (a : Int) - g * 5120 } : Link).echoWin <
      (({ d.glk.at l with rtt := (a : Int) - g * 5120 } : Link).echoM ((a : Int) - g * 5120) - (d.glk.at l).dq).natAbs :=
    not_lt.mpr near
  rw [link, if_pos up, if_neg near]
  refine ⟨d.glw.upd l (LinkWork.accepts g (d.glk.at l).dq now), ?_, ?_, ?_⟩
  · simp only [dqChange, Device.glkUpd, Device.glwUpd, echoPassed, Tab.upd_upd, Tab.at_upd_same]
    rfl
  · rw [Tab.at_upd_same]
    rfl
  · rw [Tab.at_upd_same]
    simp [LinkWork.accepts]

/-- R289, R292, R302: the first good SYNC frame of a count. -/
theorem upSync_first (train : (d.glk.at l).st = .train) (type : fld h 7 5 = 4) (lep : p.at 7 = (d.glk.at l).lep)
    (none : (d.glw.at l).syncs = []) (low : 6400 ≤ 256 * (p.at 8).toNat + (p.at 9).toNat)
    (high : 256 * (p.at 8).toNat + (p.at 9).toNat ≤ 40960) : ∃ cap, upSync l h p a now d =
      (d.glkUpd l (fun x => { x with
        epid := p.at 2 ++ p.at 3 ++ p.at 0 ++ p.at 1, epcap := cap
        turn := 256 * (p.at 8).toNat + (p.at 9).toNat })).glwUpd l (fun w => { w with
        syncs := [⟨a, BitVec.ofNat 3 (fld h 4 2), 256 * (p.at 8).toNat + (p.at 9).toNat⟩] }) := by
  have b7 : payByte p 7 = (p.at 7).toNat := rfl
  have b8 : payByte p 8 = (p.at 8).toNat := rfl
  have b9 : payByte p 9 = (p.at 9).toNat := rfl
  have id : (p.at 2 ++ p.at 3 ++ p.at 0 ++ p.at 1 : BitVec 32) =
      w32 (256 * payByte p 0 + payByte p 1 + 65536 * (256 * payByte p 2 + payByte p 3)) := by
    rw [word_of_bytes]
    congr 1
    change _ = 256 * (p.at 0).toNat + (p.at 1).toNat + 65536 * (256 * (p.at 2).toNat + (p.at 3).toNat)
    omega
  have good : ¬ ((p.at 7).toNat ≠ (d.glk.at l).lep.toNat ∨ 256 * (p.at 8).toNat + (p.at 9).toNat < 6400 ∨
      40960 < 256 * (p.at 8).toNat + (p.at 9).toNat) := by
    rw [lep]
    omega
  unfold upSync
  dsimp only
  rw [if_neg (not_not.mpr type), b7, b8, b9]
  simp only [train, if_neg good, Device.glkUpd_glw, none, List.filter_nil, List.nil_append, List.length_singleton]
  rw [if_pos (by decide), id]
  exact ⟨_, rfl⟩

/-- R305: the receive-queue entry that USER frames of the link fill next. -/
def rxEntry (l : LinkNo) (i : Nat) : Nat := l.val * 0x800 + 0x400 + 16 * i

/-- R305: the memories with a message of the words `v`, `w` and `x`, stamped `a`, at `k`. -/
def Ram.receives (k v w x a : Nat) (r : Ram) : Ram :=
  (((r.lbufWrite 4 k v).lbufWrite 4 (k + 4) w).lbufWrite 4 (k + 8) x).lbufWrite 4 (k + 12) (a % 4294967296)

theorem Ram.lbufRead_lbufWrite {r : Ram} (wf : r.wf) (n k v : Nat) (inside : k + n ≤ lbufSize) :
    (r.lbufWrite n k v).lbufRead n k = v % 256 ^ n := by
  obtain ⟨-, -, -, -, -, wf⟩ := wf
  simp only [Ram.lbufWrite, if_pos inside, Ram.lbufRead]
  exact Memory.readN_writeN n k v inside wf

theorem Ram.lbufRead_lbufWrite_apart {r : Ram} (wf : r.wf) (n k v m b : Nat) (apart : b + m ≤ k ∨ k + n ≤ b) :
    (r.lbufWrite n k v).lbufRead m b = r.lbufRead m b := by
  obtain ⟨-, -, -, -, -, wf⟩ := wf
  unfold Ram.lbufWrite
  split
  · exact Memory.readN_writeN_apart n k v m b ‹_› wf apart
  · rfl

theorem Ram.lbufWrite_bank (n k v : Nat) (r : Ram) : (r.lbufWrite n k v).bank = r.bank := by
  unfold Ram.lbufWrite
  split <;> rfl

theorem Ram.lbufWrite_alm (n k v : Nat) (r : Ram) : (r.lbufWrite n k v).alm = r.alm := by
  unfold Ram.lbufWrite
  split <;> rfl

theorem Ram.receives_bank (k v w x a : Nat) (r : Ram) : (r.receives k v w x a).bank = r.bank := by
  simp only [Ram.receives, Ram.lbufWrite_bank]

theorem Ram.receives_alm (k v w x a : Nat) (r : Ram) : (r.receives k v w x a).alm = r.alm := by
  simp only [Ram.receives, Ram.lbufWrite_alm]

/-- R305: the stamp of a message, and its first word. -/
theorem Ram.receives_read {r : Ram} (wf : r.wf) {k : Nat} (inside : k + 16 ≤ lbufSize) (v w x a : Nat) :
    (r.receives k v w x a).lbufRead 4 (k + 12) = a % 4294967296 ∧ (r.receives k v w x a).lbufRead 4 k = v % 4294967296 := by
  have wf1 := Ram.lbufWrite_wf wf 4 k v
  have wf2 := Ram.lbufWrite_wf wf1 4 (k + 4) w
  have wf3 := Ram.lbufWrite_wf wf2 4 (k + 8) x
  constructor
  · rw [Ram.receives, Ram.lbufRead_lbufWrite wf3 _ _ _ (by omega)]
    exact Nat.mod_mod a 4294967296
  · rw [Ram.receives, Ram.lbufRead_lbufWrite_apart wf3 _ _ _ _ _ (by omega),
      Ram.lbufRead_lbufWrite_apart wf2 _ _ _ _ _ (by omega), Ram.lbufRead_lbufWrite_apart wf1 _ _ _ _ _ (by omega),
      Ram.lbufRead_lbufWrite wf _ _ _ (by omega)]
    rfl

/-- R302: word `i` of a payload, as a number. -/
def payWord (p : Tab Byte 12) (i : Nat) : Nat := payByte p (4 * i) * 16777216 + payByte p (4 * i + 1) * 65536 +
  payByte p (4 * i + 2) * 256 + payByte p (4 * i + 3)

theorem payWord_zero (p : Tab Byte 12) : payWord p 0 = (p.at 0 ++ p.at 1 ++ p.at 2 ++ p.at 3 : Word).toNat := by
  have b0 : payByte p (4 * 0) = (p.at 0).toNat := rfl
  have b1 : payByte p (4 * 0 + 1) = (p.at 1).toNat := rfl
  have b2 : payByte p (4 * 0 + 2) = (p.at 2).toNat := rfl
  have b3 : payByte p (4 * 0 + 3) = (p.at 3).toNat := rfl
  rw [word_of_bytes, w32, BitVec.toNat_ofNat, payWord, b0, b1, b2, b3, Nat.mod_eq_of_lt]
  have := (p.at 0).isLt
  have := (p.at 1).isLt
  have := (p.at 2).isLt
  have := (p.at 3).isLt
  omega

/-- R302, R305: a USER frame fills the next entry of the receive queue. -/
theorem upUser_ram (l : LinkNo) (p : Tab Byte 12) (a : Nat) (c : Core) : (upUser l p a c).ram =
    c.ram.receives (rxEntry l (c.dev.glk.at l).rxIdx) (payWord p 0) (payWord p 1) (payWord p 2) a := by
  simp only [upUser, Ram.receives, rxEntry, List.foldl_cons, List.foldl_nil, Nat.mul_zero, Nat.add_zero, Nat.mul_one,
    payWord, Nat.reduceMul]

theorem upUser_dev (l : LinkNo) (p : Tab Byte 12) (a : Nat) (c : Core) : ∃ lap y, (upUser l p a c).dev =
    { c.dev.glkUpd l (fun x => { x with rxIdx := (x.rxIdx + 1) % 64, rxLap := lap }) with xfr := y } := by
  refine ⟨if (c.dev.glk.at l).rxIdx = 63 then ((c.dev.glk.at l).rxLap + 1) % 67108864 else (c.dev.glk.at l).rxLap,
    (upUser l p a c).dev.xfr, ?_⟩
  simp only [upUser, Device.glkUpd, Tab.upd]

end

/-- Settles O47: a frame that is paired and of the link's epoch ends the run of bad frames and then does what its kind
says. -/
theorem upstreamFrames : Obligations.UpstreamFrames := by
  unfold Obligations.UpstreamFrames
  intro s l h p a g d x epoch
  refine ⟨fun up pair => ⟨?status, ?capt, ?fix, ?echo, ?user⟩, ?sync⟩
  case status =>
    intro kind
    apply brings_of_run _ (exec_upstreamStatus l h p a s) _ (goodFrame_passing up pair epoch kind _)
    rw [upStatus_glk (d := d.paired l g) up, upStatus_glw]
    exact ⟨rfl, up, rfl, rfl, paired_badRun l g d⟩
  case capt =>
    intro t kind v0 v1 v2 v3 stamp c on mode room
    apply brings_of_run _ (exec_upstreamCapt l h p a s) _ (goodFrame_passing up pair epoch kind _)
    obtain ⟨k, at', edge, written⟩ := capEdge_of_room (c := c) (t := t) (now := s.mt) (d := d.paired l g) room
      ((p.at 0).getLsbD 4)
    rw [upCapt_one (t := t) (d := d.paired l g) up v0 v1 v2 v3 stamp, captureEdge_link (d := d.paired l g) on mode, written,
      pinUpd_pin_same]
    refine ⟨rfl, ?_, ⟨k, ?_, at', edge⟩, fun o other => ?_⟩
    · exact List.length_append
    · exact List.getLast?_concat
    · rw [Device.pinUpd_chn, Tab.at_upd_ne _ _ other]
      rfl
  case fix =>
    intro t ax kind v stamp axes none near
    apply brings_of_run _ (exec_upstreamFix l h p a s) _ (goodFrame_passing up pair epoch kind _)
    rw [upFix_of (t := t) (d := d.paired l g) up v stamp, linkFix_single (d := d.paired l g) axes none near]
    exact ⟨rfl, rfl, rfl⟩
  case echo =>
    intro kind id awaited near
    have listed : g ∈ ((d.good l).glw.at l).awaiting := by
      rw [Device.good, Device.glwUpd_glw, Tab.at_upd_same]
      exact awaited
    obtain ⟨w, taken, run, gone⟩ := upEcho_accepts (p := p) (a := a.toNat) (now := s.mt) (d := d.good l) up id listed near
    apply brings_of_run _ (exec_upstreamEcho l h p a s)
      (fun d => upEcho l (payByte p 0) a.toNat s.mt (some g) (d.good l)) (goodFrame_up up pair epoch kind _)
    rw [taken, Tab.at_upd_same]
    exact ⟨rfl, rfl, run, gone, up⟩
  case user =>
    intro kind wf
    have ram := upUser_ram l p a.toNat (s.core.mapDev (fun d => d.paired l g))
    obtain ⟨lap, y, dev⟩ := upUser_dev l p a.toNat (s.core.mapDev (fun d => d.paired l g))
    refine ⟨{ s with core := upUser l p a.toNat (s.core.mapDev (fun d => d.paired l g)) }, ?_, ?_, ?_, ?_, ?_, ?_⟩
    · rw [exec_upstreamUser, State.run_next, goodFrame_up up pair epoch kind]
      rfl
    · dsimp only
      rw [dev]
      exact congrArg Link.rxIdx (Tab.at_upd_same _ l _)
    · intro below
      have inside : rxEntry l x.rxIdx + 16 ≤ lbufSize := by
        have := l.isLt
        simp only [rxEntry, lbufSize]
        omega
      obtain ⟨stamp, word⟩ := Ram.receives_read wf inside (payWord p 0) (payWord p 1) (payWord p 2) a.toNat
      dsimp only
      rw [ram, ← payWord_zero]
      rw [Nat.mod_eq_of_lt (by rw [payWord_zero]; exact BitVec.isLt _)] at word
      exact ⟨stamp, word⟩
    · dsimp only
      rw [ram, Ram.receives_bank]
      rfl
    · dsimp only
      rw [ram, Ram.receives_alm]
      rfl
    · dsimp only
      rw [dev]
      rfl
  case sync =>
    intro train kind lep none low high
    apply brings_of_runDev _ (exec_upstreamSync l h p a s)
    obtain ⟨cap, seen⟩ := upSync_first (a := a.toNat) (now := s.mt) (d := d) train kind lep none low high
    rw [seen, Device.glwUpd_glw, Device.glwUpd_glk, Device.glkUpd_glk, Tab.at_upd_same, Tab.at_upd_same]
    exact ⟨rfl, rfl, train, rfl⟩

end Machine

end Sys2Proof

namespace Sys2Proof

namespace Machine

/-! ## The states of a bank -/

theorem exec_bankStateRequest (bk : BankNo) (v : Word) (s : State) :
    exec (.bankStateRequest bk v) s = s.runDev (bctlWrite bk v) := rfl
theorem exec_bankStateChange (bk : BankNo) (s : State) : exec (.bankStateChange bk) s = s.run (bankChange bk) := rfl
theorem exec_bankPowerComplete (bk : BankNo) (s : State) : exec (.bankPowerComplete bk) s = s.run (bankPowered bk) := rfl

theorem Device.bankUpd_congr {b : BankNo} {d : Device} {f g : Bank → Bank} (h : f (d.mem.bank.at b) = g (d.mem.bank.at b)) :
    d.bankUpd b f = d.bankUpd b g := by
  simp only [Device.bankUpd, Tab.upd, h]

section

variable {bk : BankNo} {v : Word} {now : Nat} {d : Device} {c : Core}

/-- R364: a write that changes neither REQ nor OFFLINE requests nothing. -/
theorem bctlWrite_same (req : fld v 1 0 = (d.mem.bank.at bk).req.toNat) (off : bitOf v 5 = (d.mem.bank.at bk).offline) :
    bctlWrite bk v now d = d.bankUpd bk (fun b => { b with autowake := bitOf v 4 }) := by
  simp only [bctlWrite, req, off, and_self, if_true]

/-- R364: a request for another state, the event ring being disabled. -/
theorem bctlWrite_takes (req : fld v 1 0 ≠ (d.mem.bank.at bk).req.toNat) (known : fld v 1 0 ≠ 3) (off : bitOf v 5 = false)
    (ring : d.evc.en = false) : bctlWrite bk v now d = d.bankUpd bk (fun b => { b with
      req := BitVec.ofNat 2 (fld v 1 0), autowake := bitOf v 4, offline := false, pend := true, pendAt := now }) := by
  have taken : bctlRefused bk v d = false := by simp [bctlRefused, known, off, ringUses, ring]
  simp only [bctlWrite, req, taken, off, false_and, if_false, Bool.false_eq_true]

/-- R364: REQ 3 is reserved. -/
theorem bctlWrite_refused (old : (d.mem.bank.at bk).req ≠ 3) (req : fld v 1 0 = 3) :
    bctlWrite bk v now d = d.bankUpd bk (fun b => { b with ref := true }) := by
  have other : ¬ 3 = (d.mem.bank.at bk).req.toNat := fun same => old (BitVec.eq_of_toNat_eq same.symm)
  have refused : bctlRefused bk v d = true := by simp [bctlRefused, req]
  simp only [bctlWrite, req, other, refused, false_and, if_false, if_true]

/-- R364, R379: the requested state is reached: it stands, nothing is requested any more, and it is recorded. -/
theorem bankReach_of (pend : (d.mem.bank.at bk).pend = true) (st : BankSt) :
    (bankReach bk st now d).mem.bank = d.mem.bank.upd bk (fun b => { b with st := st, pend := false }) ∧
    causes 247 (bankReach bk st now d) = causes 247 d + 1 := by
  simp only [bankReach, pend, if_true, raiseMem, raise_mem, Device.bankUpd_mem]
  exact ⟨trivial, causes_raise (by decide) _ _ _ _ _ _⟩

theorem bankReach_same (pend : (d.mem.bank.at bk).pend = true) (st : BankSt) :
    ((bankReach bk st now d).mem.bank.at bk).st = st ∧ ((bankReach bk st now d).mem.bank.at bk).pend = false := by
  obtain ⟨banks, -⟩ := bankReach_of (now := now) pend st
  rw [banks, Tab.at_upd_same]
  exact ⟨rfl, rfl⟩

theorem bankReach_others (pend : (d.mem.bank.at bk).pend = true) (st : BankSt) :
    ∀ o, o ≠ bk → (bankReach bk st now d).mem.bank.at o = d.mem.bank.at o := by
  intro o other
  obtain ⟨banks, -⟩ := bankReach_of (now := now) pend st
  rw [banks, Tab.at_upd_ne _ _ other]

/-- R364, R375: a change that is not requested, not due, or held up by the window of the bank. -/
theorem bankChange_waits (waits : (c.dev.mem.bank.at bk).pend = false ∨ now ≤ (c.dev.mem.bank.at bk).pendAt ∨
    (c.dev.mem.borrow = true ∧ c.dev.mem.mbank = bk.val)) : bankChange bk now c = c := by
  have held : (!(c.dev.mem.bank.at bk).pend || decide (now ≤ (c.dev.mem.bank.at bk).pendAt) ||
      (c.dev.mem.borrow && c.dev.mem.mbank == bk.val)) = true := by
    rcases waits with off | early | ⟨borrow, bank⟩
    · simp [off]
    · simp [early]
    · simp [borrow, bank]
  simp only [bankChange, held, if_true]

/-- R364, R375: a change that is due, of a bank that the mace is not at work on. -/
theorem bankChange_due (pend : (c.dev.mem.bank.at bk).pend = true) (due : (c.dev.mem.bank.at bk).pendAt < now)
    (free : c.dev.mem.borrow = false) : bankChange bk now c =
      (let t := (c.dev.mem.bank.at bk).target
       let go : Core → Core := fun c => { ram := loseIfOff bk t c.ram, dev := bankReach bk t now (maceInterrupt bk now c.dev) }
       match (c.dev.mem.bank.at bk).st with
       | .waking => c
       | .powering => c
       | .off => if t = .off then go c else c.mapDev (fun d => d.bankUpd bk (fun x => { x with st := .powering }))
       | .retention =>
         if t = .on ∨ t = .offline then c.mapDev (fun d => d.bankUpd bk (fun x => { x with st := .waking })) else go c
       | .on => if t = .on then c.mapDev (bankReach bk t now) else go c
       | .offline => if t = .offline then c.mapDev (bankReach bk t now) else go c) := by
  have ready : ¬ (!(c.dev.mem.bank.at bk).pend || decide (now ≤ (c.dev.mem.bank.at bk).pendAt) ||
      (c.dev.mem.borrow && c.dev.mem.mbank == bk.val)) = true := by
    simp [pend, free, due]
  unfold bankChange
  dsimp only
  exact if_neg ready

theorem maceInterrupt_idle (idle : d.mem.mst = .idle) : maceInterrupt bk now d = d := by
  simp only [maceInterrupt, idle, if_true]

section

variable (pend : (c.dev.mem.bank.at bk).pend = true) (due : (c.dev.mem.bank.at bk).pendAt < now)
  (free : c.dev.mem.borrow = false)
include pend due free

/-- R363: a bank that is on is turned off, or to RETENTION. -/
theorem bankChange_down (idle : c.dev.mem.mst = .idle) (on : (c.dev.mem.bank.at bk).st = .on) {t : BankSt}
    (target : (c.dev.mem.bank.at bk).target = t) (down : t ≠ .on) :
    bankChange bk now c = { ram := loseIfOff bk t c.ram, dev := bankReach bk t now c.dev } := by
  rw [bankChange_due pend due free]
  dsimp only
  rw [on, target]
  dsimp only
  rw [if_neg down, maceInterrupt_idle idle]

/-- R363: a bank in RETENTION wakes. -/
theorem bankChange_wakes (st : (c.dev.mem.bank.at bk).st = .retention) (target : (c.dev.mem.bank.at bk).target = .on) :
    bankChange bk now c = c.mapDev (fun d => d.bankUpd bk (fun b => { b with st := .waking })) := by
  rw [bankChange_due pend due free]
  dsimp only
  rw [st, target]
  exact if_pos (Or.inl rfl)

/-- R363: a bank that is off is powered. -/
theorem bankChange_powers (st : (c.dev.mem.bank.at bk).st = .off) (target : (c.dev.mem.bank.at bk).target ≠ .off) :
    bankChange bk now c = c.mapDev (fun d => d.bankUpd bk (fun b => { b with st := .powering })) := by
  rw [bankChange_due pend due free]
  dsimp only
  rw [st]
  exact if_neg target

end

theorem target_of_req {b : Bank} (online : b.offline = false) : (b.req = 0 → b.target = .on) ∧
    (b.req = 1 → b.target = .retention) ∧ (b.req = 2 → b.target = .off) := by
  refine ⟨?_, ?_, ?_⟩ <;> intro req <;> simp [Bank.target, online, req]

/-- R363: a waking bank is on again with its contents. -/
theorem bankPowered_waking (st : (c.dev.mem.bank.at bk).st = .waking) (target : (c.dev.mem.bank.at bk).target = .on) :
    bankPowered bk now c = c.mapDev (bankReach bk .on now) := by
  simp only [bankPowered, st, target, loseIfOff, if_neg (show ¬ BankSt.on = .off by decide)]
  rfl

/-- R363: a powered bank is on with undefined contents. -/
theorem bankPowered_powering (st : (c.dev.mem.bank.at bk).st = .powering) (target : (c.dev.mem.bank.at bk).target = .on) :
    bankPowered bk now c = { ram := c.ram.loseBank bk, dev := bankReach bk .on now c.dev } := by
  simp only [bankPowered, st, target]

theorem bankPowered_still (waking : (c.dev.mem.bank.at bk).st ≠ .waking) (powering : (c.dev.mem.bank.at bk).st ≠ .powering) :
    bankPowered bk now c = c := by
  unfold bankPowered
  dsimp only
  split
  · exact absurd ‹_› waking
  · exact absurd ‹_› powering
  · rfl

end

/-! ## The March tests on one row -/

/-- A word read from cells of which bit `i` is stuck at `x`. -/
def stuckAt (i : Fin 64) (x : Bool) (v : DWord) : DWord := if x then v ||| (1#64 <<< i.val) else v &&& ~~~(1#64 <<< i.val)

theorem getLsbD_stuckAt (i : Fin 64) (x : Bool) (v : DWord) (k : Nat) (inside : k < 64) :
    (stuckAt i x v).getLsbD k = if k = i.val then x else v.getLsbD k := by
  have one : (1#64 <<< i.val).getLsbD k = decide (k = i.val) := by
    rw [BitVec.getLsbD_shiftLeft, BitVec.getLsbD_one]
    by_cases same : k = i.val
    · simp [same]
    · have : ¬ (i.val ≤ k ∧ k - i.val = 0) := by omega
      simp only [same, decide_false]
      simp only [inside, decide_true, Bool.true_and, Bool.and_eq_false_iff, decide_eq_false_iff_not, Bool.not_eq_false',
        decide_eq_true_eq]
      omega
  cases x with
  | false =>
    rw [stuckAt, if_neg Bool.false_ne_true, BitVec.getLsbD_and, BitVec.getLsbD_not, one]
    by_cases same : k = i.val
    · simp [same]
    · simp [same, inside]
  | true =>
    rw [stuckAt, if_pos rfl, BitVec.getLsbD_or, one]
    by_cases same : k = i.val
    · simp [same]
    · simp [same]

/-- A stuck bit shows unless the word holds its value there. -/
theorem stuckAt_eq_iff (i : Fin 64) (x : Bool) (v : DWord) : stuckAt i x v = v ↔ v.getLsbD i.val = x := by
  constructor
  · intro same
    rw [← same, getLsbD_stuckAt i x v i.val i.isLt, if_pos rfl]
  · intro holds
    apply BitVec.eq_of_getLsbD_eq
    intro k inside
    rw [getLsbD_stuckAt i x v k inside]
    split
    · next same => rw [same, holds]
    · rfl

theorem readCell_stuck (w i : Fin 64) (x : Bool) (e o : Nat) (v : DWord) :
    readCell [.stuck w i x] e o w v = stuckAt i x v := by
  simp only [readCell, List.foldl_cons, List.foldl_nil, CellFault.read, ne_eq, not_true, if_false]
  rfl

theorem readCell_elsewhere {w k : Fin 64} (other : k ≠ w) (i : Fin 64) (x : Bool) (e o : Nat) (v : DWord) :
    readCell [.stuck w i x] e o k v = v := by
  simp only [readCell, List.foldl_cons, List.foldl_nil, CellFault.read, ne_eq, other.symm, not_false_iff, if_true]

/-- The element that finds a cell stuck at `x` in bit `i`, under background `D`. -/
def stuckElem (D : DWord) (i : Fin 64) (x : Bool) : Nat := if D.getLsbD i.val = x then 2 else 1

/-- R368, R370: both March tests find a stuck cell: at the first read of the background, or of its complement. -/
theorem marchWord_stuck (ss : Bool) (D : DWord) (w i : Fin 64) (x : Bool) (v : DWord) :
    (marchWord ss D [.stuck w i x] w v).2 = some (stuckElem D i x) := by
  have read (e o : Nat) (v : DWord) : readCell [.stuck w i x] e o w v = stuckAt i x v := readCell_stuck w i x e o v
  have complement : (~~~D).getLsbD i.val = !D.getLsbD i.val := by
    rw [BitVec.getLsbD_not, decide_eq_true i.isLt, Bool.true_and]
  have zero := stuckAt_eq_iff i x D
  have one := stuckAt_eq_iff i x (~~~D)
  rw [complement] at one
  by_cases holds : D.getLsbD i.val = x
  · have passes : stuckAt i x D = D := zero.mpr holds
    have fails : ¬ stuckAt i x (~~~D) = ~~~D := by
      rw [one, holds]
      cases x <;> decide
    rw [stuckElem, if_pos holds]
    cases ss with
    | false => simp [marchWord, marchElems, List.zipIdx, MarchOp.run, read, passes, fails]
    | true => simp [marchWord, marchElems, List.zipIdx, MarchOp.run, read, passes, fails]
  · have fails : ¬ stuckAt i x D = D := fun same => holds (zero.mp same)
    rw [stuckElem, if_neg holds]
    cases ss with
    | false => simp [marchWord, marchElems, List.zipIdx, MarchOp.run, read, fails]
    | true => simp [marchWord, marchElems, List.zipIdx, MarchOp.run, read, fails]

theorem marchRow_stuck (ss : Bool) (D : DWord) (w i : Fin 64) (x : Bool) :
    marchRow ss D [.stuck w i x] = some (stuckElem D i x) := by
  simp [marchRow, marchWord_stuck]

/-- R368, R370: a word misread by the first read of element 1 fails its row there. -/
theorem marchRow_misread (ss : Bool) (D : DWord) (w : Fin 64) {e : DWord} (some' : e ≠ 0) :
    (marchRow ss D [.misread 1 0 w e]).isSome = true := by
  have changed : ¬ D ^^^ e = D := by
    intro same
    apply some'
    have := congrArg (fun v => D ^^^ v) same
    simpa using this
  have found (v : DWord) : (marchWord ss D [.misread 1 0 w e] w v).2 = some 1 := by
    cases ss with
    | false => simp [marchWord, marchElems, List.zipIdx, MarchOp.run, readCell, CellFault.read, changed]
    | true => simp [marchWord, marchElems, List.zipIdx, MarchOp.run, readCell, CellFault.read, changed]
  simp [marchRow, found]

/-- R372, R374: sound cells read back what was restored. -/
theorem badWords_sound (cells : Tab DWord 64) : badWords [] cells = [] := by
  simp [badWords, readCell]

/-- R374: the words that a stuck cell cannot hold. -/
theorem badWords_stuck (w i : Fin 64) (x : Bool) (cells : Tab DWord 64) :
    badWords [.stuck w i x] cells = if (cells.at w).getLsbD i.val = x then [] else [w] := by
  have elsewhere (k : Fin 64) (other : k ≠ w) : (readCell [.stuck w i x] 6 0 k (cells.at k) != cells.at k) = false := by
    rw [readCell_elsewhere other, bne_self_eq_false]
  split
  · next holds =>
    apply List.filter_eq_nil_iff.mpr
    intro k _
    by_cases same : k = w
    · rw [same, readCell_stuck, (stuckAt_eq_iff i x _).mpr holds, bne_self_eq_false]
      exact Bool.false_ne_true
    · rw [elsewhere k same]
      exact Bool.false_ne_true
  · next broken =>
    have bad : (readCell [.stuck w i x] 6 0 w (cells.at w) != cells.at w) = true := by
      rw [readCell_stuck, bne_iff_ne]
      exact fun same => broken ((stuckAt_eq_iff i x _).mp same)
    have only (k : Fin 64) : (readCell [.stuck w i x] 6 0 k (cells.at k) != cells.at k) = (k == w) := by
      by_cases same : k = w
      · rw [same, bad, beq_self_eq_true]
      · rw [elsewhere k same, beq_false_of_ne same]
    rw [badWords, List.filter_congr fun k _ => only k, List.filter_beq, List.count_eq_one_of_mem (fins_nodup 64) (mem_fins w)]
    rfl

/-- R370, R371: a whole-bank run over a bank whose one fault is a stuck cell finds its row. -/
theorem marchBank_stuck (ss : Bool) (D : DWord) (b : BankNo) (r : Fin 256) (w i : Fin 64) (x : Bool) :
    marchBank ss D (rowsOf b [⟨b, r, .stuck w i x⟩]) = [r] := by
  have rows : (fins 256).filter (fun o => r == o) = [r] := by
    have same : (fins 256).filter (fun o => r == o) = (fins 256).filter (fun o => o == r) :=
      List.filter_congr fun o _ => Bool.eq_iff_iff.mpr (by rw [beq_iff_eq, beq_iff_eq, eq_comm])
    rw [same, List.filter_beq, List.count_eq_one_of_mem (fins_nodup 256) (mem_fins r)]
    rfl
  have faulty : rowsOf b [⟨b, r, .stuck w i x⟩] = [(r, [.stuck w i x])] := by
    simp [rowsOf, rows]
  have elem : stuckElem D i x = 1 ∨ stuckElem D i x = 2 := by
    unfold stuckElem
    split <;> simp
  rw [faulty, marchBank]
  simp only [List.filterMap_cons, List.filterMap_nil, marchRow_stuck, Option.map_some]
  rcases elem with elem | elem
  · rw [elem]
    cases ss <;> rfl
  · rw [elem]
    cases ss <;> rfl

end Machine

end Sys2Proof

namespace Sys2Proof

namespace Machine

/-! ## The mace: GO and ABORT -/

theorem exec_maceGo (v : Word) (s : State) : exec (.maceGo v) s = s.run (mctlWrite (v ||| 1)) := rfl
theorem exec_maceAbort (s : State) : exec .maceAbort s = s.runDev maceAbort := rfl
theorem exec_maceWindow (p : WindowPart) (s : State) : exec (.maceWindow p) s = s.run (maceWindow p) := rfl
theorem exec_destructiveRun (f : List RowFault) (g : List SpareFault) (s : State) :
    exec (.destructiveRun f g) s = s.runDev (destrEnd f g) := rfl

/-- R380: the fields of MEM_MCTL that a write with GO leaves. -/
def mctlBits (v : Word) : Word := (v ||| 1) &&& 0xFFFF_007C

/-- R380: the fields are in place. -/
def Device.mctled (v : Word) (d : Device) : Device := { d with mem := { d.mem with mctl := mctlBits v } }

theorem bitOf_mctlBits {k : Nat} (kept : (0xFFFF_007C : Word).getLsbD k = true) (other : (1 : Word).getLsbD k = false)
    (v : Word) : bitOf (mctlBits v) k = bitOf v k := by
  rw [bitOf, mctlBits, BitVec.getLsbD_and, BitVec.getLsbD_or, kept, other, Bool.or_false, Bool.and_true, bitOf]

theorem maceNames_mctlBits (v : Word) (b : BankNo) : maceNames (mctlBits v) b.val = bitOf v (16 + b.val) := by
  have kept : ∀ b : BankNo, (0xFFFF_007C : Word).getLsbD (16 + b.val) = true := by decide
  have other : ∀ b : BankNo, (1 : Word).getLsbD (16 + b.val) = false := by decide
  exact bitOf_mctlBits (kept b) (other b) v

theorem mem_maceBanks (w : Word) (b : BankNo) : b ∈ maceBanks w ↔ maceNames w b.val = true := by
  rw [maceBanks, List.mem_filter, and_iff_right (mem_fins b)]

theorem maceBanks_nodup (w : Word) : (maceBanks w).Nodup := (fins_nodup 16).filter _

/-- A filter of a rising list begins with the least that passes it. -/
theorem filter_head {α : Type} [LinearOrder α] {p : α → Bool} {k : α} (pass : p k = true) (least : ∀ o, o < k → p o = false) :
    ∀ l : List α, l.Pairwise (· < ·) → k ∈ l → ∃ rest, l.filter p = k :: rest
  | [], _, mem => absurd mem List.not_mem_nil
  | a :: l, rising, mem => by
    obtain ⟨below, rising⟩ := List.pairwise_cons.mp rising
    rcases List.mem_cons.mp mem with rfl | mem
    · exact ⟨_, List.filter_cons_of_pos pass⟩
    · rw [List.filter_cons_of_neg (by rw [least a (below k mem)]; exact Bool.false_ne_true)]
      exact filter_head pass least l rising mem

theorem maceBanks_head {w : Word} {k : BankNo} (named : maceNames w k.val = true)
    (least : ∀ o : BankNo, o < k → maceNames w o.val = false) : ∃ rest, maceBanks w = k :: rest :=
  filter_head (p := fun b : BankNo => maceNames w b.val) named least (fins 16) (by decide) (mem_fins k)

section

variable {v : Word} {now : Nat} {c : Core} {d : Device}

/-- R371, R372: a write with GO and without ABORT. -/
theorem mctlWrite_go (goes : bitOf v 1 = false) : mctlWrite (v ||| 1) now c = maceGo now (c.mapDev (Device.mctled v)) := by
  have abort : bitOf (v ||| 1) 1 = false := by
    have other : (1 : Word).getLsbD 1 = false := by decide
    rw [bitOf, BitVec.getLsbD_or, other, Bool.or_false]
    exact goes
  have go : bitOf (v ||| 1) 0 = true := by
    have one : (1 : Word).getLsbD 0 = true := by decide
    rw [bitOf, BitVec.getLsbD_or, one, Bool.or_true]
  simp only [mctlWrite, abort, go, if_true, Bool.false_eq_true, if_false]
  rfl

/-- R371: GO refused. -/
def Device.goDenied (now : Nat) (d : Device) : Device :=
  raiseMem 0x0E 0x05 (goRefused d) now { d with mem := { d.mem with merr := true } }

theorem maceGo_refused (refused : goRefused c.dev ≠ 0) : maceGo now c = c.mapDev (Device.goDenied now) := by
  simp only [maceGo, refused, ne_eq, not_false_iff, if_true]
  rfl

theorem goRefused_busy (busy : d.mem.mst ≠ .idle) : goRefused d = 1 := by
  simp only [goRefused, busy, ne_eq, not_false_iff, if_true]

theorem goRefused_nothing (idle : d.mem.mst = .idle) (none : ∀ b : BankNo, maceNames d.mem.mctl b.val = false) :
    goRefused d = 3 := by
  have empty : maceBanks d.mem.mctl = [] :=
    List.filter_eq_nil_iff.mpr fun b _ => by rw [none b]; exact Bool.false_ne_true
  simp [goRefused, idle, empty]

theorem goRefused_none {k : BankNo} {rest : List BankNo} (idle : d.mem.mst = .idle)
    (named : maceBanks d.mem.mctl = k :: rest) (preserving : mctlMode d.mem.mctl = false) : goRefused d = 0 := by
  simp [goRefused, idle, named, preserving]

/-- R380: a GO clears the results of the banks that it names. -/
theorem clearRes_all : ∀ (l : List BankNo) (d : Device), ∃ t : Tab Bank 16,
    l.foldl (fun d b => d.bankUpd b Bank.clearRes) d = { d with mem := { d.mem with bank := t } } ∧
    ∀ o, t.at o = if o ∈ l then (d.mem.bank.at o).clearRes else d.mem.bank.at o
  | [], d => ⟨d.mem.bank, rfl, fun o => by rw [if_neg List.not_mem_nil]⟩
  | b :: l, d => by
    obtain ⟨t, all, each⟩ := clearRes_all l (d.bankUpd b Bank.clearRes)
    refine ⟨t, all, fun o => ?_⟩
    rw [each o, Device.bankUpd_mem]
    by_cases same : o = b
    · rw [same, Tab.at_upd_same, if_pos List.mem_cons_self]
      exact ite_self _
    · simp only [Tab.at_upd_ne _ _ same, List.mem_cons, same, false_or]

/-- R375: at rest between windows, the mace runs or pauses as the governor says. -/
theorem macePause_running (run : d.mem.mst = .run) (preserving : d.mem.destr = false) (free : d.mem.borrow = false) :
    macePause d = { d with mem := { d.mem with
      mst := if d.thm.stage = 0 then .run else .paused, tpause := decide (1 ≤ d.thm.stage) } } := by
  by_cases cold : d.thm.stage = 0
  · simp [macePause, run, preserving, free, maceDeferred, cold]
  · have hot : 1 ≤ d.thm.stage := by omega
    simp [macePause, run, preserving, free, maceDeferred, cold, hot]

theorem maceSeek_first {b : BankNo} {l : List BankNo} (on : (d.mem.bank.at b).st = .on) :
    maceSeek now (b :: l) d = { d with mem := { d.mem with mbank := b.val, mrow := 0 } } := by
  simp only [maceSeek, on, if_true]

/-- R371, R372: the mace, started on the banks with these results cleared, at the first row of bank `k`. -/
def Device.maced (t : Tab Bank 16) (k : BankNo) (d : Device) : Device := { d with mem := { d.mem with
  bank := t, mst := if d.thm.stage = 0 then .run else .paused, tpause := decide (1 ≤ d.thm.stage), destr := false
  run := d.mem.mctl, mbank := k.val, mrow := 0 } }

theorem maceGo_starts {k : BankNo} {rest : List BankNo} (idle : c.dev.mem.mst = .idle) (free : c.dev.mem.borrow = false)
    (named : maceBanks c.dev.mem.mctl = k :: rest) (preserving : mctlMode c.dev.mem.mctl = false)
    (on : (c.dev.mem.bank.at k).st = .on) : ∃ t : Tab Bank 16, maceGo now c = c.mapDev (Device.maced t k) ∧
      ∀ o, t.at o = if o ∈ maceBanks c.dev.mem.mctl then (c.dev.mem.bank.at o).clearRes else c.dev.mem.bank.at o := by
  obtain ⟨t, cleared, each⟩ := clearRes_all (maceBanks c.dev.mem.mctl) c.dev
  have stays : (t.at k).st = .on := by
    rw [each k]
    split
    · exact on
    · exact on
  refine ⟨t, ?_, each⟩
  simp only [maceGo, goRefused_none idle named preserving, preserving, cleared, ne_eq, not_true, if_false,
    Bool.false_eq_true]
  rw [named, maceSeek_first stays, macePause_running (d := { c.dev with mem := { c.dev.mem with
    bank := t, mst := .run, destr := false, run := c.dev.mem.mctl, mbank := k.val, mrow := 0 } }) rfl rfl free]
  rfl

/-- R375: the run under way ends. -/
theorem maceDone_mem (now : Nat) (d : Device) : (maceDone now d).mem =
    { d.mem with mst := .idle, tpause := false, destr := false, borrow := false, stop := false } := by
  rw [maceDone, doneRecord, raiseMem, raise_mem]

theorem maceDone_causes (now : Nat) (d : Device) : causes 247 (maceDone now d) = causes 247 d + 1 :=
  causes_raise (by decide) _ _ _ _ _ _

theorem maceAbort_idle (idle : d.mem.mst = .idle) : maceAbort now d = d := by
  simp only [maceAbort, idle, if_true]

theorem maceAbort_borrowed (busy : d.mem.mst ≠ .idle) (borrow : d.mem.borrow = true) :
    maceAbort now d = { d with mem := { d.mem with stop := true } } := by
  simp only [maceAbort, busy, borrow, if_true, if_false]

theorem maceAbort_ends (busy : d.mem.mst ≠ .idle) (free : d.mem.borrow = false) : maceAbort now d = maceDone now d := by
  simp only [maceAbort, busy, free, if_false, Bool.false_eq_true]

/-! ## The mace: windows -/

theorem windowBorrow_idles (waits : c.dev.mem.mst ≠ .run ∨ c.dev.mem.destr = true ∨ c.dev.mem.borrow = true ∨
    (c.dev.mem.bank.at (Fin.ofNat 16 c.dev.mem.mbank)).pend = true) : windowBorrow c = c := by
  have held : (decide (c.dev.mem.mst ≠ .run) || c.dev.mem.destr || c.dev.mem.borrow ||
      (c.dev.mem.bank.at (Fin.ofNat 16 c.dev.mem.mbank)).pend) = true := by
    rcases waits with still | destr | borrow | pend
    · simp [still]
    · simp [destr]
    · simp [borrow]
    · rw [pend, Bool.or_true]
  unfold windowBorrow
  dsimp only
  rw [if_pos held]

theorem windowBorrow_of (run : c.dev.mem.mst = .run) (preserving : c.dev.mem.destr = false) (free : c.dev.mem.borrow = false)
    (quiet : (c.dev.mem.bank.at (Fin.ofNat 16 c.dev.mem.mbank)).pend = false) :
    windowBorrow c = c.mapDev (fun d => { d with mem := { d.mem with
      borrow := true, cells := rowWords (Fin.ofNat 16 c.dev.mem.mbank) c.dev.mem.mrow c.ram } }) := by
  unfold windowBorrow
  dsimp only
  rw [if_neg (by rw [run, preserving, free, quiet]; decide)]
  rfl

/-- R372, R375: the window is given back, its cells holding `cells`, and the mace goes on. -/
def Device.released (cells : Tab DWord 64) (now : Nat) (d : Device) : Device :=
  macePause (maceNext now { d with mem := { d.mem with borrow := false, cells := cells } })

theorem released_next (run : d.mem.mst = .run) (preserving : d.mem.destr = false) (inside : d.mem.mrow < 255)
    (cells : Tab DWord 64) : d.released cells now = { d with mem := { d.mem with
      borrow := false, cells := cells, mrow := d.mem.mrow + 1
      mst := if d.thm.stage = 0 then .run else .paused, tpause := decide (1 ≤ d.thm.stage) } } := by
  have next : maceNext now { d with mem := { d.mem with borrow := false, cells := cells } } =
      { d with mem := { d.mem with borrow := false, cells := cells, mrow := d.mem.mrow + 1 } } := by
    simp only [maceNext, inside, if_true]
  rw [Device.released, next, macePause_running (d := { d with mem := { d.mem with
    borrow := false, cells := cells, mrow := d.mem.mrow + 1 } }) run preserving rfl]

/-- R370, R374: the window's words that the cells do not hold are lost. -/
def Core.loses (b : BankNo) (r : Nat) (lost : List (Fin 64)) (now : Nat) (c : Core) : Core :=
  (lost.foldl (fun c k => loseWord b r k c) c).mapDev (fun d => lost.foldl (fun d _ => lossRaise b r now d) d)

/-- R372 to R374: a finished window whose row stays in its own cells. -/
theorem windowFinish_stays {row spare : List CellFault} (borrow : c.dev.mem.borrow = true) (goes : c.dev.mem.stop = false)
    (stays : (marchRow (mctlAlg c.dev.mem.run) (mctlBack c.dev.mem.run) row).isSome = false ∨
      mctlLive c.dev.mem.run = false) :
    windowFinish row spare now c =
      (let b : BankNo := Fin.ofNat 16 c.dev.mem.mbank
       let saved := rowWords b c.dev.mem.mrow c.ram
       let fails := (marchRow (mctlAlg c.dev.mem.run) (mctlBack c.dev.mem.run) row).isSome
       ((c.mapDev (fun d => if fails then rowFail b c.dev.mem.mrow now d else d)).loses b c.dev.mem.mrow
         (badWords row saved) now).mapDev (Device.released saved now)) := by
  have unmoved : ((marchRow (mctlAlg c.dev.mem.run) (mctlBack c.dev.mem.run) row).isSome &&
      mctlLive c.dev.mem.run) = false := by
    rcases stays with passes | fixed
    · rw [passes, Bool.false_and]
    · rw [fixed, Bool.and_false]
  simp only [windowFinish, borrow, unmoved, goes, Bool.not_true, Bool.false_eq_true, if_false, Core.loses, Core.mapDev,
    Device.released]

theorem windowFinish_idles {row spare : List CellFault} (free : c.dev.mem.borrow = false) :
    windowFinish row spare now c = c := by
  simp only [windowFinish, free, Bool.not_false, if_true]

/-- R370: the results of a bank with one more failing row. -/
def Bank.rowFails (r : Nat) (x : Bank) : Bank :=
  { x with frow := if x.nfail = 0 then r else x.frow, nfail := satInc 8 x.nfail }

theorem rowFail_mem (b : BankNo) (r now : Nat) (d : Device) : (rowFail b r now d).mem = (d.bankUpd b (Bank.rowFails r)).mem := by
  unfold rowFail
  dsimp only
  split
  · rw [raiseMem, raise_mem]
    rfl
  · rfl

theorem rowFail_thm (b : BankNo) (r now : Nat) (d : Device) : (rowFail b r now d).thm = d.thm := by
  unfold rowFail
  dsimp only
  split
  · rfl
  · rfl

/-- R370: the first failing row of a bank is recorded. -/
theorem rowFail_causes {b : BankNo} (first : (d.mem.bank.at b).nfail = 0) (r : Nat) :
    causes 247 (rowFail b r now d) = causes 247 d + 1 := by
  simp only [rowFail, first, if_true, raiseMem]
  rw [causes_raise (by decide)]
  rfl

/-- R374: LOSS stands at its bank, with its row. -/
theorem lossRaise_mem (b : BankNo) (r now : Nat) (d : Device) : (lossRaise b r now d).mem =
    { d.mem with bank := d.mem.bank.upd b (fun x => { x with loss := true }), lrow := r } := by
  rw [lossRaise]
  dsimp only
  rw [raiseMem, raise_mem, Device.bankUpd_mem]

theorem lossRaise_causes (b : BankNo) (r now : Nat) (d : Device) :
    causes 247 (lossRaise b r now d) = causes 247 d + 1 :=
  causes_raise (by decide) _ _ _ _ _ _

end

theorem rowWord_aligned (b : BankNo) (r : Nat) (k : Fin 64) : rowWord b r k % 8 = 0 := by
  unfold rowWord
  omega

/-- R374: a word that is lost takes its own eight bytes and nothing else. -/
theorem loseWord_ram {b : BankNo} {r : Nat} {k : Fin 64} {c : Core} (wf : c.ram.wf) :
    (∀ o, wordOf o ≠ rowWord b r k → (loseWord b r k c).ram.bankRead 1 o = c.ram.bankRead 1 o) ∧
    (loseWord b r k c).ram.alm = c.ram.alm ∧ (loseWord b r k c).ram.prog = c.ram.prog := by
  have aligned := rowWord_aligned b r k
  refine ⟨fun o apart => ?_, Ram.bankWrite_alm _ _ _ _, Ram.bankWrite_prog _ _ _ _⟩
  refine Ram.bankRead_bankWrite_apart wf _ _ _ _ _ ?_
  unfold wordOf at apart
  omega

/-! ## The mace: LIVEREP -/

section

variable {now : Nat} {c : Core} {d : Device}

/-- R377: a failing row moves to spare 0, if that is free and sound. -/
theorem liveRepair_zero {b : BankNo} (free : ((d.mem.bank.at b).spares.at 0).valid = false)
    (sound : ((d.mem.bank.at b).spares.at 0).bad = false) (r : Fin 256) :
    liveRepair b r false d = (d.bankUpd b (fun x => mapRow 0 r (failMapped r x)), true) := by
  have spare : freeSpare (d.mem.bank.at b) = some 0 := by
    have two : fins 2 = [0, 1] := rfl
    simp [freeSpare, two, free, sound]
  simp only [liveRepair, spare, Bool.false_eq_true, if_false]

/-- R376: the spare that a row is mapped to. -/
theorem mapRow_at (k : Fin 2) (r : Fin 256) (x : Bank) : (mapRow k r x).spares.at k =
    { x.spares.at k with row := r, valid := true, fused := false } := Tab.at_upd_same _ _ _

/-- R372, R377: a finished window whose row moves to a spare without faults. -/
theorem windowFinish_moves {row : List CellFault} (borrow : c.dev.mem.borrow = true) (goes : c.dev.mem.stop = false)
    (fails : (marchRow (mctlAlg c.dev.mem.run) (mctlBack c.dev.mem.run) row).isSome = true)
    (live : mctlLive c.dev.mem.run = true)
    (free : ((c.dev.mem.bank.at (Fin.ofNat 16 c.dev.mem.mbank)).spares.at 0).valid = false)
    (sound : ((c.dev.mem.bank.at (Fin.ofNat 16 c.dev.mem.mbank)).spares.at 0).bad = false) :
    ∃ cells, windowFinish row [] now c = c.mapDev (fun d =>
      Device.released cells now ((rowFail (Fin.ofNat 16 c.dev.mem.mbank) c.dev.mem.mrow now d).bankUpd
        (Fin.ofNat 16 c.dev.mem.mbank)
        (fun x => mapRow 0 (Fin.ofNat 256 c.dev.mem.mrow) (failMapped (Fin.ofNat 256 c.dev.mem.mrow) x)))) := by
  have spares : ((rowFail (Fin.ofNat 16 c.dev.mem.mbank) c.dev.mem.mrow now c.dev).mem.bank.at
      (Fin.ofNat 16 c.dev.mem.mbank)).spares = (c.dev.mem.bank.at (Fin.ofNat 16 c.dev.mem.mbank)).spares := by
    rw [rowFail_mem, Device.bankUpd_mem, Tab.at_upd_same]
    rfl
  have moved := liveRepair_zero (d := rowFail (Fin.ofNat 16 c.dev.mem.mbank) c.dev.mem.mrow now c.dev)
    (by rw [spares]; exact free) (by rw [spares]; exact sound) (Fin.ofNat 256 c.dev.mem.mrow)
  refine ⟨marchCells (mctlAlg c.dev.mem.run) (mctlBack c.dev.mem.run) row c.dev.mem.cells, ?_⟩
  simp only [windowFinish, borrow, goes, fails, live, marchRow_sound, Option.isSome_none, moved, badWords_sound,
    List.foldl_nil, Bool.and_self, Bool.not_true, Bool.false_eq_true, if_true, if_false]
  rfl

end

/-! ## The mace: whole-bank runs -/

/-- R370, R371, R376: `y` is bank `x`, its number `b`, after a destructive run over these faults. -/
def Bank.ranAs (ss : Bool) (D : DWord) (faults : List RowFault) (b : BankNo) (x y : Bank) : Prop :=
  let z := (marchBank ss D (rowsOf b faults)).foldl (fun x r => x.rowFails r.val) x
  y.valid = true ∧ y.nfail = z.nfail ∧ y.frow = z.frow

theorem rowFails_mem (b : BankNo) (now : Nat) : ∀ (rows : List (Fin 256)) (d : Device),
    (rows.foldl (fun d r => rowFail b r.val now d) d).mem =
      (d.bankUpd b (fun x => rows.foldl (fun x r => x.rowFails r.val) x)).mem
  | [], d => by rw [Device.bankUpd_mem, List.foldl_nil, Tab.upd_same _ _ _ rfl]
  | r :: rows, d => by
    rw [List.foldl_cons, rowFails_mem b now rows, Device.bankUpd_mem, rowFail_mem, Device.bankUpd_mem, Device.bankUpd_mem,
      Tab.upd_upd]
    rfl

/-- R376: mapping rows leaves the results. -/
theorem mapRows_results : ∀ (rows : List (Fin 256)) (x : Bank), (mapRows rows x).1.valid = x.valid ∧
    (mapRows rows x).1.nfail = x.nfail ∧ (mapRows rows x).1.frow = x.frow
  | [], _ => ⟨rfl, rfl, rfl⟩
  | r :: rows, x => by
    unfold mapRows
    dsimp only
    split
    · exact mapRows_results rows _
    · exact mapRows_results rows _

theorem applyFused_results (f : Fuses) (b : BankNo) (x : Bank) :
    (applyFused f b x).nfail = x.nfail ∧ (applyFused f b x).frow = x.frow := by
  refine foldl_keeps (fun y : Bank => y.nfail = x.nfail ∧ y.frow = x.frow) _ ?_ _ x ⟨rfl, rfl⟩
  rintro y m results
  split
  · exact results
  · exact results

theorem repairBank_mem (b : BankNo) (rows : List (Fin 256)) (now : Nat) (d : Device) : (repairBank b rows now d).mem =
    (d.bankUpd b (fun _ => { (mapRows rows (d.mem.bank.at b)).1 with unrep := (mapRows rows (d.mem.bank.at b)).2 })).mem := by
  unfold repairBank
  dsimp only
  split
  · rw [raiseMem, raise_mem]
  · rfl

/-- R371: the spares that stand in for no row have been tested. -/
def Bank.sparesTested (ss : Bool) (D : DWord) (bad : List SpareFault) (b : BankNo) (x : Bank) : Bank :=
  { x with spares := x.spares.mapIdx (fun i s => if s.valid then s else { s with bad := spareFails ss D bad b i }) }

/-- R370: what counts failing rows looks at the results alone. -/
theorem rowFails_results : ∀ (rows : List (Fin 256)) (x y : Bank),
    x.nfail = y.nfail → x.frow = y.frow →
    (rows.foldl (fun x r => x.rowFails r.val) x).nfail = (rows.foldl (fun x r => x.rowFails r.val) y).nfail ∧
    (rows.foldl (fun x r => x.rowFails r.val) x).frow = (rows.foldl (fun x r => x.rowFails r.val) y).frow
  | [], _, _, count, first => ⟨count, first⟩
  | r :: rows, x, y, count, first => by
    refine rowFails_results rows (x.rowFails r.val) (y.rowFails r.val) ?_ ?_
    · simp only [Bank.rowFails, count]
    · simp only [Bank.rowFails, count, first]

/-- R371, R376: a destructive run over a bank changes that bank alone. -/
theorem destrBank_ran (ss : Bool) (D : DWord) (faults : List RowFault) (bad : List SpareFault) (now : Nat) (b : BankNo)
    (d : Device) : ∃ y, (destrBank ss D faults bad now b d).mem = (d.bankUpd b (fun _ => y)).mem ∧
      (d.mem.bank.at b).ranAs ss D faults b y := by
  obtain ⟨e, tested, he⟩ : ∃ e, (marchBank ss D (rowsOf b faults)).foldl (fun d r => rowFail b r.val now d)
      (d.bankUpd b (Bank.sparesTested ss D bad b)) = e ∧ e.mem = (d.bankUpd b (fun x =>
        (marchBank ss D (rowsOf b faults)).foldl (fun x r => x.rowFails r.val) (x.sparesTested ss D bad b))).mem := by
    refine ⟨_, rfl, ?_⟩
    rw [rowFails_mem, Device.bankUpd_bankUpd]
  obtain ⟨rows, run⟩ : ∃ rows, destrBank ss D faults bad now b d =
      repairBank b rows now (e.bankUpd b (fun x => { applyFused e.fuses b x with valid := true })) := by
    rw [← tested]
    exact ⟨_, rfl⟩
  have bank : (e.bankUpd b (fun x => { applyFused e.fuses b x with valid := true })).mem.bank.at b =
      { applyFused e.fuses b (e.mem.bank.at b) with valid := true } := by
    rw [Device.bankUpd_mem, Tab.at_upd_same]
  have own : e.mem.bank.at b = (marchBank ss D (rowsOf b faults)).foldl (fun x r => x.rowFails r.val)
      ((d.mem.bank.at b).sparesTested ss D bad b) := by
    rw [he, Device.bankUpd_mem, Tab.at_upd_same]
  refine ⟨{ (mapRows rows ((e.bankUpd b (fun x => { applyFused e.fuses b x with valid := true })).mem.bank.at b)).1 with
    unrep := (mapRows rows ((e.bankUpd b (fun x => { applyFused e.fuses b x with valid := true })).mem.bank.at b)).2 },
    ?mem, ?ran⟩
  case mem =>
    rw [run, repairBank_mem]
    simp only [Device.bankUpd_mem, he, Tab.upd_upd]
  case ran =>
    obtain ⟨valid, count, first⟩ := mapRows_results rows
      ((e.bankUpd b (fun x => { applyFused e.fuses b x with valid := true })).mem.bank.at b)
    obtain ⟨fusedCount, fusedFirst⟩ := applyFused_results e.fuses b (e.mem.bank.at b)
    obtain ⟨sameCount, sameFirst⟩ := rowFails_results (marchBank ss D (rowsOf b faults))
      ((d.mem.bank.at b).sparesTested ss D bad b) (d.mem.bank.at b) rfl rfl
    rw [bank] at valid count first
    refine ⟨?_, ?_, ?_⟩
    · rw [bank]
      exact valid
    · rw [bank]
      exact (count.trans fusedCount).trans (by rw [own]; exact sameCount)
    · rw [bank]
      exact (first.trans fusedFirst).trans (by rw [own]; exact sameFirst)

/-- R371: a run over several banks changes those banks alone, each as the run over it does. -/
theorem destrBanks_ran (ss : Bool) (D : DWord) (faults : List RowFault) (bad : List SpareFault) (now : Nat) :
    ∀ (l : List BankNo), l.Nodup → ∀ d : Device, ∃ t : Tab Bank 16,
      (l.foldl (fun d b => destrBank ss D faults bad now b d) d).mem = { d.mem with bank := t } ∧
      (∀ o, o ∉ l → t.at o = d.mem.bank.at o) ∧ ∀ o ∈ l, (d.mem.bank.at o).ranAs ss D faults o (t.at o)
  | [], _, d => ⟨d.mem.bank, rfl, fun _ _ => rfl, fun _ none => absurd none List.not_mem_nil⟩
  | b :: l, distinct, d => by
    obtain ⟨apart, distinct⟩ := List.nodup_cons.mp distinct
    obtain ⟨y, first, ran⟩ := destrBank_ran ss D faults bad now b d
    obtain ⟨t, rest, others, each⟩ := destrBanks_ran ss D faults bad now l distinct (destrBank ss D faults bad now b d)
    have own : (destrBank ss D faults bad now b d).mem.bank.at b = y := by
      rw [first, Device.bankUpd_mem, Tab.at_upd_same]
    have other (o : BankNo) (ne : o ≠ b) : (destrBank ss D faults bad now b d).mem.bank.at o = d.mem.bank.at o := by
      rw [first, Device.bankUpd_mem, Tab.at_upd_ne _ _ ne]
    refine ⟨t, ?_, fun o out => ?_, fun o mem => ?_⟩
    · rw [List.foldl_cons, rest, first, Device.bankUpd_mem]
    · obtain ⟨ne, out⟩ := not_or.mp (fun h => out (List.mem_cons.mpr h))
      rw [others o out, other o ne]
    · rcases List.mem_cons.mp mem with rfl | mem
      · rw [others o apart, own]
        exact ran
      · have ne : o ≠ b := fun same => apart (same ▸ mem)
        rw [← other o ne]
        exact each o mem

/-- R371, R375: the banks of a destructive run that are still part of it. -/
def Device.destrBanks (d : Device) : List BankNo := (maceBanks d.mem.run).filter (fun b => !(d.mem.bank.at b).intr)

theorem mem_destrBanks (d : Device) (o : BankNo) :
    o ∈ d.destrBanks ↔ bitOf d.mem.run (16 + o.val) = true ∧ (d.mem.bank.at o).intr = false := by
  rw [Device.destrBanks, List.mem_filter, mem_maceBanks, Bool.not_eq_true', maceNames]

/-- R371, R375: a destructive run ends with the results of its banks. -/
theorem destrEnd_ends {d : Device} (run : d.mem.mst = .run) (destr : d.mem.destr = true) (faults : List RowFault)
    (bad : List SpareFault) (now : Nat) : ∃ t : Tab Bank 16, (destrEnd faults bad now d).mem = { d.mem with
      bank := t, mst := .idle, tpause := false, destr := false, borrow := false, stop := false } ∧
      (∀ o, o ∉ d.destrBanks → t.at o = d.mem.bank.at o) ∧
      ∀ o ∈ d.destrBanks, (d.mem.bank.at o).ranAs (mctlAlg d.mem.run) (mctlBack d.mem.run) faults o (t.at o) := by
  obtain ⟨t, all, results⟩ := destrBanks_ran (mctlAlg d.mem.run) (mctlBack d.mem.run) faults bad now d.destrBanks
    ((maceBanks_nodup _).filter _) d
  refine ⟨t, ?_, results⟩
  rw [destrEnd, if_pos ⟨run, destr⟩]
  dsimp only
  rw [maceDone_mem]
  unfold Device.destrBanks at all
  rw [all]

theorem destrEnd_idles {d : Device} (other : d.mem.mst ≠ .run ∨ d.mem.destr = false) (faults : List RowFault)
    (bad : List SpareFault) (now : Nat) : destrEnd faults bad now d = d := by
  rw [destrEnd, if_neg]
  rintro ⟨run, destr⟩
  rcases other with still | preserving
  · exact still run
  · rw [preserving] at destr
    exact Bool.false_ne_true destr

end Machine

end Sys2Proof

namespace Sys2Proof

namespace Machine

/-! ## Bank states and mace runs -/

section

variable {now : Nat} {c : Core} {d : Device}

/-- R372: what the release of a window leaves, beside the state of the mace. -/
theorem released_keeps (run : d.mem.mst = .run) (preserving : d.mem.destr = false) (inside : d.mem.mrow < 255)
    (cells : Tab DWord 64) : (d.released cells now).mem.bank = d.mem.bank ∧
      (d.released cells now).mem.mrow = d.mem.mrow + 1 ∧ (d.released cells now).mem.borrow = false ∧
      (d.released cells now).mem.lrow = d.mem.lrow ∧ (d.released cells now).evc = d.evc := by
  rw [released_next run preserving inside]
  exact ⟨rfl, rfl, rfl, rfl, rfl⟩

/-- R372: a window whose cells are sound changes the state of the mace alone. -/
theorem windowFinish_sound {spare : List CellFault} (borrow : c.dev.mem.borrow = true) (goes : c.dev.mem.stop = false)
    (run : c.dev.mem.mst = .run) (preserving : c.dev.mem.destr = false) (inside : c.dev.mem.mrow < 255) :
    windowFinish [] spare now c = c.mapDev (fun d => { d with mem := { d.mem with
      borrow := false, cells := rowWords (Fin.ofNat 16 c.dev.mem.mbank) c.dev.mem.mrow c.ram, mrow := d.mem.mrow + 1
      mst := if c.dev.thm.stage = 0 then .run else .paused, tpause := decide (1 ≤ c.dev.thm.stage) } }) := by
  rw [windowFinish_stays borrow goes (Or.inl (by rw [marchRow_sound]; rfl))]
  dsimp only
  rw [badWords_sound, marchRow_sound]
  have next := released_next (now := now) run preserving inside (rowWords (Fin.ofNat 16 c.dev.mem.mbank) c.dev.mem.mrow c.ram)
  exact congrArg (Core.mk c.ram) next

/-- R370: the first failing row of a bank, its `mem` counted, its record raised. -/
theorem rowFail_first {b : BankNo} (first : (d.mem.bank.at b).nfail = 0) (r : Nat) :
    ((rowFail b r now d).mem.bank.at b).nfail = 1 ∧ ((rowFail b r now d).mem.bank.at b).frow = r ∧
    ((rowFail b r now d).mem.bank.at b).spares = (d.mem.bank.at b).spares := by
  rw [rowFail_mem, Device.bankUpd_mem, Tab.at_upd_same]
  simp [Bank.rowFails, first, satInc]

/-- R370, R374: the cells of a window with a stuck cell: the row fails, and the word that it cannot hold is lost. -/
theorem windowFinish_stuck {w i : Fin 64} {x : Bool} {spare : List CellFault} (borrow : c.dev.mem.borrow = true)
    (goes : c.dev.mem.stop = false) (fixed : mctlLive c.dev.mem.run = false) :
    windowFinish [.stuck w i x] spare now c =
      (let b : BankNo := Fin.ofNat 16 c.dev.mem.mbank
       let saved := rowWords b c.dev.mem.mrow c.ram
       ((c.mapDev (rowFail b c.dev.mem.mrow now)).loses b c.dev.mem.mrow
         (if (saved.at w).getLsbD i.val = x then [] else [w]) now).mapDev (Device.released saved now)) := by
  rw [windowFinish_stays borrow goes (Or.inr fixed)]
  dsimp only
  rw [badWords_stuck, marchRow_stuck]
  rfl

/-- R374: the blocks once the bank's failing row has lost a word. -/
def Device.lossy (b : BankNo) (r now : Nat) (d : Device) : Device := lossRaise b r now (rowFail b r now d).freeTaken

theorem lossy_mem (b : BankNo) (r : Nat) (now : Nat) (d : Device) : (d.lossy b r now).mem =
    { d.mem with bank := d.mem.bank.upd b (fun x => { x.rowFails r with loss := true }), lrow := r } := by
  have free : (rowFail b r now d).freeTaken.mem = (rowFail b r now d).mem := rfl
  rw [Device.lossy, lossRaise_mem, free, rowFail_mem, Device.bankUpd_mem, Tab.upd_upd]

theorem lossy_causes {b : BankNo} (first : (d.mem.bank.at b).nfail = 0) (r : Nat) :
    causes 247 (d.lossy b r now) = causes 247 d + 2 := by
  have free : causes 247 (rowFail b r now d).freeTaken = causes 247 (rowFail b r now d) := rfl
  rw [Device.lossy, lossRaise_causes, free, rowFail_causes first, BitVec.add_assoc]
  rfl

end

/-- Settles O50: a request waits for its boundary, at which the bank takes its state or a state on the way to it; the mace
is started, steps through its windows, records what it finds, and ends. -/
theorem banksAndMace : Obligations.BanksAndMace := by
  unfold Obligations.BanksAndMace
  refine ⟨?banks, ?mace⟩
  case banks =>
    intro s bk v b reached others
    have reach (t : BankSt) (pend : b.pend = true) :
        ((bankReach bk t s.mt s.core.dev).mem.bank.at bk).st = t ∧ reached (bankReach bk t s.mt s.core.dev) ∧
        others (bankReach bk t s.mt s.core.dev) := by
      obtain ⟨st, done⟩ := bankReach_same (now := s.mt) (d := s.core.dev) pend t
      obtain ⟨-, counted⟩ := bankReach_of (now := s.mt) (d := s.core.dev) pend t
      exact ⟨st, ⟨done, counted⟩, bankReach_others pend t⟩
    refine ⟨?same, ?asks, ?refused, ?waits, ?change, ?woken, ?powered, ?still⟩
    case same =>
      intro req off
      exact changes_of_runDev _ (exec_bankStateRequest bk v s) (bctlWrite_same req off)
    case asks =>
      intro req known off ring
      exact changes_of_runDev _ (exec_bankStateRequest bk v s) (bctlWrite_takes req known off ring)
    case refused =>
      intro old req
      exact changes_of_runDev _ (exec_bankStateRequest bk v s) (bctlWrite_refused old req)
    case waits =>
      intro waits
      exact idles_of_run _ (exec_bankStateChange bk s) (bankChange_waits waits)
    case change =>
      intro pend due online idle free
      obtain ⟨toOn, toRetention, toOff⟩ := target_of_req online
      refine ⟨fun on req => ?_, fun on req => ?_, fun st req => ?_, fun st req => ?_⟩
      · apply bringsAll_of_run _ (exec_bankStateChange bk s)
        rw [bankChange_down pend due free idle on (toOff req) (by decide)]
        obtain ⟨st, done, kept⟩ := reach .off pend
        exact ⟨st, done, kept, rfl⟩
      · exact brings_of_run _ (exec_bankStateChange bk s) (bankReach bk .retention s.mt)
          (bankChange_down pend due free idle on (toRetention req) (by decide)) (reach .retention pend)
      · exact changes_of_run _ (exec_bankStateChange bk s) (bankChange_wakes pend due free st (toOn req))
      · have target : b.target ≠ .off := by
          rcases req with req | req
          · rw [toOn req]
            decide
          · rw [toRetention req]
            decide
        exact changes_of_run _ (exec_bankStateChange bk s) (bankChange_powers pend due free st target)
    case woken =>
      intro st online req pend
      obtain ⟨toOn, -, -⟩ := target_of_req online
      exact brings_of_run _ (exec_bankPowerComplete bk s) (bankReach bk .on s.mt) (bankPowered_waking st (toOn req))
        (reach .on pend)
    case powered =>
      intro st online req pend
      obtain ⟨toOn, -, -⟩ := target_of_req online
      apply bringsAll_of_run _ (exec_bankPowerComplete bk s)
      rw [bankPowered_powering st (toOn req)]
      obtain ⟨st, done, kept⟩ := reach .on pend
      exact ⟨st, done, kept, rfl⟩
    case still =>
      intro waking powering
      exact idles_of_run _ (exec_bankPowerComplete bk s) (bankPowered_still waking powering)
  case mace =>
    intro s v k m b named
    refine ⟨?busy, ?nothing, ?starts, ?abortIdle, ?abortLate, ?abort, ?windows⟩
    case busy =>
      intro goes busy
      have why : goRefused (s.core.dev.mctled v) = 1 := goRefused_busy busy
      apply brings_of_run _ (exec_maceGo v s) (fun d => (d.mctled v).goDenied s.mt)
      · rw [mctlWrite_go goes, maceGo_refused (by rw [Core.mapDev_dev, why]; decide)]
        rfl
      · rw [Device.goDenied, why, raiseMem, raise_mem, causes_raise (by decide)]
        exact ⟨rfl, rfl, rfl, rfl⟩
    case nothing =>
      intro goes idle none
      have why : goRefused (s.core.dev.mctled v) = 3 :=
        goRefused_nothing idle fun o => by
          change maceNames (mctlBits v) o.val = false
          rw [maceNames_mctlBits]
          exact Bool.eq_false_iff.mpr (none o)
      apply brings_of_run _ (exec_maceGo v s) (fun d => (d.mctled v).goDenied s.mt)
      · rw [mctlWrite_go goes, maceGo_refused (by rw [Core.mapDev_dev, why]; decide)]
        rfl
      · rw [Device.goDenied, why, raiseMem, raise_mem]
        exact ⟨idle, rfl, rfl⟩
    case starts =>
      intro goes mode idle free name on least
      have first : maceNames (mctlBits v) k.val = true := (maceNames_mctlBits v k).trans name
      obtain ⟨rest, banks⟩ := maceBanks_head first fun o below => by
        rw [maceNames_mctlBits]
        exact Bool.eq_false_iff.mpr (least o below)
      have preserving : mctlMode (mctlBits v) = false := (bitOf_mctlBits (by decide) (by decide) v).trans mode
      obtain ⟨t, started, each⟩ := maceGo_starts (now := s.mt) (c := s.core.mapDev (Device.mctled v)) idle free banks
        preserving on
      apply brings_of_run _ (exec_maceGo v s) (fun d => (d.mctled v).maced t k)
      · rw [mctlWrite_go goes, started]
        rfl
      · have mem (o : BankNo) : o ∈ maceBanks (mctlBits v) ↔ named o := by
          rw [mem_maceBanks, maceNames_mctlBits]
        refine ⟨rfl, rfl, rfl, rfl, rfl, fun o name => ?_, fun o name => ?_, rfl⟩
        · have cleared : t.at o = (m.bank.at o).clearRes := (each o).trans (if_pos ((mem o).mpr name))
          change (t.at o).nfail = 0 ∧ (t.at o).valid = false
          rw [cleared]
          exact ⟨rfl, rfl⟩
        · exact (each o).trans (if_neg fun listed => name ((mem o).mp listed))
    case abortIdle =>
      intro idle
      exact idles_of_runDev _ (exec_maceAbort s) (maceAbort_idle idle)
    case abortLate =>
      intro busy borrow
      exact changes_of_runDev _ (exec_maceAbort s) (maceAbort_borrowed busy borrow)
    case abort =>
      intro busy free
      apply brings_of_runDev _ (exec_maceAbort s)
      rw [maceAbort_ends busy free, maceDone_mem, maceDone_causes]
      exact ⟨rfl, rfl, rfl, rfl⟩
    intro saved working
    refine ⟨?borrowIdle, ?borrow, ?finishIdle, ?sound, ?stuck, ?moves, ?destrIdle, ?destrSound, ?destrStuck⟩
    case borrowIdle =>
      intro waits
      exact idles_of_run _ (exec_maceWindow .borrow s) (windowBorrow_idles waits)
    case borrow =>
      intro run preserving free quiet
      exact changes_of_run _ (exec_maceWindow .borrow s) (windowBorrow_of run preserving free quiet)
    case finishIdle =>
      intro l g free
      exact idles_of_run _ (exec_maceWindow (.finish l g) s) (windowFinish_idles free)
    case sound =>
      rintro g ⟨run, preserving, borrow, goes, inside⟩
      exact changes_of_run _ (exec_maceWindow (.finish [] g) s) (windowFinish_sound borrow goes run preserving inside)
    case stuck =>
      rintro g w i x ⟨run, preserving, borrow, goes, inside⟩ fixed none failed
      have done := windowFinish_stuck (now := s.mt) (w := w) (i := i) (x := x) (spare := g) borrow goes fixed
      refine ⟨fun holds => ?_, fun broken wf => ?_⟩
      · apply brings_of_run _ (exec_maceWindow (.finish [.stuck w i x] g) s)
          (fun d => (rowFail (Fin.ofNat 16 m.mbank) m.mrow s.mt d).released saved s.mt)
        · refine done.trans ?_
          dsimp only
          rw [if_pos holds]
          rfl
        · have mem := rowFail_mem (Fin.ofNat 16 m.mbank) m.mrow s.mt s.core.dev
          obtain ⟨banks, row, free, -, evc⟩ := released_keeps (now := s.mt) (d := rowFail (Fin.ofNat 16 m.mbank) m.mrow s.mt s.core.dev)
            (by rw [mem]; exact run) (by rw [mem]; exact preserving) (by rw [mem]; exact inside) saved
          obtain ⟨count, first, spares⟩ := rowFail_first (now := s.mt) (d := s.core.dev) none m.mrow
          have counted := rowFail_causes (now := s.mt) (d := s.core.dev) none m.mrow
          refine ⟨?_, ?_, ?_, ?_, free, ?_⟩
          · rw [banks, count]
          · rw [banks, first]
          · rw [banks, spares]
          · rw [row, mem]
            rfl
          · rw [causes, evc]
            exact counted
      · apply bringsAll_of_run _ (exec_maceWindow (.finish [.stuck w i x] g) s)
        have lossy : maceWindow (.finish [.stuck w i x] g) s.mt s.core =
            { ram := (loseWord (Fin.ofNat 16 m.mbank) m.mrow w
                (s.core.mapDev (rowFail (Fin.ofNat 16 m.mbank) m.mrow s.mt))).ram
              dev := (s.core.dev.lossy (Fin.ofNat 16 m.mbank) m.mrow s.mt).released saved s.mt } := by
          refine done.trans ?_
          dsimp only
          rw [if_neg broken]
          rfl
        rw [lossy]
        have mem := lossy_mem (Fin.ofNat 16 m.mbank) m.mrow s.mt s.core.dev
        obtain ⟨banks, row, free, lrow, evc⟩ := released_keeps (now := s.mt)
          (d := s.core.dev.lossy (Fin.ofNat 16 m.mbank) m.mrow s.mt)
          (by rw [mem]; exact run) (by rw [mem]; exact preserving) (by rw [mem]; exact inside) saved
        have counted := lossy_causes (now := s.mt) (d := s.core.dev) none m.mrow
        have bank : (s.core.dev.lossy (Fin.ofNat 16 m.mbank) m.mrow s.mt).mem.bank.at (Fin.ofNat 16 m.mbank) =
            { b.rowFails m.mrow with loss := true } := by
          rw [mem, Tab.at_upd_same]
        obtain ⟨kept, alm, prog⟩ := loseWord_ram (b := Fin.ofNat 16 m.mbank) (r := m.mrow) (k := w)
          (c := s.core.mapDev (rowFail (Fin.ofNat 16 m.mbank) m.mrow s.mt)) wf
        refine ⟨⟨?_, ?_, ?_, ?_, free, ?_⟩, ?_, ?_, kept, alm, prog⟩
        · rw [banks, bank]
          simp [Bank.rowFails, show b.nfail = 0 from none, satInc]
        · rw [banks, bank]
          simp [Bank.rowFails, show b.nfail = 0 from none]
        · rw [banks, bank]
          rfl
        · rw [row, mem]
        · rw [causes, evc]
          exact counted
        · rw [banks, bank]
        · rw [lrow, mem]
    case moves =>
      rintro w e ⟨run, preserving, borrow, goes, inside⟩ live some' free sound
      obtain ⟨cells, done⟩ := windowFinish_moves (now := s.mt) (c := s.core) borrow goes (marchRow_misread _ _ w some') live
        free sound
      apply brings_of_run _ (exec_maceWindow (.finish [.misread 1 0 w e] []) s) _ done
      have mem := rowFail_mem (Fin.ofNat 16 m.mbank) m.mrow s.mt s.core.dev
      obtain ⟨banks, -⟩ := released_keeps (now := s.mt) (d := (rowFail (Fin.ofNat 16 m.mbank) m.mrow s.mt s.core.dev).bankUpd
          (Fin.ofNat 16 m.mbank) (fun x => mapRow 0 (Fin.ofNat 256 m.mrow) (failMapped (Fin.ofNat 256 m.mrow) x)))
        (by rw [Device.bankUpd_mem, mem]; exact run) (by rw [Device.bankUpd_mem, mem]; exact preserving)
        (by rw [Device.bankUpd_mem, mem]; exact inside) cells
      rw [banks, Device.bankUpd_mem, Tab.at_upd_same, mapRow_at]
      exact ⟨rfl, Nat.mod_eq_of_lt (by omega), rfl⟩
    case destrIdle =>
      intro other
      exact idles_of_runDev _ (exec_destructiveRun [] [] s) (destrEnd_idles other _ _ _)
    case destrSound =>
      intro run destr
      apply brings_of_runDev _ (exec_destructiveRun [] [] s)
      obtain ⟨t, mem, others, each⟩ := destrEnd_ends run destr [] [] s.mt
      rw [mem]
      refine ⟨rfl, rfl, fun o name whole => ?_, fun o out => others o fun listed => ?_⟩
      · obtain ⟨valid, count, -⟩ := each o ((mem_destrBanks _ o).mpr ⟨name, whole⟩)
        rw [marchBank_sound] at count
        exact ⟨valid, count⟩
      · obtain ⟨name, whole⟩ := (mem_destrBanks _ o).mp listed
        rcases out with out | out
        · rw [name] at out
          exact Bool.noConfusion out
        · rw [whole] at out
          exact Bool.noConfusion out
    case destrStuck =>
      intro r w i x run destr name whole none
      apply brings_of_runDev _ (exec_destructiveRun [⟨k, r, .stuck w i x⟩] [] s)
      obtain ⟨t, mem, -, each⟩ := destrEnd_ends run destr [⟨k, r, .stuck w i x⟩] [] s.mt
      obtain ⟨valid, count, first⟩ := each k ((mem_destrBanks _ k).mpr ⟨name, whole⟩)
      rw [marchBank_stuck] at count first
      rw [mem]
      refine ⟨rfl, count.trans ?_, first.trans ?_, valid⟩
      · simp [Bank.rowFails, show (s.core.dev.mem.bank.at k).nfail = 0 from none, satInc]
      · simp [Bank.rowFails, show (s.core.dev.mem.bank.at k).nfail = 0 from none]

end Machine

end Sys2Proof

namespace Sys2Proof

namespace Machine

/-! ## Descriptors, waits, signals and plane units -/

theorem exec_descriptorFetch (n : XcNo) (s : State) : exec (.descriptorFetch n) s = s.run (descriptorFetch n) := rfl
theorem exec_burst (n : XcNo) (s : State) : exec (.burst n) s = s.run (burst n) := rfl
theorem exec_xfrWaitSatisfied (n : XcNo) (s : State) : exec (.xfrWaitSatisfied n) s =
    s.runDev (fun now d => if burstJustNow n now d then d else waitSatisfied n now d) := rfl
theorem exec_signalDelivery (n : XcNo) (s : State) : exec (.signalDelivery n) s = s.run (fun _ => signalDeliver n) := rfl
theorem exec_planeUnitGrant (s : State) : exec .planeUnitGrant s = s.runDev (fun _ => planeGrant) := rfl
theorem exec_atendRefetch (n : XcNo) (s : State) : exec (.atendRefetch n) s = s.run (atendRefetch n) := rfl

theorem xGoOn_channel (n : XcNo) (pc : Nat) (d : Device) :
    (xGoOn n pc d).xfr.ch.at n = { d.xfr.ch.at n with pc := w32 pc, cur := none, st := .run } := by
  simp [xGoOn, freeUnit]

theorem xGoOn_others {n o : XcNo} (other : o ≠ n) (pc : Nat) (d : Device) :
    (xGoOn n pc d).xfr.ch.at o = d.xfr.ch.at o := by
  simp [xGoOn, freeUnit, Tab.at_upd_ne _ _ other]

/-- A word that a count raises. -/
theorem w32_add (w : Word) (k : Nat) : w32 (w.toNat + k) = w + BitVec.ofNat 32 k := by
  rw [w32, BitVec.ofNat_add, BitVec.ofNat_toNat, BitVec.setWidth_eq]

/-! ### Accesses to banks that are on -/

section

variable {d : Device} {p : Bool} {a now : Nat}

theorem rangeOf_bank (below : a < 0x200000) : rangeOf a = some (.bank, a) := if_pos below

theorem readOk_ready (ready : banksReady d) (below : a < 0x200000) : readOk p d a = true := by
  obtain ⟨on, -⟩ := ready (bankOf a)
  simp only [readOk, rangeOf_bank below, on]
  decide

theorem writeOk_ready (ready : banksReady d) (l : List Nat) (below : a < 0x200000) : writeOk p d l a = true := by
  obtain ⟨on, -⟩ := ready (bankOf a)
  simp only [writeOk, rangeOf_bank below, on]
  decide

theorem askBanks_ready (ready : banksReady d) (b : Bool) (words : List Nat) : askBanks b words d = .go := by
  have awake (o : BankNo) : ((d.mem.bank.at o).st == .off || (d.mem.bank.at o).st == .powering ||
      ((d.mem.bank.at o).st == .retention && !(d.mem.bank.at o).autowake)) = false := by
    obtain ⟨on, -⟩ := ready o
    rw [on]
    rfl
  have allows (o : BankNo) : ((d.mem.bank.at o).st == .on && !(b && (d.mem.bank.at o).pend)) = true := by
    obtain ⟨on, quiet⟩ := ready o
    rw [on, quiet, Bool.and_false]
    rfl
  unfold askBanks
  dsimp only
  rw [List.find?_eq_none.mpr fun o _ => by rw [awake o]; exact Bool.false_ne_true]
  exact if_pos (List.all_eq_true.mpr fun o _ => allows o)

theorem fetchAt_bank (aligned : a % 8 = 0) (below : a < 0x200000) : fetchAt a = true := by
  simp [fetchAt, aligned, below]

theorem readByte_bank (below : a < 0x200000) (c : Core) : readByte c a = BitVec.ofNat 8 (c.ram.bankRead 1 a) := by
  simp only [readByte, rangeOf_bank below]

/-- R333: a descriptor word in the banks is what the memories hold. -/
theorem fetchWord_ram {c e : Core} (same : c.ram = e.ram) (aligned : a % 8 = 0) (below : a < 0x200000) :
    fetchWord c a = fetchWord e a := by
  have bytes : (nats 8).map (fun i => readByte c (a + i)) = (nats 8).map (fun i => readByte e (a + i)) := by
    refine List.map_congr_left fun i mem => ?_
    rw [nats_eq, List.mem_range] at mem
    rw [readByte_bank (by omega), readByte_bank (by omega), same]
  rw [fetchWord, fetchWord, bytes]

/-- R330: reads through port B are noted. -/
theorem loads_changes : ∀ (l : List Nat) (d : Device), ∃ m e, l.foldl (fun d a => loadB a now d) d =
    { d with mem := m, evc := e } ∧ m.bank = d.mem.bank ∧ m.bytesB = d.mem.bytesB
  | [], d => ⟨d.mem, d.evc, rfl, rfl, rfl⟩
  | a :: l, d => by
    obtain ⟨m, e, first, bank⟩ := loadB_changes a now d
    have bytes : m.bytesB = d.mem.bytesB := by
      have := notePort_bytesB false false (wordOf a) now d
      rw [← loadB, first] at this
      exact this
    obtain ⟨m', e', rest, bank', bytes'⟩ := loads_changes l (loadB a now d)
    refine ⟨m', e', ?_, ?_, ?_⟩
    · rw [List.foldl_cons, rest, first]
    · rw [bank', first, bank]
    · rw [bytes', first, bytes]

end

/-! ### Fetches -/

/-- R333, R334: a descriptor of one word. -/
def XferDesc.single (w : DWord) : XferDesc := ⟨[w], 0, false, none, [], 0, false, 0, 0, none⟩

section

variable {n : XcNo} {now : Nat} {c : Core} {d : Device} {w : DWord} {a : Nat}

theorem loadB_xfr (a now : Nat) (d : Device) : (loadB a now d).xfr = d.xfr := by
  obtain ⟨m, e, load, -⟩ := loadB_changes a now d
  rw [load]

/-- R333, R334: a fetch in the banks reaches the descriptor's words. -/
theorem xFetch_banks (pc : (c.dev.xfr.ch.at n).pc.toNat = a) (aligned : a % 8 = 0) (below : a < 0x200000)
    (ready : banksReady c.dev) (word : fetchWord c a = w) (known : fld w 63 56 ≤ 6) :
    xFetch n now c = xDecode n a w now (c.mapDev (loadB a now)) := by
  have words : bankWords [a] = [a] := List.filter_cons_of_pos (decide_eq_true below)
  have fetch : (fetchAt a && readOk (xPriv n) c.dev a) = true := by
    rw [fetchAt_bank aligned below, readOk_ready ready below]
    rfl
  unfold xFetch
  dsimp only
  rw [pc, fetch, askBanks_ready ready, word, words]
  dsimp only
  rw [if_neg (show ¬ ((!true) = true) by decide), if_neg (not_lt.mpr known)]
  rfl

/-- R352: a descriptor marked BAD is skipped. -/
theorem xDecode_marked (marked : bitOf w 55 = true) :
    xDecode n a w now c = c.mapDev (xGoOn n (a + 8 * descLen w)) := by
  simp only [xDecode, marked, if_true]

/-- R333, R354: a good descriptor of one word starts. -/
theorem xDecode_single (unmarked : bitOf w 55 = false) (short : descLen w = 1) (aligned : a % 8 = 0) (below : a < 0x200000)
    (ready : banksReady c.dev) (word : fetchWord c a = w)
    (good : descBad (xPriv n) (.single w) (c.dev.xfr.ch.at n) = 0) :
    xDecode n a w now c = c.mapDev (xStart n (.single w) now) := by
  have addresses : (nats 1).map (fun i => a + 8 * i) = [a] := rfl
  have fetch : ([a].all fun b => fetchAt b && readOk (xPriv n) c.dev b) = true := by
    rw [List.all_cons, List.all_nil, fetchAt_bank aligned below, readOk_ready ready below]
    rfl
  have words : bankWords ([a].drop 1) = [] := rfl
  unfold xDecode
  dsimp only
  rw [short, addresses, unmarked, fetch, askBanks_ready ready]
  dsimp only
  rw [words, List.map_cons, List.map_nil, word]
  simp only [Bool.not_true, Bool.false_eq_true, if_false, List.foldl_nil]
  exact if_neg (not_not.mpr good)

/-- R333: a fetch in the banks of a good descriptor of one word. -/
theorem xFetch_single (pc : (c.dev.xfr.ch.at n).pc.toNat = a) (aligned : a % 8 = 0) (below : a < 0x200000)
    (ready : banksReady c.dev) (word : fetchWord c a = w) (known : fld w 63 56 ≤ 6) (unmarked : bitOf w 55 = false)
    (short : descLen w = 1) (good : descBad (xPriv n) (.single w) (c.dev.xfr.ch.at n) = 0) :
    xFetch n now c = c.mapDev (fun d => xStart n (.single w) now (loadB a now d)) := by
  have ready' : banksReady (c.mapDev (loadB a now)).dev := by
    obtain ⟨m, e, load, bank⟩ := loadB_changes a now c.dev
    intro b
    rw [Core.mapDev_dev, load, bank]
    exact ready b
  have word' : fetchWord (c.mapDev (loadB a now)) a = w :=
    (fetchWord_ram (c := c.mapDev (loadB a now)) (Core.mapDev_ram _ _) aligned below).trans word
  have good' : descBad (xPriv n) (.single w) ((c.mapDev (loadB a now)).dev.xfr.ch.at n) = 0 := by
    rw [Core.mapDev_dev, loadB_xfr]
    exact good
  rw [xFetch_banks pc aligned below ready word known, xDecode_single unmarked short aligned below ready' word' good']
  rfl

theorem descriptorFetch_of (run : (c.dev.xfr.ch.at n).st = .run) (none : (c.dev.xfr.ch.at n).cur = none)
    (held : thold n c.dev = false) : descriptorFetch n now c = xFetch n now c := by
  simp [descriptorFetch, run, none, held]

theorem descriptorFetch_idles (waits : (c.dev.xfr.ch.at n).st ≠ .run ∨ (c.dev.xfr.ch.at n).cur ≠ none) :
    descriptorFetch n now c = c := by
  rw [descriptorFetch]
  refine if_neg fun go => ?_
  simp only [Bool.and_eq_true, decide_eq_true_eq, Option.isNone_iff_eq_none] at go
  obtain ⟨⟨run, none⟩, -⟩ := go
  rcases waits with still | busy
  · exact still run
  · exact busy none

theorem atendRefetch_of (ended : (c.dev.xfr.ch.at n).st = .atend) (bell : (c.dev.xfr.ch.at n).bell = true)
    (held : thold n c.dev = false) : atendRefetch n now c =
      xFetch n now (c.mapDev (fun d => d.xcUpd n (fun x => { x with bell := false, st := .run }))) := by
  simp [atendRefetch, ended, bell, held]

theorem atendRefetch_idles (waits : (c.dev.xfr.ch.at n).st ≠ .atend ∨ (c.dev.xfr.ch.at n).bell = false) :
    atendRefetch n now c = c := by
  rw [atendRefetch]
  refine if_neg fun go => ?_
  simp only [Bool.and_eq_true, decide_eq_true_eq] at go
  obtain ⟨⟨ended, rang⟩, -⟩ := go
  rcases waits with other | quiet
  · exact other ended
  · rw [quiet] at rang
    exact Bool.false_ne_true rang

/-- R342: END. -/
theorem xStart_end : xStart n (.single 0) now d = d.xcUpd n (fun x => { x with cur := none, st := .atend }) := rfl

theorem descBad_end (p : Bool) (x : Xfer) : descBad p (.single 0) x = 0 := rfl

/-- R342: JUMP. -/
theorem xStart_jump (jump : fld w 63 56 = 6) : xStart n (.single w) now d = xGoOn n (fld w 31 0) d := by
  have op : (XferDesc.single w).op = 6 := jump
  simp only [xStart, op]
  rfl

theorem descBad_jump (jump : fld w 63 56 = 6) (rest : fld w 55 32 = 0) (aligned : fld w 31 0 % 8 = 0)
    (below : fld w 31 0 < 0x200000) (p : Bool) (x : Xfer) : descBad p (.single w) x = 0 := by
  have op : (XferDesc.single w).op = 6 := jump
  have word : (XferDesc.single w).w 0 = w := rfl
  have zero : fld w 54 32 = 0 := fld_inside rest (by decide) (by decide)
  have len : (XferDesc.single w).len = fld w 31 0 := rfl
  simp only [descBad, op, word, zero, len, fetchAt_bank aligned below, beq_self_eq_true, if_true]

end

/-! ### Waits and signals -/

section

variable {n : XcNo} {now : Nat} {d : Device} {c : Core}

/-- R347: no burst of the channel has fallen before this very boundary. -/
theorem burstJustNow_not (before : ∀ q, (d.xfr.ch.at n).cur = some q → q.lastAt ≠ some now) : burstJustNow n now d = false := by
  unfold burstJustNow
  split
  · next q cur => exact beq_false_of_ne (before q cur)
  · rfl

theorem waitSatisfied_kick (st : (d.xfr.ch.at n).st = .wkick) : waitSatisfied n now d =
    if 0 < (d.xfr.ch.at n).kcnt then
      xGoOn n ((d.xfr.ch.at n).pc.toNat + 16) (d.xcUpd n (fun x => { x with kcnt := x.kcnt - 1 }))
    else d := by
  simp only [waitSatisfied, st]

theorem waitSatisfied_time (st : (d.xfr.ch.at n).st = .wtime) : waitSatisfied n now d =
    if (d.xfr.ch.at n).wtime ≤ now then xGoOn n ((d.xfr.ch.at n).pc.toNat + 16) d else d := by
  simp only [waitSatisfied, st]

/-- A wait that is not over leaves everything. -/
theorem waits_on (waits : waitSatisfied n now d = d) : (if burstJustNow n now d then d else waitSatisfied n now d) = d := by
  rw [waits, ite_self]

/-- R341: a SIGNAL to a program. -/
def Device.signalled (n : XcNo) (h : Chan) (d : Device) : Device :=
  if (d.chn.at h).cfg.bound then d.progUpd h (fun p => { p with dsig := p.dsig + 1 })
  else d.xcUpd n (fun x => { x with sigref := true })

theorem signalDeliver_program {q : XferDesc} (cur : (c.dev.xfr.ch.at n).cur = some q) (signal : q.signal = true)
    (run : (c.dev.xfr.ch.at n).st = .run) (kind : fld (q.w 0) 49 48 = 0) : signalDeliver n c = c.mapDev (fun d =>
      xGoOn n ((c.dev.xfr.ch.at n).pc.toNat + 8) (d.signalled n (Fin.ofNat 512 (fld (q.w 0) 8 0)))) := by
  have effect : signalEffect n (q.w 0) c = c.mapDev (Device.signalled n (Fin.ofNat 512 (fld (q.w 0) 8 0))) := by
    simp only [signalEffect, kind, Device.signalled, Core.mapDev]
    split
    · rfl
    · rfl
  simp only [signalDeliver, cur, signal, run, effect]
  rfl

theorem signalDeliver_idles (none : (c.dev.xfr.ch.at n).cur = none) : signalDeliver n c = c := by
  simp only [signalDeliver, none]

/-- R341: the program gets its data signal; the reference error stands where none is bound. -/
theorem signalled_of (n : XcNo) (h : Chan) (d : Device) :
    ((d.signalled n h).chn.at h).prog.dsig = (d.chn.at h).prog.dsig + (if (d.chn.at h).cfg.bound then 1 else 0) ∧
    (d.signalled n h).xfr.ch.at n =
      { d.xfr.ch.at n with sigref := (d.xfr.ch.at n).sigref || !(d.chn.at h).cfg.bound } ∧
    otherChans h d (d.signalled n h) := by
  unfold Device.signalled
  cases bound : (d.chn.at h).cfg.bound with
  | true =>
    rw [if_pos rfl, Bool.not_true, Bool.or_false]
    refine ⟨?_, rfl, fun o other => ?_⟩
    · simp [Device.progUpd]
    · simp [Device.progUpd, Tab.at_upd_ne _ _ other]
  | false =>
    rw [if_neg Bool.false_ne_true, Bool.not_false, Bool.or_true, Device.xcUpd_xfr]
    exact ⟨(BitVec.add_zero _).symm, Tab.at_upd_same _ _ _, fun _ _ => rfl⟩

end

/-! ### Plane units -/

/-- R338: plane unit `u`, if it is free, goes to the waiting channel that came first. -/
def planeGive (d : Device) (u : Fin 2) : Device :=
  if (d.xfr.plane.at u).isSome then d
  else
    match leastBy (fun n => (d.xfr.ch.at n).arrive) ((fins 32).filter (fun n => (d.xfr.ch.at n).st == .plane)) with
    | some n =>
      let d := { d with xfr := { d.xfr with plane := d.xfr.plane.put u (some n) } }
      d.xcUpd n (fun x => { x with st := .run, cur := x.cur.map (fun q => { q with unit := some u }) })
    | none => d

theorem planeGrant_two (d : Device) : planeGrant d = planeGive (planeGive d 0) 1 := rfl

theorem leastBy_mem {α : Type} {k : α → Nat} {b : α} : ∀ {l : List α}, leastBy k l = some b → b ∈ l
  | a :: l, h => by
    unfold leastBy at h
    split at h
    · cases h
      exact List.mem_cons_self
    · next o rest =>
      split at h
      · cases h
        exact List.mem_cons_of_mem _ (leastBy_mem rest)
      · cases h
        exact List.mem_cons_self

/-- The entry whose key is below all others. -/
theorem leastBy_least {α : Type} {k : α → Nat} {n : α} : ∀ {l : List α}, n ∈ l → (∀ m ∈ l, m ≠ n → k n < k m) →
    leastBy k l = some n
  | a :: l, mem, least => by
    have below (m : α) (listed : m ∈ l) (ne : m ≠ n) : k n < k m := least m (List.mem_cons_of_mem _ listed) ne
    unfold leastBy
    by_cases same : n = a
    · subst same
      split
      · rfl
      · next b rest =>
        by_cases twice : b = n
        · rw [twice, ite_self]
        · have := below b (leastBy_mem rest) twice
          rw [if_neg (by omega)]
    · have listed : n ∈ l := (List.mem_cons.mp mem).resolve_left same
      rw [leastBy_least listed below]
      dsimp only
      rw [if_pos (least a List.mem_cons_self (Ne.symm same))]

section

variable {n : XcNo} {d : Device} {u : Fin 2}

/-- R338: where no channel waits, no unit is given. -/
theorem planeGive_none (none : ∀ m, (d.xfr.ch.at m).st ≠ .plane) : planeGive d u = d := by
  have empty : (fins 32).filter (fun n => (d.xfr.ch.at n).st == .plane) = [] :=
    List.filter_eq_nil_iff.mpr fun m _ => by rw [beq_false_of_ne (none m)]; exact Bool.false_ne_true
  unfold planeGive
  rw [empty]
  exact ite_self _

/-- R338: a free unit goes to the channel that came first. -/
theorem planeGive_first (free : d.xfr.plane.at u = none) (waits : (d.xfr.ch.at n).st = .plane)
    (first : ∀ m, m ≠ n → (d.xfr.ch.at m).st = .plane → (d.xfr.ch.at n).arrive < (d.xfr.ch.at m).arrive) :
    (planeGive d u).xfr.plane = d.xfr.plane.put u (some n) ∧
    ((planeGive d u).xfr.ch.at n).st = .run ∧ ((planeGive d u).xfr.ch.at n).pc = (d.xfr.ch.at n).pc := by
  have chosen : leastBy (fun n => (d.xfr.ch.at n).arrive) ((fins 32).filter (fun n => (d.xfr.ch.at n).st == .plane)) = some n := by
    refine leastBy_least (List.mem_filter.mpr ⟨mem_fins n, beq_iff_eq.mpr waits⟩) fun m listed ne => ?_
    obtain ⟨-, plane⟩ := List.mem_filter.mp listed
    exact first m ne (beq_iff_eq.mp plane)
  unfold planeGive
  rw [free, chosen]
  dsimp only
  rw [if_neg (show ¬ (Option.none : Option XcNo).isSome = true by decide), Device.xcUpd_xfr, Tab.at_upd_same]
  exact ⟨rfl, rfl, rfl⟩

/-- R338: giving a unit leaves the other unit, and every channel that runs. -/
theorem planeGive_keeps (run : (d.xfr.ch.at n).st = .run) {v : Fin 2} (other : v ≠ u) :
    (planeGive d u).xfr.plane.at v = d.xfr.plane.at v ∧ (planeGive d u).xfr.ch.at n = d.xfr.ch.at n := by
  unfold planeGive
  split
  · exact ⟨rfl, rfl⟩
  · split
    · next m chosen =>
      obtain ⟨-, plane⟩ := List.mem_filter.mp (leastBy_mem chosen)
      have ne : n ≠ m := by
        intro same
        rw [← same, run] at plane
        exact Bool.false_ne_true plane
      dsimp only
      rw [Device.xcUpd_xfr]
      exact ⟨Tab.at_put_ne _ _ other, Tab.at_upd_ne _ _ ne⟩
    · exact ⟨rfl, rfl⟩

end

end Machine

end Sys2Proof

namespace Sys2Proof

namespace Machine

/-! ## Bursts of a linear MOVE in the banks -/

/-! ### How much fits into a burst -/

/-- R343, R345: the bytes of a unit of the interface: 8, or 16 on XC28 to XC31. -/
def unitBytes (p : Bool) : Nat := if p then 16 else 8

/-- R345: the units that a burst touches on a side, at most. -/
def unitsMost (p : Bool) : Nat := if p then 16 else 32

/-- R345: the bytes of the units that a burst may still touch after `m` of them. -/
def unitsLeft (p : Bool) (m : Nat) : Nat := (unitsMost p - m) * unitBytes p

theorem unitsLeft_zero (p : Bool) : unitsLeft p 0 = 256 := by cases p <;> rfl

theorem unitsLeft_most {p : Bool} {m : Nat} (full : unitsMost p ≤ m) : unitsLeft p m = 0 := by
  rw [unitsLeft, Nat.sub_eq_zero_of_le full, Nat.zero_mul]

theorem unitsLeft_succ {p : Bool} {m : Nat} (more : m < unitsMost p) :
    unitsLeft p m = unitsLeft p (m + 1) + unitBytes p := by
  rw [unitsLeft, unitsLeft, ← Nat.succ_mul]
  congr 1
  omega

/-- The next byte stands in the same unit, or begins the next one. -/
theorem next_unit (p : Bool) (a : Nat) :
    (a % unitBytes p + 1 < unitBytes p ∧ (a + 1) / unitBytes p = a / unitBytes p ∧
      (a + 1) % unitBytes p = a % unitBytes p + 1) ∨
    (a % unitBytes p + 1 = unitBytes p ∧ (a + 1) / unitBytes p = a / unitBytes p + 1 ∧ (a + 1) % unitBytes p = 0) := by
  cases p with
  | false =>
    simp only [unitBytes, Bool.false_eq_true, if_false]
    omega
  | true =>
    simp only [unitBytes, if_true]
    omega

/-- R345: of rising bytes from `a` on a burst holds those up to the last unit that it may touch. -/
theorem fitWords_run (p : Bool) : ∀ (k a : Nat) (seen : List Nat), (∀ u ∈ seen, u ≤ a / unitBytes p) →
    fitWords p seen (List.range' a k) = min k
      (if a / unitBytes p ∈ seen then unitsLeft p seen.length + (unitBytes p - a % unitBytes p)
       else unitsLeft p seen.length - a % unitBytes p)
  | 0, _, _, _ => by
    rw [Nat.zero_min]
    rfl
  | k + 1, a, seen, before => by
    have unit : (if p then a / 16 else a / 8) = a / unitBytes p := by cases p <;> rfl
    have most : (if p then 16 else 32) = unitsMost p := rfl
    have place : a % unitBytes p < unitBytes p := Nat.mod_lt _ (by cases p <;> decide)
    rw [List.range'_succ, fitWords, unit, most]
    by_cases touched : a / unitBytes p ∈ seen
    · rw [if_pos (List.contains_iff_mem.mpr touched), if_pos touched,
        fitWords_run p k (a + 1) seen fun u mem => le_trans (before u mem) (Nat.div_le_div_right (Nat.le_succ a))]
      rcases next_unit p a with ⟨inside, same, step⟩ | ⟨last, next, first⟩
      · rw [same, step, if_pos touched]
        omega
      · have new : ¬ (a + 1) / unitBytes p ∈ seen := fun mem => by
          have := before _ mem
          omega
        rw [if_neg new, first]
        omega
    · have fresh : ¬ seen.contains (a / unitBytes p) = true := fun mem => touched (List.contains_iff_mem.mp mem)
      rw [if_neg fresh, if_neg touched]
      by_cases full : unitsMost p ≤ seen.length
      · rw [if_pos full, unitsLeft_most full]
        omega
      · have left := unitsLeft_succ (not_le.mp full)
        have before' : ∀ u ∈ a / unitBytes p :: seen, u ≤ (a + 1) / unitBytes p := by
          intro u mem
          rcases List.mem_cons.mp mem with rfl | mem
          · exact Nat.div_le_div_right (Nat.le_succ a)
          · exact le_trans (before u mem) (Nat.div_le_div_right (Nat.le_succ a))
        rw [if_neg full, fitWords_run p k (a + 1) (a / unitBytes p :: seen) before', List.length_cons]
        rcases next_unit p a with ⟨inside, same, step⟩ | ⟨last, next, first⟩
        · rw [same, step, if_pos List.mem_cons_self]
          omega
        · have new : ¬ (a + 1) / unitBytes p ∈ a / unitBytes p :: seen := by
            intro mem
            rcases List.mem_cons.mp mem with eq | mem
            · omega
            · have := before _ mem
              omega
          rw [if_neg new, first]
          omega

/-- R345: a burst touches at most 256 bytes' units of a linear side. -/
theorem fitSide_linear (p : Bool) (clog a k : Nat) :
    fitSide p 0 clog a (List.range' a k) k = min k (256 - a % unitBytes p) := by
  have whole : (List.range' a k).take k = List.range' a k := List.take_of_length_le (by rw [List.length_range'])
  rw [fitSide, if_neg (by decide), whole, fitWords_run p k a [] (fun _ none => absurd none List.not_mem_nil),
    if_neg List.not_mem_nil, fitWrap, if_neg (by decide), List.length_nil, unitsLeft_zero]
  omega

/-! ### Writing the bytes -/

/-- The memories with bytes written from `e` on. -/
def Ram.bytesAt (e : Nat) (bs : List Byte) (r : Ram) : Ram :=
  ((List.range' e bs.length).zip bs).foldl (fun r x => r.bankWrite 1 x.1 x.2.toNat) r

theorem Ram.bytesAt_nil (e : Nat) (r : Ram) : r.bytesAt e [] = r := rfl
theorem Ram.bytesAt_cons (e : Nat) (b : Byte) (bs : List Byte) (r : Ram) :
    r.bytesAt e (b :: bs) = (r.bankWrite 1 e b.toNat).bytesAt (e + 1) bs := by
  simp [Ram.bytesAt, List.range'_succ]

/-- The bytes read back, and all others are as they were. -/
theorem Ram.bankRead_bytesAt (o : Nat) : ∀ (bs : List Byte) (e : Nat) {r : Ram}, r.wf → e + bs.length ≤ bankSize →
    (r.bytesAt e bs).bankRead 1 o =
      if e ≤ o ∧ o < e + bs.length then (bs[o - e]?.getD 0).toNat else r.bankRead 1 o
  | [], e, r, _, _ => by
    rw [Ram.bytesAt_nil, if_neg]
    rintro ⟨low, high⟩
    rw [List.length_nil] at high
    omega
  | b :: bs, e, r, wf, inside => by
    rw [List.length_cons] at inside
    rw [Ram.bytesAt_cons, Ram.bankRead_bytesAt o bs (e + 1) (Ram.bankWrite_wf wf 1 e b.toNat) (by omega), List.length_cons]
    by_cases first : o = e
    · rw [if_neg (by omega), if_pos (by omega), first, Ram.bankRead_bankWrite wf 1 e b.toNat (by omega), Nat.sub_self]
      exact Nat.mod_eq_of_lt b.isLt
    · rw [Ram.bankRead_bankWrite_apart wf 1 e b.toNat 1 o (by omega)]
      by_cases within : e + 1 ≤ o ∧ o < e + 1 + bs.length
      · rw [if_pos within, if_pos (by omega), show o - e = o - (e + 1) + 1 by omega, List.getElem?_cons_succ]
      · rw [if_neg within, if_neg (by omega)]

theorem Ram.bytesAt_alm (e : Nat) (bs : List Byte) (r : Ram) : (r.bytesAt e bs).alm = r.alm :=
  foldl_same Ram.alm _ (fun r (x : Nat × Byte) => Ram.bankWrite_alm 1 x.1 x.2.toNat r) _ r
theorem Ram.bytesAt_prog (e : Nat) (bs : List Byte) (r : Ram) : (r.bytesAt e bs).prog = r.prog :=
  foldl_same Ram.prog _ (fun r (x : Nat × Byte) => Ram.bankWrite_prog 1 x.1 x.2.toNat r) _ r
theorem Ram.bytesAt_lbuf (e : Nat) (bs : List Byte) (r : Ram) : (r.bytesAt e bs).lbuf = r.lbuf :=
  foldl_same Ram.lbuf _ (fun r (x : Nat × Byte) => Ram.bankWrite_lbuf 1 x.1 x.2.toNat r) _ r

/-- Writing bytes of the banks one by one. -/
theorem writeBytes_banks : ∀ (l : List (Nat × Byte)) (c : Core), (∀ x ∈ l, x.1 < 0x200000) →
    l.foldl (fun c x => writeByte x.1 x.2 c) c = { c with ram := l.foldl (fun r x => r.bankWrite 1 x.1 x.2.toNat) c.ram }
  | [], _, _ => rfl
  | x :: l, c, banks => by
    have here : writeByte x.1 x.2 c = { c with ram := c.ram.bankWrite 1 x.1 x.2.toNat } := by
      simp only [writeByte, rangeOf_bank (banks x List.mem_cons_self)]
      rfl
    rw [List.foldl_cons, List.foldl_cons, here, writeBytes_banks l _ fun y mem => banks y (List.mem_cons_of_mem x mem)]

/-- Writes through port B are noted. -/
theorem stores_changes (now : Nat) : ∀ (l : List Nat) (d : Device), ∃ m e,
    l.foldl (fun d w => notePort false true w now d) d = { d with mem := m, evc := e } ∧ m.bytesB = d.mem.bytesB
  | [], d => ⟨d.mem, d.evc, rfl, rfl⟩
  | w :: l, d => by
    obtain ⟨m, e, first⟩ := notePort_changes false true w now d
    have bytes := notePort_bytesB false true w now d
    rw [first] at bytes
    obtain ⟨m', e', rest, bytes'⟩ := stores_changes now l (notePort false true w now d)
    refine ⟨m', e', ?_, ?_⟩
    · rw [List.foldl_cons, rest, first]
    · rw [bytes', first]
      exact bytes

/-- R343, R361: bytes written in the banks where port B has written nothing yet. -/
theorem storeBytes_banks (n : XcNo) {l : List (Nat × Byte)} (banks : ∀ x ∈ l, x.1 < 0x200000) (now : Nat) {c : Core}
    (free : c.dev.mem.bytesB = []) : ∃ m e t, storeBytes n l now c =
      { ram := l.foldl (fun r x => r.bankWrite 1 x.1 x.2.toNat) c.ram, dev := { c.dev with mem := m, evc := e, turn := t } } := by
  have outside (x : Nat × Byte) (mem : x ∈ l) : almWordOf x.1 = none := by
    simp only [almWordOf, rangeOf_bank (banks x mem)]
  have kept : l.filter (fun x => !((almWordOf x.1).any (fun w => c.dev.almTaken (n.val % 4) w))) = l :=
    List.filter_eq_self.mpr fun x mem => by
      rw [outside x mem]
      rfl
  unfold storeBytes
  dsimp only
  rw [kept]
  obtain ⟨m, e, noted, bytes⟩ := stores_changes now ((bankWords (l.map (fun x => x.1))).map wordOf).dedup
    (c.mapDev (Device.almNote (n.val % 4) (l.filterMap (fun x => almWordOf x.1)).dedup)).dev
  rw [noted]
  have none : m.bytesB = [] := bytes.trans free
  rw [List.filter_eq_self.mpr fun x _ => by dsimp only; rw [laterB_none none]; rfl, writeBytes_banks _ _ banks]
  exact ⟨_, _, _, rfl⟩

/-! ### The burst -/

section

variable {n : XcNo} {q : XferDesc} {now : Nat} {c : Core}

/-- R345, R347: a burst of a MOVE that waits for no request. -/
theorem burst_move (cur : (c.dev.xfr.ch.at n).cur = some q) (run : (c.dev.xfr.ch.at n).st = .run)
    (held : thold n c.dev = false) (op : q.op = 1) (plane : q.plane = 0) (unpaced : q.pace = false) :
    burst n now c = moveBurst n q now c := by
  simp [burst, cur, run, held, op, plane, unpaced]

theorem burst_idles (waits : (c.dev.xfr.ch.at n).cur = none ∨ (c.dev.xfr.ch.at n).st ≠ .run) : burst n now c = c := by
  unfold burst
  dsimp only
  rcases waits with none | still
  · rw [none]
  · split
    · rfl
    · rw [if_pos (by simp [still])]

/-- R336: the addresses of a linear side below the end of the address space. -/
theorem linear_addresses {f : Nat → Nat → Nat} (linear : ∀ a k, f a k = (a + k) % 4294967296) {a k : Nat}
    (inside : a + k ≤ 0x200000) : (nats k).map (f a) = List.range' a k := by
  rw [nats_eq, List.range'_eq_map_range]
  refine List.map_congr_left fun i mem => ?_
  rw [List.mem_range] at mem
  rw [linear, Nat.mod_eq_of_lt (by omega)]

/-- R345: the bytes that a burst of `k0` moves between `s` and `e`. -/
def burstBytes (p : Bool) (s e k0 : Nat) : Nat := min k0 (min (256 - s % unitBytes p) (256 - e % unitBytes p))

/-- R336: the channel once a burst of `k` bytes has been made. -/
def Device.bursted (n : XcNo) (q : XferDesc) (s e k now : Nat) (d : Device) : Device :=
  xferDone n q k q.len now (d.xcUpd n (fun x => { x with sptr := w32 (s + k), dptr := w32 (e + k) }))

/-- R336, R343: a burst of a linear MOVE between banks that are on copies its bytes. -/
theorem moveBurst_banks {s e k0 k : Nat} (ready : banksReady c.dev) (free : c.dev.mem.bytesB = [])
    (smode : q.smode = 0) (dmode : q.dmode = 0) (whole : q.part = 0) (src : q.src (c.dev.xfr.ch.at n) = s)
    (dst : q.dst (c.dev.xfr.ch.at n) = e) (size : min q.burst (q.len - q.moved) = k0)
    (fits : burstBytes (xPriv n) s e k0 = k) (sIn : s + k0 ≤ 0x200000) (eIn : e + k0 ≤ 0x200000) :
    ∃ d : Device, d.xfr = c.dev.xfr ∧ moveBurst n q now c =
      { ram := c.ram.bytesAt e ((List.range' s k).map (readByte c))
        dev := d.bursted n { q with moved := q.moved + k, part := k0 - k } s e k now } := by
  have below : k ≤ k0 := by
    rw [← fits]
    exact Nat.min_le_left _ _
  have sEnd : s + k ≤ 0x200000 := by omega
  have eEnd : e + k ≤ 0x200000 := by omega
  have srcLinear : ∀ a i, q.srcAddr a i = (a + i) % 4294967296 := fun a i => by rw [XferDesc.srcAddr, smode]; rfl
  have dstLinear : ∀ a i, q.dstAddr a i = (a + i) % 4294967296 := fun a i => by rw [XferDesc.dstAddr, dmode]; rfl
  have k1 : min (fitSide (xPriv n) 0 q.clog s (List.range' s k0) k0) (fitSide (xPriv n) 0 q.clog e (List.range' e k0) k0) = k := by
    rw [fitSide_linear, fitSide_linear, ← fits, burstBytes]
    omega
  have inBanks (a : Nat) (inside : a + k0 ≤ 0x200000) (o : Nat) (mem : o ∈ List.range' a k) : o < 0x200000 := by
    obtain ⟨-, high⟩ := List.mem_range'_1.mp mem
    omega
  have reads : (List.range' s k).all (readOk (xPriv n) c.dev) = true :=
    List.all_eq_true.mpr fun o mem => readOk_ready ready (inBanks s sIn o mem)
  have writes : (List.range' e k).all (writeOk (xPriv n) c.dev (List.range' e k)) = true :=
    List.all_eq_true.mpr fun o mem => writeOk_ready ready _ (inBanks e eIn o mem)
  obtain ⟨m, v, loaded, -, bytes⟩ := loads_changes (now := now) (bankWords (covered (xPriv n) (List.range' s k))) c.dev
  have read : readBytes (xPriv n) (List.range' s k) now c =
      ((List.range' s k).map (readByte c), { c with dev := { c.dev with mem := m, evc := v } }) := by
    rw [readBytes, Core.mapDev, loaded]
  have pairs : ∀ x ∈ (List.range' e k).zip ((List.range' s k).map (readByte c)), x.1 < 0x200000 := fun x mem =>
    inBanks e eIn x.1 (List.of_mem_zip mem).1
  obtain ⟨m', v', t, stored⟩ := storeBytes_banks n pairs now (c := { c with dev := { c.dev with mem := m, evc := v } })
    (bytes.trans free)
  have go (words : List Nat) : burstBlocked n words now c.dev = none := by
    rw [burstBlocked, askBanks_ready ready]
  refine ⟨{ c.dev with mem := m', evc := v', turn := t }, rfl, ?_⟩
  unfold moveBurst
  dsimp only
  rw [src, dst, size, if_pos whole, smode, dmode, linear_addresses srcLinear sIn, linear_addresses dstLinear eIn, k1]
  simp only [if_neg (show ¬ (0 : Nat) = 1 by decide)]
  rw [linear_addresses srcLinear sEnd, linear_addresses dstLinear eEnd, reads, writes, go]
  dsimp only
  rw [if_neg (show ¬ (!true) = true by decide), if_neg (show ¬ (!true) = true by decide), read]
  dsimp only
  rw [stored, srcLinear, dstLinear, Nat.mod_eq_of_lt (show s + k < 4294967296 by omega),
    Nat.mod_eq_of_lt (show e + k < 4294967296 by omega)]
  have length : ((List.range' s k).map (readByte c)).length = k := by rw [List.length_map, List.length_range']
  rw [Ram.bytesAt, length]
  rfl

end

end Machine

end Sys2Proof

namespace Sys2Proof

namespace Machine

/-! ## The channel after a burst -/

section

variable {n : XcNo} {q : XferDesc} {s e k now : Nat} {d : Device}

/-- R336, R347: a MOVE that has bytes left goes on. -/
theorem bursted_more (more : q.moved < q.len) : (d.bursted n q s e k now).xfr.ch.at n = { d.xfr.ch.at n with
    sptr := w32 (s + k), dptr := w32 (e + k), bytes := (d.xfr.ch.at n).bytes + w32 k
    cur := some { q with granted := q.granted && q.mid, lastAt := some now } } := by
  rw [Device.bursted, xferDone, if_neg (not_le.mpr more)]
  simp only [Device.xcUpd_xfr, Tab.at_upd_same]

/-- R336: the last burst ends the descriptor. -/
theorem bursted_last (last : q.len ≤ q.moved) : (d.bursted n q s e k now).xfr.ch.at n = { d.xfr.ch.at n with
    sptr := w32 (s + k), dptr := w32 (e + k), bytes := (d.xfr.ch.at n).bytes + w32 k
    pc := w32 ((d.xfr.ch.at n).pc.toNat + 8 * q.words.length), cur := none, st := .run } := by
  rw [Device.bursted, xferDone, if_pos last, xGoOn_channel]
  simp only [Device.xcUpd_xfr, Tab.at_upd_same]

theorem bursted_others : otherXfers n d (d.bursted n q s e k now) := by
  intro o other
  rw [Device.bursted, xferDone]
  split
  · rw [xGoOn_others other]
    simp only [Device.xcUpd_xfr, Tab.at_upd_ne _ _ other]
  · simp only [Device.xcUpd_xfr, Tab.at_upd_ne _ _ other]

end

/-- R336, R345, R347: what a burst of `k` bytes out of `most` leaves of its channel, and of the others. -/
theorem bursted_result {n : XcNo} {q : XferDesc} {s e k most now : Nat} {d c : Device} (below : k ≤ most) (op : q.op = 1)
    (same : d.xfr = c.xfr) (run : (c.xfr.ch.at n).st = .run) :
    let x := c.xfr.ch.at n
    let after := d.bursted n { q with moved := q.moved + k, part := most - k } s e k now
    let y := after.xfr.ch.at n
    y.sptr = w32 (s + k) ∧ y.dptr = w32 (e + k) ∧ y.bytes = x.bytes + w32 k ∧ y.st = .run ∧
    (q.moved + k < q.len → y.pc = x.pc ∧ y.cur = some { q with
      moved := q.moved + k, part := most - k, granted := q.granted && decide (k < most), lastAt := some now }) ∧
    (q.len ≤ q.moved + k → y.cur = none ∧ y.pc = w32 (x.pc.toNat + 8 * q.words.length)) ∧ otherXfers n c after := by
  intro x after y
  have others : otherXfers n c after := fun o other => by
    rw [← same]
    exact bursted_others o other
  have mid : XferDesc.mid { q with moved := q.moved + k, part := most - k } = decide (k < most) := by
    have second : (q.op == 2) = false := by
      rw [op]
      rfl
    change (most - k != 0 || (q.op == 2 && q.rd != 0)) = _
    rw [second, Bool.false_and, Bool.or_false, Bool.eq_iff_iff, bne_iff_ne, decide_eq_true_iff]
    omega
  rcases Nat.lt_or_ge (q.moved + k) q.len with more | last
  · have channel : y = _ := bursted_more (q := { q with moved := q.moved + k, part := most - k }) more
    rw [mid, same] at channel
    rw [channel]
    exact ⟨rfl, rfl, rfl, run, fun _ => ⟨rfl, rfl⟩, fun done => absurd done (not_le.mpr more), others⟩
  · have channel : y = _ := bursted_last (q := { q with moved := q.moved + k, part := most - k }) last
    rw [same] at channel
    rw [channel]
    exact ⟨rfl, rfl, rfl, rfl, fun more => absurd more (not_lt.mpr last), fun _ => ⟨rfl, rfl⟩, others⟩

/-- R345: the bytes of a burst, from the number of the channel. -/
theorem burstBytes_channel (n : XcNo) (s e k0 : Nat) : burstBytes (xPriv n) s e k0 =
    min k0 (min (256 - s % (if 28 ≤ n.val then 16 else 8)) (256 - e % (if 28 ≤ n.val then 16 else 8))) := by
  have unit : unitBytes (xPriv n) = if 28 ≤ n.val then 16 else 8 := by
    rw [unitBytes, xPriv]
    exact if_congr decide_eq_true_iff rfl rfl
  rw [burstBytes, unit]

/-- R343: the bytes that a burst copies, and the bytes that it leaves. -/
theorem bankRead_copied {c : Core} (wf : c.ram.wf) {s e k : Nat} (sIn : s + k ≤ 0x200000) (eIn : e + k ≤ 0x200000) :
    (∀ i, i < k → (c.ram.bytesAt e ((List.range' s k).map (readByte c))).bankRead 1 (e + i) = c.ram.bankRead 1 (s + i)) ∧
    (∀ o, o < e ∨ e + k ≤ o → (c.ram.bytesAt e ((List.range' s k).map (readByte c))).bankRead 1 o = c.ram.bankRead 1 o) := by
  have length : ((List.range' s k).map (readByte c)).length = k := by rw [List.length_map, List.length_range']
  have inside : e + ((List.range' s k).map (readByte c)).length ≤ bankSize := by
    rw [length]
    exact eIn
  refine ⟨fun i low => ?_, fun o apart => ?_⟩
  · have byte : c.ram.bankRead 1 (s + i) < 256 := by
      rw [bankRead_one]
      exact BitVec.isLt _
    rw [Ram.bankRead_bytesAt _ _ _ wf inside, length, if_pos (by omega), Nat.add_sub_cancel_left, List.getElem?_map,
      List.getElem?_range' low, Nat.one_mul, Option.map_some, Option.getD_some, readByte_bank (by omega), BitVec.toNat_ofNat]
    exact Nat.mod_eq_of_lt byte
  · rw [Ram.bankRead_bytesAt _ _ _ wf inside, length, if_neg (by omega)]

/-- Settles O49: a fetch in banks that are on starts its descriptor, a burst there copies its bytes, and a channel that waits
goes on when what it waits for has come. -/
theorem transferMoves : Obligations.TransferMoves := by
  unfold Obligations.TransferMoves
  intro s n x a w inBanks notJustNow
  refine ⟨?fetchIdles, ?ends, ?jumps, ?marked, ?refetch, ?refetchIdles, ?burstIdles, ?burst, ?kick, ?kickWaits, ?time,
    ?timeWaits, ?signal, ?signalIdles, ?planeIdles, ?plane⟩
  case fetchIdles =>
    intro waits
    exact idles_of_run _ (exec_descriptorFetch n s) (descriptorFetch_idles waits)
  case ends =>
    rintro run none ⟨aligned, below, ready, held⟩ zero
    apply brings_of_run _ (exec_descriptorFetch n s) (fun d => xStart n (.single 0) s.mt (loadB a s.mt d))
    · rw [descriptorFetch_of run none held,
        xFetch_single rfl aligned below ready zero (by decide) (by decide) (by decide) (descBad_end _ _)]
    · rw [xStart_end, Device.xcUpd_xfr, Tab.at_upd_same, loadB_xfr]
      refine ⟨rfl, rfl, rfl, fun o other => ?_⟩
      rw [Device.xcUpd_xfr, Tab.at_upd_ne _ _ other, loadB_xfr]
  case jumps =>
    rintro run none ⟨aligned, below, ready, held⟩ jump rest target targetBelow
    have unmarked : bitOf w 55 = false := bitOf_inside rest (by decide) (by decide)
    have short : descLen w = 1 := by simp only [descLen, jump]
    apply brings_of_run _ (exec_descriptorFetch n s) (fun d => xStart n (.single w) s.mt (loadB a s.mt d))
    · rw [descriptorFetch_of run none held, xFetch_single rfl aligned below ready rfl (by rw [jump]) unmarked short
        (descBad_jump jump rest target targetBelow _ _)]
    · rw [xStart_jump jump, xGoOn_channel]
      refine ⟨rfl, ?_, rfl, fun o other => ?_⟩
      · exact Nat.mod_eq_of_lt (by omega)
      · rw [xGoOn_others other, loadB_xfr]
  case marked =>
    rintro run none ⟨aligned, below, ready, held⟩ loop bad
    have marked : bitOf w 55 = true := bitOf_of_fld_one bad (by decide)
    have long : descLen w = 2 := by simp only [descLen, loop]
    apply brings_of_run _ (exec_descriptorFetch n s) (fun d => xGoOn n (a + 8 * 2) (loadB a s.mt d))
    · rw [descriptorFetch_of run none held, xFetch_banks rfl aligned below ready rfl (by rw [loop]; decide),
        xDecode_marked marked, long]
      rfl
    · rw [xGoOn_channel]
      refine ⟨rfl, w32_add x.pc 16, rfl, fun o other => ?_⟩
      rw [xGoOn_others other, loadB_xfr]
  case refetch =>
    rintro ended rang ⟨aligned, below, ready, held⟩ zero
    let rung : Device → Device := fun d => d.xcUpd n (fun x => { x with bell := false, st := .run })
    have channel (d : Device) : (rung d).xfr.ch.at n = { d.xfr.ch.at n with bell := false, st := .run } := Tab.at_upd_same _ _ _
    apply brings_of_run _ (exec_atendRefetch n s) (fun d => xStart n (.single 0) s.mt (loadB a s.mt (rung d)))
    · have pc : ((s.core.mapDev rung).dev.xfr.ch.at n).pc.toNat = a := by
        rw [Core.mapDev_dev, channel]
      rw [atendRefetch_of ended rang held, xFetch_single (c := s.core.mapDev rung) pc aligned below ready
        ((fetchWord_ram (c := s.core.mapDev rung) (Core.mapDev_ram _ _) aligned below).trans zero) (by decide) (by decide)
        (by decide) (descBad_end _ _)]
      rfl
    · dsimp only
      rw [xStart_end, Device.xcUpd_xfr, Tab.at_upd_same, loadB_xfr, channel]
      refine ⟨rfl, rfl, rfl, fun o other => ?_⟩
      rw [Device.xcUpd_xfr, Tab.at_upd_ne _ _ other, loadB_xfr]
      exact Tab.at_upd_ne _ _ other
  case refetchIdles =>
    intro waits
    exact idles_of_run _ (exec_atendRefetch n s) (atendRefetch_idles waits)
  case burstIdles =>
    intro waits
    exact idles_of_run _ (exec_burst n s) (burst_idles waits)
  case burst =>
    intro q cur run held ready wf op plane unpaced smode dmode left whole free unit most b e k sIn eIn
    have size : burstBytes (xPriv n) b e most = k := burstBytes_channel n b e most
    have below : k ≤ most := Nat.min_le_left _ _
    obtain ⟨d, same, moved⟩ := moveBurst_banks (now := s.mt) ready free smode dmode whole rfl rfl rfl size sIn eIn
    apply bringsAll_of_run _ (exec_burst n s)
    rw [burst_move cur run held op plane unpaced, moved]
    obtain ⟨copied, kept⟩ := bankRead_copied wf (s := b) (e := e) (k := k) (by omega) (by omega)
    dsimp only
    refine ⟨copied, fun o _ apart => kept o apart, Ram.bytesAt_alm _ _ _, Ram.bytesAt_prog _ _ _, Ram.bytesAt_lbuf _ _ _, ?_⟩
    exact bursted_result below op same run
  case kick =>
    intro st some' before
    apply brings_of_runDev _ (exec_xfrWaitSatisfied n s)
    rw [burstJustNow_not before, if_neg Bool.false_ne_true, waitSatisfied_kick st, if_pos some', xGoOn_channel,
      Device.xcUpd_xfr, Tab.at_upd_same]
    refine ⟨rfl, rfl, w32_add x.pc 16, rfl, fun o other => ?_⟩
    rw [xGoOn_others other, Device.xcUpd_xfr, Tab.at_upd_ne _ _ other]
  case kickWaits =>
    intro st none
    refine idles_of_runDev _ (exec_xfrWaitSatisfied n s) (waits_on ?_)
    rw [waitSatisfied_kick st]
    exact if_neg (Nat.not_lt.mpr (Nat.le_of_eq none))
  case time =>
    intro st come before
    apply brings_of_runDev _ (exec_xfrWaitSatisfied n s)
    rw [burstJustNow_not before, if_neg Bool.false_ne_true, waitSatisfied_time st, if_pos come, xGoOn_channel]
    exact ⟨rfl, rfl, w32_add x.pc 16, rfl, fun o other => xGoOn_others other _ _⟩
  case timeWaits =>
    intro st early
    refine idles_of_runDev _ (exec_xfrWaitSatisfied n s) (waits_on ?_)
    rw [waitSatisfied_time st]
    exact if_neg (not_le.mpr early)
  case signal =>
    intro q cur signal run kind h
    apply brings_of_run _ (exec_signalDelivery n s) _ (signalDeliver_program cur signal run kind)
    obtain ⟨count, channel, others⟩ := signalled_of n h s.core.dev
    rw [xGoOn_channel, channel]
    exact ⟨count, rfl, rfl, w32_add x.pc 8, rfl, others⟩
  case signalIdles =>
    intro none
    exact idles_of_run _ (exec_signalDelivery n s) (signalDeliver_idles none)
  case planeIdles =>
    intro none
    apply idles_of_runDev _ (exec_planeUnitGrant s)
    rw [planeGrant_two, planeGive_none none, planeGive_none none]
  case plane =>
    intro waits free first
    apply brings_of_runDev _ (exec_planeUnitGrant s)
    obtain ⟨unit, run, pc⟩ := planeGive_first free waits first
    obtain ⟨kept, channel⟩ := planeGive_keeps (u := 1) run (show (0 : Fin 2) ≠ 1 by decide)
    rw [planeGrant_two, kept, channel, unit, Tab.at_put_same]
    exact ⟨rfl, run, pc⟩

end Machine

end Sys2Proof
